-- ==== Sys2Proof/Word.lean ====
section
/-! DEFINITION. The word types of the module and the sparse map that holds its large arrays. -/

namespace Sys2Proof

/-- A byte of memory, of a store or of a packet. -/
abbrev Byte := BitVec 8

/-- A 32-bit control-space register, memory word or packet word (00 R4). -/
abbrev Word := BitVec 32

/-- A 64-bit scalar register of a frond (05 R134). -/
abbrev DWord := BitVec 64

/-- A 64-B word of memory, or a 64-B granule of a store; byte i is bits [8i+7:8i] (00 R3, 01 R13). -/
abbrev Gran := BitVec 512

/-- A 256-B cache line; byte i is bits [8i+7:8i] (01 R13). -/
abbrev Line := BitVec 2048

/-- A large array held sparsely, its keys rising: an unlisted key stands for the array's default. -/
abbrev SMap (α : Type) := List (Nat × α)

/-- The entry of key k, where one is listed. -/
def SMap.find {α : Type} : SMap α → Nat → Option α
  | [], _ => none
  | (i, a) :: m, k => if i = k then some a else SMap.find m k

/-- The entry of key k, or the array's default. -/
def SMap.get {α : Type} (m : SMap α) (k : Nat) (d : α) : α := (m.find k).getD d

/-- The array with key k's entry replaced. -/
def SMap.put {α : Type} : SMap α → Nat → α → SMap α
  | [], k, a => [(k, a)]
  | (i, b) :: m, k, a =>
    if k < i then (k, a) :: (i, b) :: m
    else if i = k then (k, a) :: m
    else (i, b) :: SMap.put m k a

/-- The array with key k unlisted. -/
def SMap.drop {α : Type} (m : SMap α) (k : Nat) : SMap α := m.filter (fun e => e.1 ≠ k)

end Sys2Proof
end

