-- ==== Sys2Proof/Syntax.lean ====
section
/-! DEFINITION. The commands of the module: one constructor per row of the table, with the operands the spec's rules
give the operation or event. What physics or another party decides (a parity outcome, a measured value, a test's
verdict, the moment of an event) is an operand (log 2, log 7). -/

namespace Sys2Proof

/-- How a read of one 64-B word of the cells went (08 R264): good at once, at the first or the second retry, or never;
with the mask of the bytes that failed, of the first attempt where a retry was good. -/
inductive ReadTry where
  | good
  | first (bytes : BitVec 64)
  | second (bytes : BitVec 64)
  | never (bytes : BitVec 64)
  deriving DecidableEq, Repr

/-- How a write of one word fared (08 R266): received at once, resent, or failed all three times at some bytes. -/
inductive WriteTry where
  | good
  | resent
  | failed (bytes : BitVec 64)
  deriving DecidableEq, Repr

/-- What fails for an access on the way to and in its home half: nothing, bytes of a word of its line or a way's tag
(09 R292), or the link-level check of a bridge on its path, after 4 resends (16 R517): stack bridge 0-3, or 16 + stitch
bridge. -/
inductive CacheFault where
  | none
  | data (word : Fin 4) (bytes : BitVec 64)
  | bridge (b : Fin 32)
  | tag (way : Fin 16)
  deriving DecidableEq, Repr

/-- An atomic access in its home half: its transfer, and what fails for it. -/
structure HomeTry where
  x : Nat
  flt : CacheFault
  deriving DecidableEq, Repr

/-- The return of a fill: how the reads of its words went, and what fails in the arrays. -/
structure FillTry where
  reads : List ReadTry
  flt : CacheFault
  deriving DecidableEq, Repr

/-- What the outside decides at a frame boundary: the 64-B words (by number) whose cells fail parity in the boundary's
row copies (08 R268), and the measured power in mW of the closed frame by domain (13 R436, R438). -/
structure TickEnv where
  copyFail : List Nat := []
  measured : List Nat := []
  deriving DecidableEq, Repr

/-- A request packet's header and data (11 R373). -/
structure ReqHdr where
  pkt : BitVec 4
  space : BitVec 2
  lu : Bool
  dst : BitVec 12
  hops : BitVec 4
  len : BitVec 13
  aop : BitVec 2
  afmt : BitVec 2
  addr : BitVec 40
  rsn : BitVec 48
  tag : Word
  data : List Byte
  deriving DecidableEq, Repr

/-- A completion packet's header and data (11 R375). -/
structure CplHdr where
  status : BitVec 4
  sealRes : BitVec 3
  dup : Bool
  rsn : BitVec 48
  tag : Word
  result : BitVec 16
  pmask : BitVec 64
  data : List Byte
  deriving DecidableEq, Repr

/-- A command packet as it reaches its target (11 R373, 12 R401). `len` is the request's LEN; `reserved` says that every
reserved bit is 0; the body is in 32-bit words; `t` is the moment of arrival. -/
structure CmdPkt where
  port : Fin 6
  rsn : BitVec 48
  rtag : Word
  space : BitVec 2
  len : Nat
  bodyLen : Nat
  modl : BitVec 12
  reserved : Bool
  counter : BitVec 64
  body : List Word
  tag : BitVec 128
  t : Nat
  deriving DecidableEq, Repr

/-- What a slice of the sweep tested and found (16 R522). -/
inductive SweepItem where
  /-- A frond's arrays: the self-test passed or failed. -/
  | array (f : Fin 256) (ok : Bool)
  /-- A frond's SRAM block: passed or failed, and the granules whose saved copy failed parity on restore: the operand store's
  from 0, the side memory's from 393216, the instruction store's from 425984. -/
  | frondSram (f : Fin 256) (ok : Bool) (lost : List Nat)
  /-- A gemma's SRAM block. -/
  | gemmaSram (g : Fin 2048) (ok : Bool) (lost : List Nat)
  /-- One way of one slice of a cache half. -/
  | cacheWay (h : Fin 32) (slice way : Fin 16) (ok : Bool)
  /-- A lane of a rhizoid (0-271), tested bad or good. -/
  | rhizoidLane (f : Fin 256) (lane : Nat) (ok : Bool)
  /-- A lane of a cache channel. -/
  | channelLane (f : Fin 256) (lane : Nat) (ok : Bool)
  /-- A command group: 0-1 the rhizoid's copies, 2-3 the cache channel's. -/
  | cmdGroup (f : Fin 256) (group : Fin 4) (ok : Bool)
  /-- A stack bridge's lanes: whether it still passes its lane check. -/
  | stackBridge (s : Fin 4) (ok : Bool)
  /-- A stitch bridge's lanes. -/
  | stitchBridge (l : Fin 16) (ok : Bool)
  /-- A latent-error read of one word of a partition. -/
  | latent (word : Nat) (tr : ReadTry)
  /-- A unit's coverage completed. -/
  | covered (f : Fin 256)
  deriving DecidableEq, Repr

/-- A unit found bad by a bring-up or reset test: kind 0 frond, 1 gemma, 2 bank (15 R491). A stack reset's steps 2 and 3 of
15 R493 add 3 a rhizoid's lane (512 × frond + lane), 4 a cache channel's, 5 a command group (4 × frond + group), 6 a spare slot
(16 × bank + slot), 7 a row whose fused spare is bad (16384 × bank + row). -/
structure BadUnit where
  kind : Fin 8
  index : Nat
  deriving DecidableEq, Repr

/-- What stage 3's tests found (15 R493). -/
structure MemTestEnv where
  failedLanes : List (Nat × Nat) := []
  failedChannelLanes : List (Nat × Nat) := []
  failedGroups : List (Nat × Nat) := []
  badSpares : List (Nat × Nat) := []
  badFused : List (Nat × Nat) := []
  failedRows : List (Nat × Nat) := []
  deriving DecidableEq, Repr

/-- What a thermal model step measures at its inputs (14 R454, R462): domain powers in mW, whether more than four domain
currents are implausible is in State. Temperatures are in 1/8 K. -/
structure ThermEnv where
  t : Nat
  power : List Nat := []
  inputPower : Nat := 0
  deriving DecidableEq, Repr

/-- Register and field accesses over the test port (12 R414). -/
inductive JtagOp where
  | read
  | write (v : Word)
  deriving DecidableEq, Repr

/-- The commands, in the table's order. -/
inductive Instr where
  | frameTickEdge (t high : Nat) (env : TickEnv)
  | internalTick (t : Nat) (env : TickEnv)
  | fallbackTick (t : Nat) (env : TickEnv)
  | planCommit (slot : Fin 2)
  | planCheckEnd (slot : Fin 2) (t : Nat)
  | unitDispatch (u t : Nat)
  | unitEnd (u t : Nat)
  | nop (f : Fin 256)
  | fend (f : Fin 256)
  | commit (f : Fin 256)
  | salu (f : Fin 256)
  | sld (f : Fin 256)
  | sst (f : Fin 256)
  | srd (f : Fin 256) (t : Nat)
  | br (f : Fin 256)
  | loop (f : Fin 256)
  | waitf (f : Fin 256)
  | waitm (f : Fin 256)
  | waitmPoll (f : Fin 256)
  | sig (f : Fin 256)
  | fence (f : Fin 256)
  | lds (f : Fin 256)
  | sts (f : Fin 256)
  | atom (f : Fin 256)
  | top (f : Fin 256)
  | tzero (f : Fin 256)
  | tmovi (f : Fin 256)
  | tmovo (f : Fin 256)
  | tmovr (f : Fin 256)
  | turn (f : Fin 256)
  | row (f : Fin 256)
  | topkr (f : Fin 256)
  | rowcfg (f : Fin 256)
  | computeInstructionEnd (f : Fin 256) (n : Nat)
  | streamEnd (x : Nat)
  | readDataReturn (x i : Nat)
  | writeLanded (x i : Nat)
  | attSetup (f : Fin 256)
  | attRun (f : Fin 256)
  | attItemEnd (f : Fin 256)
  | freezeDrainEnd (m : BitVec 12) (t : Nat)
  | gemmaBaseInstruction (g : Fin 2048)
  | gemmaEcall (g : Fin 2048)
  | gemmaCsrAccess (g : Fin 2048)
  | gbLd (g : Fin 2048) (tries : List ReadTry)
  | gbSt (g : Fin 2048) (tries : List WriteTry)
  | gbFill (g : Fin 2048) (tries : List WriteTry)
  | gbCrd (g : Fin 2048)
  | gbCwr (g : Fin 2048)
  | gbAtom (g : Fin 2048)
  | gbWait (g : Fin 2048)
  | gvLd (g : Fin 2048)
  | gvSt (g : Fin 2048)
  | gvDot (g : Fin 2048)
  | gvAxpy (g : Fin 2048)
  | gvMinadd (g : Fin 2048)
  | gvMaxadd (g : Fin 2048)
  | gvMac (g : Fin 2048)
  | gvScal (g : Fin 2048)
  | gvZero (g : Fin 2048)
  | gvRsum (g : Fin 2048)
  | gvRmin (g : Fin 2048)
  | gvRmax (g : Fin 2048)
  | gvArgmin (g : Fin 2048)
  | gvArgmax (g : Fin 2048)
  | gbCommit (g : Fin 2048)
  | gbFend (g : Fin 2048)
  | gbSig (g : Fin 2048)
  | gbWaitm (g : Fin 2048)
  | gbInfl (g : Fin 2048)
  | gbCrc (g : Fin 2048)
  | fexp2 (g : Fin 2048)
  | gbFence (g : Fin 2048)
  | gemmaTransferEnd (g : Fin 2048) (x : Nat)
  | gemmaCommitBarrier (u : Nat)
  | claimEnd (g : Fin 2048) (bank : Fin 4)
  | rhizoidRead (x : Nat) (tr : ReadTry)
  | rhizoidWrite (x : Nat) (tr : WriteTry)
  | cacheRead (x : Nat) (flt : CacheFault)
  | cacheWrite (x : Nat) (flt : CacheFault)
  | cacheAtomic (x : HomeTry)
  | fillReturn (h : Fin 32) (line : Nat) (tries : FillTry)
  | evictionWritebackIssue (h : Fin 32) (line : Nat)
  | evictionWritebackLanded (h : Fin 32) (line : Nat) (tries : List WriteTry)
  | refreshCommand (bank : Fin 8192) (t : Nat)
  | readRequest (p : Fin 6) (r : ReqHdr) (t : Nat)
  | writeRequest (p : Fin 6) (r : ReqHdr) (t : Nat)
  | atomicRequest (p : Fin 6) (r : ReqHdr) (t : Nat)
  | completion (p : Fin 6) (c : CplHdr) (t : Nat)
  | transactionTimeout (p : Fin 6) (rsn : BitVec 48) (t : Nat)
  | fecBlockReceive (p : Fin 6) (a b : List (List Nat))
  | alignmentBlock (p : Fin 6) (found : BitVec 8)
  | dataFlit (p : Fin 6) (flit : List Byte)
  | nullFlit (p : Fin 6) (flit : List Byte)
  | replayTimeout (p : Fin 6) (t : Nat)
  | hello (p : Fin 6) (flit : List Byte) (t : Nat)
  | trainingEnd (p : Fin 6) (lanes : BitVec 8) (fast : Bool) (settings : List Word) (t : Nat)
  | qualifyEnd (p : Fin 6) (lanes : BitVec 8) (t : Nat)
  | retrainCheckEnd (p : Fin 6) (lanes : BitVec 8) (settings : List Word) (t : Nat)
  | retrainTimeout (p : Fin 6) (t : Nat)
  | downTimeout (p : Fin 6) (t : Nat)
  | sessionInit (c : CmdPkt)
  | sessionResponseWrite (p : Fin 6)
  | attest (c : CmdPkt)
  | attestReportWrite (p : Fin 6)
  | fwUpdate (c : CmdPkt)
  | fwVerifyEnd
  | fwBroadcastEnd (missing : List (Nat × Nat))
  | fwRepairRound (missing : List (Nat × Nat))
  | cfgWrite (c : CmdPkt)
  | powerCap (c : CmdPkt)
  | keyOwnerSet (c : CmdPkt) (blown : Bool)
  | keyVendorRevoke (c : CmdPkt) (blown : Bool)
  | unfreeze (c : CmdPkt)
  | rtmapEdit (c : CmdPkt)
  | fuseRetire (c : CmdPkt) (blown : Bool)
  | windowSet (c : CmdPkt)
  | portBind (c : CmdPkt)
  | halfLayerReset (c : CmdPkt)
  | stackReset (c : CmdPkt)
  | moduleReset (c : CmdPkt)
  | debugUnlock (c : CmdPkt)
  | frondReset (p : Fin 6) (v : Word) (t : Nat)
  | resetDrainEnd (level : Fin 4) (unit : Nat)
  | resetWritebackEnd (level : Fin 4) (unit : Nat) (tries : List WriteTry)
  | resetReinitEnd (level : Fin 4) (unit : Nat) (bad : List BadUnit)
  | configLock (p : Fin 6) (v : Word)
  | lnkPortRetrain (p : Fin 6) (q : Fin 6) (v : Word) (t : Nat)
  | sealSet (p : Fin 6) (interleaved : Bool)
  | sealClear (p : Fin 6) (interleaved : Bool)
  | reseal (p : Fin 6) (interleaved : Bool)
  | sealVerify (p : Fin 6) (interleaved : Bool)
  | sealQuery (p : Fin 6) (interleaved : Bool)
  | sealCrcEnd (p : Fin 6) (tries : List ReadTry)
  | rotationRequest (a b : Fin 256) (copyMib : Nat)
  | rotationCopyEnd (copyFail : List Nat)
  | errLogAckWrite (p : Fin 6) (v : Word)
  | statLiveRead (reader : Fin 7) (counter : Nat)
  | registerWrite (p : Fin 6) (addr : Word) (v : Word)
  | errorHandling (t : Nat)
  | stopActionReset
  | sweepSlice (item : SweepItem)
  | coverageLate (t : Nat)
  | telemetrySample (t : Nat) (currents seconds : List Int) (vin iin : Nat)
  | powerControlStep (t : Nat) (raw : List Nat)
  | stackPoolRebalance
  | gainCalibration (raw meas : List Nat)
  | switchOnTest (d : Fin 56) (load : List Nat) (t : Nat)
  | rampEnd (d : Fin 56) (t : Nat)
  | initEnd (d : Fin 56) (t : Nat)
  | clampRelease (d : Fin 56) (t : Nat)
  | converterFault (d : Fin 56) (stageOne : Bool) (t : Nat)
  | droopStretch (h : Fin 32)
  | droopRelease (h : Fin 32)
  | ageingCheck (s : Fin 4) (derates : List (Nat × Nat))
  | sensorSample (t : Nat) (readings : List (Nat × Option Int))
  | thermalTrip (memory : Bool) (place : Nat)
  | thermalModelStep (s : Fin 4) (env : ThermEnv)
  | tachSilenceTimeout (t : Nat)
  | ladderStepB (t : Nat)
  | ladderStepC (t : Nat)
  | rotationHint (power : List Nat)
  | pwrEnRise (t : Nat) (strap : BitVec 3) (romOk : BitVec 4) (refclk : Bool)
  | pwrEnFall (t : Nat)
  | resetNAssert (low : Nat) (t : Nat)
  | resetNRelease (t : Nat) (romOk : BitVec 4) (refclk : Bool)
  | vinUndervoltage (mv held : Nat)
  | vinOvervoltage (mv held : Nat)
  | configImageLoad (readFail : BitVec 2)
  | fuseMapLoad (selfTest : BitVec 4) (copies : List (Fin 3))
  | memoryBringup (env : MemTestEnv)
  | linkTraining (t : Nat)
  | qualification (t : Nat)
  | computeWave (w : Fin 32) (bad : List BadUnit) (fault : Bool)
  | stage7Entry (t : Nat)
  | throttleAssert (t : Nat)
  | throttleRelease (t : Nat)
  | pwrThrottleHeld (t : Nat)
  | leakNAssert (held t : Nat)
  | tachEdge (input : Fin 2) (width t : Nat)
  | tachValidityCheck (t : Nat)
  | coolantTempSample (t : Nat) (readings : List Int)
  | refclkLoss (held t : Nat)
  | refclkReturn (held t : Nat)
  | flashSelChange (high : Bool)
  | i3cPrivateWrite (bytes : List Byte)
  | i3cPrivateRead (words : Nat)
  | setdasa (static dynamic : BitVec 7)
  | entdaa (dynamic : BitVec 7)
  | rstdaa
  | getpid
  | getbcr
  | getdcr
  | getstatus
  | getmxds
  | enec
  | disec
  | ibiRetry (t : Nat)
  | jtagBypass
  | jtagIdcode
  | jtagExtest (drive : BitVec 40)
  | jtagControlAccess (addr : Word) (op : JtagOp)
  | jtagMemoryAccess (addr : BitVec 40) (op : JtagOp)
  | jtagHaltStipe (s : Fin 4)
  | vinRise (mv t : Nat) (romOk : BitVec 4) (refclk : Bool)
  | pwrEnHonoured (t : Nat) (strap : BitVec 3) (romOk : BitVec 4) (refclk : Bool)
  | unlistedCmdType (type : BitVec 16) (c : CmdPkt)
  | sealCmdBadCommand (p : Fin 6) (cmd : Fin 8)
  | gbWaitmPoll (g : Fin 2048)
  | errorRecordForward (s : Fin 4)
  | trstNAssert (low : Nat)
  deriving DecidableEq, Repr

end Sys2Proof
end

