-- ==== Sys2Proof/Decode.lean ====
section
/-! DEFINITION. The table gives its rows no bits, so no word spells a command. -/

namespace Sys2Proof

/-- The command that a word of the table's bits spells: none does (log 16). -/
def decodeTableWord (_nbits _w : Nat) : Option Instr := none

end Sys2Proof
end

