-- ==== Sys2Proof/Config.lean ====
section
/-! DEFINITION. The free values: what the manual leaves open, as constants without a body. -/

namespace Sys2Proof.Config

/-- The efficiency that the two converters of a domain report, in tenths of a per cent, by use (13 R423). Log 14. -/
opaque efficiency : (domain use : Nat) → Nat

/-- The thousandths of a memory-pair domain's power that its 1.05 V rail carries, by use (13 R423). Log 14. -/
opaque railShare : (domain use : Nat) → Nat

/-- What a half-layer's regulator adds to the table voltage, in mV, to hold its lowest droop sensor there, by half-layer
and moment (13 R427). Log 14. -/
opaque setpointCorrection : (half moment : Nat) → Int

/-- A random 32-bit number drawn by the module, by draw index: LNK_SESSION (11 R390). Log 17. -/
opaque randomWord : Nat → Word

/-- A random 128-bit nonce, by draw index: SEC_DEBUG_NONCE (12 R414, R416). Log 17. -/
opaque randomNonce : Nat → BitVec 128

/-- The arbitrary bits of a 64-B word that has not been written since its layer's power-up number e
(08 R261, 15 R493). Log 6. -/
opaque unwrittenWord : (e : Nat) → (word : Nat) → Gran

/-- Which bytes of a word never written since power-up e fail parity (08 R261). Log 6. -/
opaque unwrittenParity : (e : Nat) → (word : Nat) → BitVec 64

/-- 256 bits that a cryptographic standard computes from bytes (12): `which` 0 SHAKE256, 1 the shared secret of an ML-KEM
encapsulation (from the key and a draw), 2 SHAKE256 over what this model writes out itself. Log 8. -/
opaque digest : (which : Nat) → List Byte → BitVec 256

/-- KMAC256 of 128 bits under the customisation string of R402 (12 R402). Log 8. -/
opaque kmac256 : (key : BitVec 256) → List Byte → BitVec 128

/-- Whether a Falcon-1024 signature verifies under a public key (12 R397-R399). Log 8. -/
opaque falconVerify : (key msg sig : List Byte) → Bool

/-- Byte i of the SHAKE256 output over a message (12 R397). Log 8. -/
opaque shakeByte : List Byte → Nat → Byte

/-- Byte i of what the module forms (12 R397, R407, R409): `which` 0 the identity public key from the 48 B that replace key
generation's random source, 1 an ML-KEM ciphertext from the key and a draw, 2 a signature from those 48 B and the message.
Log 8. -/
opaque signatureByte : (which : Nat) → List Byte → Nat → Byte

/-- The FP32 result an elementary function returns, before it is held inside the manual's bound (05 R162, 06 R180,
R182, 10 R324); `which`: 0 exp, 1 recip, 2 rsqrt, 3 sigmoid, 4 tanh, 5 a row's sum of weights (06 R182),
6 the attention pipeline's exp2, 7 FEXP2. Log 9. -/
opaque elementary : (which : Nat) → Word → Word

/-- The temperature of a thermal model's node after a step, in 1/8 K, from the step's inputs (14 R454). Log 10. -/
opaque thermalNode : (stack node : Nat) → List Int → Int

/-- A sensor's predicted reading, in 1/8 K, from its node's temperature (14 R454). Log 10. -/
opaque sensorPrediction : (sensor : Nat) → (node : Int) → Int

/-- Pundafort's identity code in IDCODE (17 R545). Log 19. -/
opaque idCode : BitVec 12

/-- Bytes of the I3C target that the manual leaves to its standard (17 R542): 0 and 1 bits [47:32] of the provisional ID, 2
BCR, 3 DCR, 4 and 5 GETMXDS. Log 19. -/
opaque i3cByte : Nat → Byte

/-- A value the manual gives no number for, by a field of the state that each use advances: cycle counters (05 R146,
10 R311), the TAG of a forwarded request (11 R384) and the like. Log 14. -/
opaque freeValue : Nat → BitVec 64

end Sys2Proof.Config
end

