-- ==== Sys2Proof/Machine/Num.lean ====
section
/-! DEFINITION. Exact arithmetic on signed dyadic values and the formats of 04 R102, with the roundings of R105, R110
and R114. -/

namespace Sys2Proof.Machine

/-- An extended real: NaN with a sign, an infinity, or (-1)^s * m * 2^e, with a signed zero (m = 0). -/
inductive Val where
  | nan (s : Bool)
  | inf (s : Bool)
  | num (s : Bool) (m : Nat) (e : Int)
  deriving DecidableEq, Repr

/-- Which special codes a float format has (04 R103). -/
inductive Special where
  | ieee
  | onlyNan
  | none
  deriving DecidableEq, Repr

/-- A binary float format: exponent and mantissa widths, bias, special codes, and the largest finite magnitude as
maxM * 2^maxQ (04 R103, R113). -/
structure FF where
  eb : Nat
  mb : Nat
  bias : Int
  special : Special
  maxM : Nat
  maxQ : Int
  deriving DecidableEq, Repr

def ff32 : FF := ⟨8, 23, 127, .ieee, 2 ^ 24 - 1, 104⟩
def ffBf16 : FF := ⟨8, 7, 127, .ieee, 255, 120⟩
def ffFp16 : FF := ⟨5, 10, 15, .ieee, 2047, 5⟩
def ffE4m3 : FF := ⟨4, 3, 7, .onlyNan, 14, 5⟩
def ffE5m2 : FF := ⟨5, 2, 15, .ieee, 7, 13⟩
def ffE3m2 : FF := ⟨3, 2, 3, .none, 7, 2⟩
def ffE2m3 : FF := ⟨2, 3, 1, .none, 15, -1⟩
def ffE2m1 : FF := ⟨2, 1, 1, .none, 3, 1⟩

def Val.isNan : Val → Bool
  | .nan _ => true
  | _ => false

def Val.isInf : Val → Bool
  | .inf _ => true
  | _ => false

def Val.isZero : Val → Bool
  | .num _ 0 _ => true
  | _ => false

def Val.sign : Val → Bool
  | .nan s => s
  | .inf s => s
  | .num s _ _ => s

def Val.neg : Val → Val
  | .nan s => .nan (!s)
  | .inf s => .inf (!s)
  | .num s m e => .num (!s) m e

def Val.abs : Val → Val
  | .nan _ => .nan false
  | .inf _ => .inf false
  | .num _ m e => .num false m e

/-- An integer as a value. -/
def Val.ofInt (i : Int) : Val := .num (decide (i < 0)) i.natAbs 0

/-- The value that a code of format f stands for. -/
def FF.decode (f : FF) (w : Nat) : Val :=
  let man := w % 2 ^ f.mb
  let ex := w / 2 ^ f.mb % 2 ^ f.eb
  let s := w / 2 ^ (f.mb + f.eb) % 2 == 1
  let top := 2 ^ f.eb - 1
  if f.special == .ieee && ex == top then (if man == 0 then .inf s else .nan s)
  else if f.special == .onlyNan && ex == top && man == 2 ^ f.mb - 1 then .nan s
  else if ex == 0 then .num s man (1 - f.bias - f.mb)
  else .num s (2 ^ f.mb + man) (ex - f.bias - f.mb)

/-- m / 2^k to nearest, ties to even. -/
def shiftRne (m k : Nat) : Nat :=
  let q := m / 2 ^ k
  let r := m % 2 ^ k
  if 2 * r > 2 ^ k || (2 * r == 2 ^ k && k != 0 && q % 2 == 1) then q + 1 else q

/-- m / 2^k for magnitude m of sign s, stochastically with the 16 bits r (04 R114): up, that is towards +infinity, when
floor((x - lo) * 2^16 / (hi - lo)) > r. -/
def shiftSr (s : Bool) (m k r : Nat) : Nat :=
  let q := m / 2 ^ k
  let rem := m % 2 ^ k
  if rem == 0 then q
  else if s then (if (2 ^ k - rem) * 2 ^ 16 / 2 ^ k > r then q else q + 1)
  else (if rem * 2 ^ 16 / 2 ^ k > r then q + 1 else q)

/-- Magnitude m * 2^e rounded to the precision of f with an exponent unbounded above: r * 2^q (04 R110). -/
def FF.roundMag (f : FF) (sr : Option Nat) (s : Bool) (m : Nat) (e : Int) : Nat × Int :=
  let lo : Int := 1 - f.bias - f.mb
  if m == 0 then (0, lo)
  else
    let q := max ((Nat.log2 m : Int) + e - f.mb) lo
    if q ≤ e then (m * 2 ^ (e - q).toNat, q)
    else
      let k := (q - e).toNat
      (match sr with
        | none => shiftRne m k
        | some r => shiftSr s m k r, q)

/-- Whether r * 2^q exceeds the largest finite magnitude of f. -/
def FF.beyond (f : FF) (r : Nat) (q : Int) : Bool :=
  if f.maxQ ≤ q then decide (f.maxM < r * 2 ^ (q - f.maxQ).toNat)
  else decide (f.maxM * 2 ^ (f.maxQ - q).toNat < r)

/-- The code of sign s and magnitude r * 2^q, which f represents exactly. -/
def FF.encode (f : FF) (s : Bool) (r : Nat) (q : Int) : Nat :=
  let sb := if s then 2 ^ (f.eb + f.mb) else 0
  let (r, q) := if r == 2 ^ (f.mb + 1) then (r / 2, q + 1) else (r, q)
  if r < 2 ^ f.mb then sb + r
  else sb + (q + f.mb + f.bias).toNat * 2 ^ f.mb + (r - 2 ^ f.mb)

def FF.infCode (f : FF) (s : Bool) : Nat :=
  (if s then 2 ^ (f.eb + f.mb) else 0) + (2 ^ f.eb - 1) * 2 ^ f.mb

def FF.maxCode (f : FF) (s : Bool) : Nat := f.encode s f.maxM f.maxQ

/-- The canonical NaN of a float result (04 R106). -/
def canonNan : Word := 0x7FC00000#32

def f32 (w : Word) : Val := ff32.decode w.toNat

/-- Rounded once to FP32, to nearest even; beyond the range to infinity (04 R105, R106). -/
def toF32 (v : Val) : Word :=
  match v with
  | .nan _ => canonNan
  | .inf s => BitVec.ofNat 32 (ff32.infCode s)
  | .num s m e =>
    let (r, q) := ff32.roundMag none s m e
    if ff32.beyond r q then BitVec.ofNat 32 (ff32.infCode s) else BitVec.ofNat 32 (ff32.encode s r q)

/-- Exact sum; an exact zero is +0 except (-0) + (-0) (04 R106). -/
def Val.add : Val → Val → Val
  | .nan s, _ => .nan s
  | _, .nan s => .nan s
  | .inf s, .inf t => if s == t then .inf s else .nan false
  | .inf s, _ => .inf s
  | _, .inf s => .inf s
  | .num s m e, .num t n g =>
    let q := min e g
    let a : Int := m * 2 ^ (e - q).toNat
    let b : Int := n * 2 ^ (g - q).toNat
    let c := (if s then -a else a) + (if t then -b else b)
    if c == 0 then .num (s && t) 0 0 else .num (decide (c < 0)) c.natAbs q

def Val.sub (a b : Val) : Val := a.add b.neg

/-- Exact product; infinity times zero is NaN (04 R106). -/
def Val.mul : Val → Val → Val
  | .nan s, _ => .nan s
  | _, .nan s => .nan s
  | .inf s, .num t n _ => if n == 0 then .nan false else .inf (s != t)
  | .num t n _, .inf s => if n == 0 then .nan false else .inf (s != t)
  | .inf s, .inf t => .inf (s != t)
  | .num s m e, .num t n g => .num (s != t) (m * n) (e + g)

/-- A value times 2^k. -/
def Val.scale (v : Val) (k : Int) : Val :=
  match v with
  | .num s m e => .num s m (e + k)
  | v => v

/-- Order of two values that are no NaN; -0 is below +0 (04 R117). -/
def Val.lt : Val → Val → Bool
  | .nan _, _ => false
  | _, .nan _ => false
  | .inf s, .inf t => s && !t
  | .inf s, _ => s
  | _, .inf t => !t
  | .num s m e, .num t n g =>
    let q := min e g
    let a : Int := m * 2 ^ (e - q).toNat
    let b : Int := n * 2 ^ (g - q).toNat
    let x := if s then -a else a
    let y := if t then -b else b
    if x == 0 && y == 0 then s && !t else decide (x < y)

/-- Equality as a comparison: NaN equals nothing, -0 equals +0. -/
def Val.eqv (a b : Val) : Bool :=
  match a, b with
  | .nan _, _ => false
  | _, .nan _ => false
  | .num _ 0 _, .num _ 0 _ => true
  | a, b => !(a.lt b) && !(b.lt a)

def Val.minV (a b : Val) : Val := if b.lt a then b else a
def Val.maxV (a b : Val) : Val := if a.lt b then b else a

/-- The update of a minimum or maximum: a NaN addend leaves C, a NaN C is replaced (04 R117). -/
def Val.pick (mx : Bool) (c x : Val) : Val :=
  if x.isNan then c else if c.isNan then x else if mx then c.maxV x else c.minV x

def f32Add (a b : Word) : Word := toF32 ((f32 a).add (f32 b))
def f32Sub (a b : Word) : Word := toF32 ((f32 a).sub (f32 b))
def f32Mul (a b : Word) : Word := toF32 ((f32 a).mul (f32 b))

/-- floor(log2 |v|) of a non-zero number. -/
def Val.log2 : Val → Int
  | .num _ m e => (Nat.log2 m : Int) + e
  | _ => 0

/-- |v| ≤ M * 2^Q. -/
def Val.magLe (v : Val) (mm : Nat) (qq : Int) : Bool :=
  match v with
  | .num _ m e =>
    let q := min e qq
    decide (m * 2 ^ (e - q).toNat ≤ mm * 2 ^ (qq - q).toNat)
  | _ => false

/-- A quotient rounded once to FP32, to nearest even with a sticky bit (10 R311, R324). -/
def Val.div : Val → Val → Val
  | .nan s, _ => .nan s
  | _, .nan s => .nan s
  | .inf _, .inf _ => .nan false
  | .inf s, .num t _ _ => .inf (s != t)
  | .num s _ _, .inf t => .num (s != t) 0 0
  | .num s m e, .num t n g =>
    if n == 0 then (if m == 0 then .nan false else .inf (s != t))
    else
      let k := 64 + (Nat.log2 n)
      let a := m * 2 ^ k
      let qn := a / n
      .num (s != t) (2 * qn + (if a % n == 0 then 0 else 1)) (e - g - k - 1)

/-- The integer square root of a natural by 40 binary digits at most of fuel. -/
def isqrtGo : Nat → Nat → Nat → Nat
  | 0, r, _ => r
  | i + 1, r, n => let c := r + 2 ^ i; isqrtGo i (if c * c ≤ n then c else r) n

/-- A square root to 62 bits with a sticky bit, for one rounding to FP32. -/
def Val.sqrt : Val → Val
  | .nan s => .nan s
  | .inf s => if s then .nan false else .inf false
  | .num s m e =>
    if m == 0 then .num s 0 0
    else if s then .nan false
    else
      let (m, e) := if e % 2 == 0 then (m * 2 ^ 64, e - 64) else (m * 2 ^ 65, e - 65)
      let w := Nat.log2 m / 2 + 1
      let r := isqrtGo w 0 m
      .num false (2 * r + (if r * r == m then 0 else 1)) (e / 2 - 1)

/-- Truncation towards zero of a finite value. -/
def Val.trunc : Val → Int
  | .num s m e =>
    let a : Int := if 0 ≤ e then m * 2 ^ e.toNat else m / 2 ^ (-e).toNat
    if s then -a else a
  | _ => 0

/-- Value rounded to an integer, to nearest even. -/
def Val.rint : Val → Int
  | .num s m e =>
    let a : Int := if 0 ≤ e then m * 2 ^ e.toNat else shiftRne m (-e).toNat
    if s then -a else a
  | _ => 0

/-- An integer clamped to a range. -/
def clampInt (lo hi i : Int) : Int := if i < lo then lo else if hi < i then hi else i

/-- The two's complement integer a word holds. -/
def sInt (w : Word) : Int := w.toInt

/-- One element of an atomic (05 R153): AOP 0 ADD, 1 MIN, 2 MAX; AFMT 0 FP32, 1 BF16, 2 INT32. -/
def atomElem (aop afmt : Nat) (c x : Nat) : Nat :=
  if afmt == 2 then
    let a := BitVec.ofNat 32 c
    let b := BitVec.ofNat 32 x
    if aop == 0 then (a + b).toNat
    else if aop == 1 then (if b.slt a then x else c) else (if a.slt b then x else c)
  else
    let f := if afmt == 0 then ff32 else ffBf16
    let a := f.decode c
    let b := f.decode x
    if aop == 0 then
      match a.add b with
      | .nan _ => if afmt == 0 then 0x7FC00000 else 0x7FC0
      | .inf s => f.infCode s
      | .num s m e =>
        let (r, q) := f.roundMag none s m e
        if f.beyond r q then f.infCode s else f.encode s r q
    else
      if b.isNan then c
      else if a.isNan then x
      else if aop == 1 then (if b.lt a then x else c) else (if a.lt b then x else c)

/-- The number that bits [lo + n - 1 : lo] of a natural hold. -/
def bitsAt (w lo n : Nat) : Nat := w / 2 ^ lo % 2 ^ n

/-- One atomic granule (05 R153): element by element, over the elements the mask selects. -/
def atomGran (aop afmt : Nat) (old src : Gran) (mask : BitVec 64) : Gran :=
  let n := if afmt == 1 then 2 else 4
  let f (i : Nat) : Nat :=
    let c := bitsAt old.toNat (8 * n * i) (8 * n)
    if mask.getLsbD (n * i) then atomElem aop afmt c (bitsAt src.toNat (8 * n * i) (8 * n)) else c
  BitVec.ofNat 512 ((List.range (64 / n)).foldl (fun a i => a + f i * 2 ^ (8 * n * i)) 0)

/-- CRC-32C (reflected polynomial 0x82F63B78) of bytes from a register value; R51's DESC_CRC and GB.CRC (10 R321). -/
def crc32cByte (r : Word) (b : Byte) : Word :=
  (List.range 8).foldl (fun r _ => if r.getLsbD 0 then (r >>> 1) ^^^ 0x82F63B78#32 else r >>> 1)
    (r ^^^ b.setWidth 32)

def crc32cRaw (r : Word) (bs : List Byte) : Word := bs.foldl crc32cByte r

/-- CRC-32C with initial value and final inversion of all ones. -/
def crc32c (bs : List Byte) : Word := ~~~ (crc32cRaw 0xFFFFFFFF#32 bs)

end Sys2Proof.Machine
end

