-- ==== Sys2Proof/Machine/State.lean ====
section
/-! DEFINITION. The state of the module as plain data, the queue of waiting commands, and the state after reset. -/

namespace Sys2Proof.Machine

/-! ### Errors and statistics (16) -/

/-- An error record (16 R507), with the work unit whose journal entry links to it (0 none). -/
structure ErrRec where
  cls : Nat := 0
  lost : Bool := false
  kind : Nat := 0
  src : Nat := 0
  code : Nat := 0
  seq : Nat := 0
  count : Nat := 1
  frame : Nat := 0
  ns : Nat := 0
  addr : Nat := 0
  detail : Nat := 0
  sel : Bool := false
  unit : Nat := 0
  deriving DecidableEq, Repr

/-- The error FIFO, its handling and the log registers (16 R506-R516, R525-R528). -/
structure ErrS where
  /-- Entries in order of entry; `sel` marks one selected for handling. -/
  fifo : List ErrRec := []
  nextSeq : Nat := 1
  /-- SEQs of the records being handled, innermost first. -/
  handling : List Nat := []
  displaced : List ErrRec := []
  drops : Nat := 0
  overflow : Bool := false
  double : Bool := false
  fatal0 : Option ErrRec := none
  fatal1 : Option ErrRec := none
  head : Nat := 0
  ack : Nat := 0
  alertSeq : Nat := 0
  /-- The class of the record at `alertSeq`. -/
  alertCls : Nat := 0
  /-- SEQs in the log above HEAD. -/
  logged : List Nat := []
  last : SMap ErrRec := []
  lastHead : Nat := 0
  /-- Records raised in stack s and not yet forwarded to stipe 0 (16 R506). -/
  waiting : SMap (List ErrRec) := []
  deriving DecidableEq, Repr

/-- The counters (16 R518, R519); a counter's index is its STAT_ offset / 8. `hold`: each reader's capture. -/
structure StatS where
  live : SMap Nat := []
  shadow : SMap Nat := []
  hold : SMap (Nat × Nat) := []
  deriving DecidableEq, Repr

/-! ### Memory, rhizoids and cache (08, 09) -/

/-- A memory layer (08 R257, R258, R261, R279): the number of its last power-up, whether stage 3 marched it, refresh. -/
structure MemLayer where
  epoch : Nat := 0
  marched : Bool := false
  /-- BOOT_FILL wrote zero to every word since the power-up (08 R263): an unlisted byte reads 0. -/
  filled : Bool := false
  double : Bool := true
  unknown : Bool := true
  temp : Nat := 0
  coolSince : Option Nat := none
  deriving DecidableEq, Repr

/-- A bank (08 R250, R257, R267-R270, R281). `slots`: runtime spare slot to row; `fused`: rows a fused spare replaces;
`openRow`: subarray to open row. -/
structure Bank where
  queue : List Nat := []
  slots : SMap Nat := []
  badSlots : List Nat := []
  exhausted : Bool := false
  reported : List Nat := []
  fused : List Nat := []
  openRow : SMap Nat := []
  nextSub : Nat := 0
  lastRef : Nat := 0
  refreshes : Nat := 0
  deriving DecidableEq, Repr

/-- Bytes lo to hi - 1 of the partition half `key` (address / 2^31), whose unlisted bytes read otherwise than their layer
gives: after a rotation (14 R469, R470). -/
structure Area where
  key : Nat := 0
  lo : Nat
  hi : Nat
  epoch : Nat
  zero : Bool
  marched : Bool
  deriving DecidableEq, Repr

/-- Stored bytes (unlisted: never written), words of stored poison, banks and layers (08); power-ups of any layer so far;
areas, the first that holds an address ruling. -/
structure MemS where
  cells : List Host.Cell := []
  epochs : Nat := 1
  areas : List Area := []
  poison : SMap Unit := []
  layers : SMap MemLayer := []
  banks : SMap Bank := []
  rtlog : SMap Word := []
  rthead : Nat := 0
  edits : List (Bool × Nat × Nat × Nat) := []
  deriving DecidableEq, Repr

/-- A rhizoid and its cache channel (08 R253, R256, R271-R275, R282, R283). What takes effect at the next boundary: `pend` 1
HALF, 2 retired; `out`: the frond retires. -/
structure Rhz where
  mode : Nat := 0
  pend : Nat := 0
  out : Bool := false
  cmdAlt : Bool := false
  /-- Failed physical lanes, and which spare carries which active lane. -/
  failed : List Nat := []
  spared : List (Nat × Nat) := []
  ccFailed : List Nat := []
  ccSpared : List (Nat × Nat) := []
  cmdFail : BitVec 4 := 0#4
  /-- Rows with failing bytes in this frame: (path, lane, bank * 16384 + row); path 0 the rhizoid, 1 the cache channel, 2 the
  gemma port, whose failing bytes lie on no lane. -/
  laneRows : List (Nat × Nat × Nat) := []
  lastWrite : Option Bool := none
  deriving DecidableEq, Repr

/-- A cache line (09 R288). -/
structure CLine where
  line : Nat
  valid : BitVec 256 := 0#256
  dirty : BitVec 256 := 0#256
  pois : BitVec 4 := 0#4
  data : Line := 0#2048
  deriving DecidableEq, Repr

/-- An access at a home half, of granule i of transfer x. `kind`: 0 read, 1 write, 2 atomic. A read of several words of one
line is one access whose granules arrive one by one: `bytes` are all that it reads of the line, and `head` marks the first
granule. -/
structure HAcc where
  x : Nat
  i : Nat
  mid : Nat
  w : Nat
  kind : Nat
  lu : Bool := false
  mask : BitVec 64 := 0#64
  data : Gran := 0#512
  pois : Bool := false
  aop : Nat := 0
  afmt : Nat := 0
  bytes : BitVec 256 := 0#256
  head : Bool := true
  /-- Its hit or miss is counted already (09 R309). -/
  counted : Bool := false
  deriving DecidableEq, Repr

/-- An open fill entry (09 R297): the words needed, and the accesses waiting in order of arrival. `dead`: the transfer
whose miss found a ghost entry; `held`: its return has met a claim (10 R328). -/
structure Fill where
  line : Nat
  way : Nat
  opened : Nat
  need : BitVec 4
  waiters : List HAcc := []
  joined : Nat := 0
  dead : Option Nat := none
  held : Bool := false
  deriving DecidableEq, Repr

/-- An eviction entry (09 R295): the victim's dirty words and masks; open or closed; whether its landing has met a claim
(10 R328); the accesses waiting for the landing. -/
structure Evict where
  cl : CLine
  closed : Bool := false
  held : Bool := false
  waiters : List HAcc := []
  deriving DecidableEq, Repr

/-- A cache half (09 R288). `lines` and `plru` by set * 16 + way and set; `off`: ways out of service by a tag error
(set * 16 + way); `offSlice`: ways out of service by the sweep (slice * 16 + way); ghosts oldest first. -/
structure Half where
  lines : SMap CLine := []
  plru : SMap (BitVec 16) := []
  off : List Nat := []
  offSlice : List Nat := []
  fills : List Fill := []
  evicts : List Evict := []
  ghosts : List (Nat × Bool) := []
  /-- Accesses that wait for a way or an eviction entry, in order of arrival. -/
  blocked : List HAcc := []
  deriving DecidableEq, Repr

/-! ### Windows, freezes, transfers, units (03, 02) -/

/-- A drain in progress after a freeze (03 R90): the fields of the log entry to be latched (03 R96). -/
structure Drain where
  mid : Nat
  kind : Nat
  wset : Nat
  addr : Nat
  lastCommit : Nat
  context : Nat
  dead : Bool := false
  unit : Nat := 0
  /-- The master was unfrozen before its drain ended. -/
  free : Bool := false
  deriving DecidableEq, Repr

/-- Windows, bindings and freezes (03 R85-R96). `win` by set * 64 + window * 4 + word. -/
structure SecWin where
  win : SMap Word := []
  installed : List Nat := []
  bind : SMap Nat := []
  /-- Accepted changes for the next boundary: (set, install, words by window * 4 + word), and (port, set). -/
  pendSet : List (Nat × Bool × List Word) := []
  pendBind : List (Nat × Nat) := []
  frozen : List Nat := []
  drains : List Drain := []
  log : SMap Word := []
  logHead : Nat := 0
  pendUnfreeze : List Nat := []
  deriving DecidableEq, Repr

/-- What a transfer is for. -/
inductive XKind where
  | lds | sts | atom | sld | sst | sig | waitm
  | copyRead | copyWrite
  | gCrd | gCwr | gAtom | gSig | gWaitm | gLd | gSt | gFill
  | portRead | portWrite | portAtomic
  | stash
  deriving DecidableEq, Repr

/-- A granule of a transfer in flight. `stage`: 0 performing, 1 ready to deliver. -/
structure XGr where
  i : Nat
  stage : Nat := 0
  status : Nat := 0
  data : Gran := 0#512
  deriving DecidableEq, Repr

/-- A transfer of a master: `n` pieces, piece i at `base + (i / rowG) * stride + (i mod rowG) * 64`; the first `limit`
of them passed the window check (03 R89); `next` is the next to be performed. `loc`: the local granule, register or
byte of piece 0. `mask`: the bytes of one piece that the access touches. -/
structure Xfer where
  id : Nat
  mid : Nat
  kind : XKind
  base : Nat
  n : Nat
  rowG : Nat := 1
  stride : Int := 64
  limit : Nat
  next : Nat := 0
  done : Nat := 0
  size : Nat := 64
  loc : Nat := 0
  mask : BitVec 64 := BitVec.allOnes 64
  /-- Data captured at issue, by piece. -/
  data : SMap Gran := []
  masks : SMap (BitVec 64) := []
  pois : List Nat := []
  lu : Bool := false
  aop : Nat := 0
  afmt : Nat := 0
  flag : Option Nat := none
  ip : Nat := 0
  order : Nat := 0
  remote : Option Nat := none
  wset : Nat := 0
  unit : Nat := 0
  worst : Nat := 0
  gr : List XGr := []
  /-- Addresses lo to hi - 1 are redirected to start at the third (07 R237). -/
  redir : Option (Nat × Nat × Nat) := none
  /-- Pieces whose link request is out, by RSN on the egress port (11 R377). -/
  sent : List (Nat × Nat) := []
  held : Bool := false
  /-- A stash access (07 R235). -/
  sth : Bool := false
  /-- Host-interleaved addresses, under this SWIZZLE (10 R336). -/
  host : Option Bool := none
  /-- Pages of a port's read whose seal bit was clear at a line (10 R341). -/
  clear : List Nat := []
  /-- The line whose ghost entry a read of this transfer found (09 R301). -/
  deadLine : Option Nat := none
  deriving DecidableEq, Repr

/-- A work unit of a taken plan (02 R52-R72). `phase`: 0 not started, 1 running, 2 stopping, 3 ended. `gems`: gemmas of
the unit and what became of each. `stops`: the endings that arose (02 R70 cause, AUX). -/
structure WUnit where
  key : Nat
  seq : Nat
  index : Nat
  uid : Nat
  kind : Nat
  batch : Bool
  cont : Bool
  budget : Nat
  target : Nat
  gemMask : BitVec 8 := 0#8
  wset : Nat
  regions : List (Nat × Nat) := []
  dep0 : Nat := 0xFFFF
  dep1 : Nat := 0xFFFF
  stash : Nat := 0
  lender : Nat := 0
  addrA : Nat := 0
  addrB : Nat := 0
  length : Nat := 0
  pattern : Word := 0#32
  origin : Nat := 0
  start : Option Nat := none
  ended : Nat := 0
  carried : Nat := 0
  lastCommit : Nat := 0xFFFF
  /-- Regions written since the last commit point, and outside any region. -/
  touched : BitVec 8 := 0#8
  touchedOther : Bool := false
  poisoned : BitVec 8 := 0#8
  poisonOther : Bool := false
  deadref : Bool := false
  unstable : Bool := false
  errSeq : Nat := 0
  aux : Word := 0#32
  phase : Nat := 0
  state : Nat := 0
  cause : Nat := 0
  stops : List (Nat × Nat) := []
  /-- Issue number of the instruction whose exception is reported (05 R169). -/
  excAt : Nat := 0
  gems : List (Nat × Nat) := []
  uncertain : BitVec 8 := 0#8
  uncertainOther : Bool := false
  /-- AUX of a stash switch or stop (07 R240); none yet. -/
  stashAux : Option Word := none
  stashSpilled : Bool := false
  /-- The moment of the tick that took its plan. -/
  originT : Nat := 0
  deriving DecidableEq, Repr

/-! ### Fronds (01, 04, 05) -/

/-- One array's accumulators (04 R98, R108, R115): cell (i, j) at key 64 * i + j, unlisted cells at `fill`; the poisoned
cells; the class; the rounding generators of its columns that have drawn since their load. -/
structure Arr where
  fill : Word := 0#32
  cells : SMap Word := []
  pois : SMap Unit := []
  int : Bool := false
  gen : SMap Word := []
  deriving DecidableEq, Repr

/-- A level of the loop stack (05 R147). -/
structure LoopLv where
  start : Nat
  last : Nat
  left : Nat
  deriving DecidableEq, Repr

/-- A compute-queue instruction issued and not ended (05 R136): its issue number, index, bits, and the register values
and configuration it took at issue. -/
structure CQ where
  n : Nat
  ip : Nat
  bits : BitVec 128
  idx : DWord := 0#64
  started : Bool := false
  deriving DecidableEq, Repr

/-- A top-k list set in side memory (05 R158): slot, k, largest first, integer; entries filled by row. -/
structure ListSet where
  slot : Nat
  k : Nat
  large : Bool
  int : Bool
  filled : SMap Nat := []
  deriving DecidableEq, Repr

/-- The attention sequencer (06). `desc`, `arena`: the words ATT SUB 0 read; `rdesc`: the running run's. The item in
progress is (slot, layer, KV head, tile). `srec`: the sequence record; `code`: its status so far; `keys`: keys its last
row attended. -/
structure AttRun where
  desc : List Word := []
  arena : List Word := []
  fresh : Bool := false
  running : Bool := false
  rdesc : List Word := []
  flag : Option Nat := none
  ip : Nat := 0
  order : Nat := 0
  slot : Nat := 0
  layer : Nat := 0
  kv : Nat := 0
  tile : Nat := 0
  srec : List Word := []
  code : Nat := 0
  keys : Nat := 0
  /-- A page write of the sequence did not land (06 R201). -/
  lost : Bool := false
  /-- Reference counts of pages, read when the item started (06 R192). -/
  early : SMap Nat := []
  /-- An access of the item must wait: 1, or 2 + h for half-layer h, which is being switched on (05 R152, 13 R441). -/
  held : Nat := 0
  deriving DecidableEq, Repr

/-- A frond. -/
structure Frond where
  up : Bool := false
  retired : Bool := false
  pendRetire : Bool := false
  fenced : Bool := false
  phys : Option Nat := none
  fmax : Nat := 0
  derate : Nat := 0
  pendDerate : Option Nat := none
  store : SMap (BitVec 128) := []
  storeP : SMap Unit := []
  len : Nat := 0
  sreg : SMap DWord := []
  sP : SMap Unit := []
  flags : SMap Nat := []
  loops : List LoopLv := []
  mrow : Nat := 63
  eps : Word := 0#32
  sticky : BitVec 3 := 0#3
  pc : Nat := 0
  ip : Nat := 0
  waiting : Bool := false
  lastCommit : Nat := 0xFFFF
  os : SMap Gran := []
  osP : SMap Unit := []
  side : SMap Gran := []
  sideP : SMap Unit := []
  osValid : Bool := false
  arrs : SMap Arr := []
  seed : Word := 0#32
  lists : List ListSet := []
  cq : List CQ := []
  order : Nat := 0
  unit : Nat := 0
  /-- Status of a write that did not land since the last commit point (05 R154); 0 none. -/
  wrFail : Nat := 0
  /-- Exceptions found at completion: (issue number, code, instruction index, status). -/
  late : List (Nat × Nat × Nat × Nat) := []
  att : AttRun := {}
  /-- Evidence ring: HEAD, ACK, next number (06 R217, R220). -/
  evHead : Nat := 0
  evAck : Nat := 0
  evNext : Nat := 0
  /-- STH_STATUS STATE, HIGH, SWITCH (07 R247). -/
  sthState : Nat := 0
  sthHigh : Nat := 0
  sthSwitch : Nat := 0
  resetting : Bool := false
  /-- ARR_SR_SEED was written since the last boundary (04 R115). -/
  seedPend : Bool := false
  deriving DecidableEq, Repr

/-- A seal-table entry of a page (10 R338): bit, state 1 SEALED, 2 BROKEN_DEVICE, 3 BROKEN_PORT, breaking port. -/
structure Seal where
  bit : Bool
  state : Nat
  crc : Word
  breaker : Nat := 0
  deriving DecidableEq, Repr

/-- A RESEAL or VERIFY in progress (10 R343): the port, the page, which of the two, the page's entry before it,
whether the seal bit was set when the read began, and whether its bank instruction has started and claims its subarray. -/
structure SealRun where
  port : Nat
  page : Nat
  reseal : Bool
  saved : Option Seal
  bit : Bool
  claim : Bool := false
  deriving DecidableEq, Repr

/-- A vector register (10 R313): 128 elements (unlisted: +0), its class and its poison bit. -/
structure VReg where
  els : List Word := []
  int : Bool := false
  pois : Bool := false
  deriving DecidableEq, Repr

/-- A gemma (10). `infl`: declared regions (base, bytes); `claims`: claimed (bank, subarray); `sram` by 64-B granule, with
its marks; `valid`: a3 at the next launch; `csr`: the CSRs 0x800-0x808 by number. -/
structure Gemma where
  up : Bool := false
  retired : Bool := false
  pendRetire : Bool := false
  fenced : Bool := false
  infl : SMap (Nat × Nat) := []
  claims : List (Nat × Nat) := []
  sram : SMap Gran := []
  sramP : SMap Unit := []
  valid : Bool := false
  len : Nat := 0
  x : SMap Word := []
  xP : SMap Unit := []
  f : SMap Word := []
  fP : SMap Unit := []
  v : SMap VReg := []
  csr : SMap Word := []
  fcsr : Nat := 0
  sticky : BitVec 3 := 0#3
  commitId : Nat := 0xFFFF
  instret : DWord := 0#64
  pc : Nat := 0
  ip : Nat := 0
  /-- A program is loaded and has not executed GB.FEND; GB.FEND executed; a wait holds issue; the ID it brings to the
  barrier; suspended by RESEAL or VERIFY (R343). -/
  running : Bool := false
  fend : Bool := false
  waiting : Bool := false
  barrier : Option Nat := none
  suspended : Bool := false
  order : Nat := 0
  wrFail : Nat := 0
  deriving DecidableEq, Repr

/-! ### Frames and plans (02) -/

/-- A plan as stipe 0 copied it (02 R48, R51). -/
structure Plan where
  seq : Nat
  role : Nat
  phase : Nat
  ack : Nat
  poolBase : Nat
  poolCount : Nat
  units : List WUnit
  deriving DecidableEq, Repr

/-- A plan slot: 0 not committed, 1 its check runs, 2 held for the tick at which it fell due, 3 its check has passed
(02 R48). -/
structure PlanSlot where
  st : Nat := 0
  plan : Option Plan := none
  /-- A sample already raised FRM_SLOT_POISON in this frame (02 R49). -/
  reported : Bool := false
  deriving DecidableEq, Repr

/-- Ticks, plans and the journal (02). `opened`: a first tick has come; `taken`: SEQ taken at the tick that opened the
frame; `reject`: the last rejection of the frame; `records`: journal records written; `ackAt`: number of the first one
not acknowledged. -/
structure FrameS where
  opened : Bool := false
  entry7 : Nat := 0
  standIn : Bool := false
  lastEdge : Option Nat := none
  restore : Bool := false
  slots : SMap PlanSlot := []
  role : Nat := 0
  phase : Nat := 0
  taken : Option Nat := none
  reject : Option Nat := none
  overwrote : Bool := false
  records : Nat := 0
  ackAt : Nat := 0
  deriving DecidableEq, Repr

/-! ### Link ports (11) -/

/-- A DATA flit in the replay buffer (11 R362): FSEQ, virtual channel, FIRST and payload. -/
structure TxFlit where
  seq : Nat
  cpl : Bool
  first : Nat
  payload : List Byte
  deriving DecidableEq, Repr

/-- A block that a port has sent (11 R355, R356): width code and group; of a data block its index and its five flits. -/
inductive WireBlock where
  | align (width group : Nat)
  | data (width group index : Nat) (flits : List (List Byte))
  deriving DecidableEq, Repr

/-- A packet received whole, and the FSEQs of the flits that brought it, whose buffers it keeps (11 R361, R365). -/
structure RxPkt where
  bytes : List Byte
  flits : List Nat := []
  deriving DecidableEq, Repr

/-- An outstanding request of an egress port (11 R377, R378, R382, R385): pieces `pcs` of transfer x, whose bytes lie at
addr; or, with `ing`, a forwarded request: its ingress port, RSN and TAG. `queued`: ACTIVE time of the port when it was
queued; `limit`: its timeout in ns. -/
structure OutReq where
  rsn : Nat
  pkt : Nat
  x : Nat := 0
  pcs : List Nat := []
  addr : Nat := 0
  len : Nat := 0
  ing : Option (Nat × Nat × Word) := none
  queued : Nat
  limit : Nat
  deriving DecidableEq, Repr

/-- An entry of an ingress port's window (11 R379, R380): the request without its data, whether it has completed, and the
completion; of a forwarded READ also its data and PMASK. -/
structure WinE where
  rsn : Nat
  hdr : ReqHdr
  done : Bool := false
  status : Nat := 0
  sealRes : Nat := 0
  result : Nat := 0
  fwd : Bool := false
  data : List Byte := []
  pmask : BitVec 64 := 0#64
  deriving DecidableEq, Repr

/-- A link port. `st` by R366; `ready`: QUALIFY has passed before stage 7; `entering`: the port would be ACTIVE and exchanges
HELLO first (R371); `laneOk`: lanes that passed their last check, `laneBad`: lanes out of use until DOWN;
`actAcc`, `actAt`: time spent ACTIVE, and since when; transmit and receive sides of the flit layer (`reqQ`, `cplQ`: bytes
of packets not yet in a flit, `midReq`, `midCpl`: the first is the rest of one; `blk`: index of the next block, `wire`: the
blocks sent since the port began to enter ACTIVE, but for those with NULL flits only; `flits`: flits of decoded blocks;
`partReq`, `partCpl`: bytes of a packet not yet whole, and its flits; `packets`: packets received whole; `bufReq`, `bufCpl`:
FSEQs in the receive buffers); `held`: requests to forward that wait for room, and their flits; `expired`: requests that
expired in this frame, with the first one's frame and ns; `cmdErr`: a command was rejected in this frame. -/
structure PortS where
  st : Nat := 0
  stAt : Nat := 0
  ready : Bool := false
  entering : Bool := false
  width : Nat := 3
  group : Nat := 0
  laneOk : BitVec 8 := 0#8
  laneBad : BitVec 8 := 0#8
  retrains : Nat := 0
  retrainAt : List Nat := []
  fast : Bool := false
  eqNew : Bool := false
  helloSeen : Bool := false
  peer : Word := 0#32
  psess : Option Word := none
  actAcc : Nat := 0
  actAt : Nat := 0
  txSeq : Nat := 0
  txBuf : List TxFlit := []
  reqQ : List (List Byte) := []
  cplQ : List (List Byte) := []
  midReq : Bool := false
  midCpl : Bool := false
  sentReq : Nat := 0
  sentCpl : Nat := 0
  credReq : Nat := 0
  credCpl : Nat := 0
  attempts : Nat := 0
  replayFirst : Option Nat := none
  advAt : Nat := 0
  rxExp : Nat := 0
  rxAny : Bool := false
  rxDrop : Bool := false
  rxNak : Bool := false
  nakAt : Option Nat := none
  partReq : List Byte := []
  partCpl : List Byte := []
  freedReq : Nat := 0
  freedCpl : Nat := 0
  blk : Nat := 0
  wire : List WireBlock := []
  flits : List (List Byte) := []
  partReqF : List Nat := []
  partCplF : List Nat := []
  bufReq : List Nat := []
  bufCpl : List Nat := []
  packets : List RxPkt := []
  laneErr : List Nat := []
  laneBits : Nat := 0
  nextRsn : Nat := 0
  outs : List OutReq := []
  high : Option Nat := none
  win : List WinE := []
  held : List (ReqHdr × List Nat) := []
  expired : Option (Nat × Nat × Nat) := none
  cmdErr : Bool := false
  deriving DecidableEq, Repr

/-! ### Power (13) -/

/-- A domain (13 R424-R446). `st` by R425; `req`: the policy in force; `asked`: ticks since its switch-on was requested and
not begun; `idle`: whole idle frames; `faultAt`, `dead`: its last fault, and that it stays off; `fall`: its fronds retire at
the next boundary. `grant` and `stretch`, or `gate`: what is in force, and from `nextAt` on, when its voltage has settled, the
grant `next`; `target`: the table voltage that the lowest droop sensor is held at, `setpoint` the regulator's, last set at
`setAt`; `bl`, `bgate`: the budget's own limit on them;
`rl`, `rgate`: the neighbour clamp's, and `clamp` the domain it serves. `bsrc`: the throttle reason of the budget. Powers
are input-referred mW; `cSum`, `c2Sum`: this millisecond's current samples in 10 mA. -/
structure Dom where
  st : Nat := 4
  req : Nat := 0
  asked : Nat := 0
  askedAt : Nat := 0
  waited : Bool := false
  idle : Nat := 0
  faultAt : Option Nat := none
  dead : Bool := false
  fall : Bool := false
  grant : Nat := 0
  gate : Nat := 0
  stretch : Nat := 0
  next : Nat := 0
  nextAt : Nat := 0
  bl : Nat := 0
  bgate : Nat := 0
  rl : Nat := 42
  rgate : Nat := 0
  clamp : Option Nat := none
  budget : Rat := 0
  bsrc : Nat := 1
  est : Rat := 0
  meas : Rat := 0
  energy : Rat := 0
  thr : BitVec 8 := 0#8
  heldUs : Nat := 0
  implausible : Bool := false
  bad1 : Bool := false
  bad2 : Bool := false
  suspectErr : Bool := false
  cSum : Int := 0
  c2Sum : Int := 0
  n1 : Nat := 0
  n2 : Nat := 0
  target : Nat := 0
  setpoint : Nat := 0
  setAt : Nat := 0
  vmin : Nat := 0
  droop : Bool := false
  deriving DecidableEq, Repr

/-- Power control (13). Caps in W; `throttle`: THROTTLE_N asserted after its filter; `throttleUse`: it still counts until
the next boundary; `vin` in 10 mV and `iin` in 10 mA as last sampled; sums over the millisecond `ms`; `pools`: pooled
budget by stack in mW; `measured`: the domains' mean powers over the frame that closed, in mW; `capAt`: the CAP_EFF that the budgets
come from, in mW;
`power`: the module's estimate at the last control step; `frameUs`: length of the frame so far in control steps. -/
structure PwrS where
  dom : SMap Dom := []
  cap : Nat := 1600
  capNext : Option Nat := none
  throttle : Bool := false
  throttleUse : Bool := false
  vin : Nat := 5200
  iin : Nat := 0
  vinErr : BitVec 2 := 0#2
  ms : Nat := 0
  samples : Nat := 0
  vSum : Nat := 0
  iSum : Nat := 0
  sampleAt : Nat := 0
  inEnergy : Rat := 0
  power : Rat := 0
  frameUs : Nat := 0
  pools : SMap Rat := []
  measured : List Nat := []
  capAt : Rat := 0
  deriving DecidableEq, Repr

/-! ### Thermal (14): temperatures in 1/8 K -/

/-- A sensor: its last reading, trust, and the counts of R456. -/
structure Sensor where
  t : Option Int := none
  suspect : Bool := false
  marks : Nat := 0
  bad : Nat := 0
  good : Nat := 0
  deriving DecidableEq, Repr

/-- A layer of R474's order: the temperature used and measured; source 0 MEASURED, 1 GUARDED, 2 UNKNOWN; guard steps failing
in a row; the limiter's grant limit or gate; `hist`: temperatures used, newest first; `unk`: where UNKNOWN without a
model, the temperature it began with and its steps. -/
structure ThLayer where
  used : Int := 0
  measured : Int := 0
  src : Nat := 0
  guarded : Bool := false
  failing : Nat := 0
  limit : Nat := 42
  limitE : Nat := 42
  limitGate : Nat := 0
  floor : Bool := false
  hist : List Int := []
  unk : Option (Int × Nat) := none
  deriving DecidableEq, Repr

/-- Cycle counting of a stack (14 R466). -/
structure ThCycle where
  up : Bool := true
  ext : Option Int := none
  half : Nat := 0
  swing : Int := 0
  deriving DecidableEq, Repr

/-- A stack's model (14 R454, R455): plausible steps so far, that its inputs are implausible now, its nodes, and the last
plausible inputs. -/
structure ThModel where
  steps : Nat := 0
  invalid : Bool := true
  nodes : List Int := []
  inputs : List Int := []
  deriving DecidableEq, Repr

/-- A tach input (14 R462, 17 R537): rising edges of the last second, newest first; the last period. -/
structure Tach where
  edges : List Nat := []
  period : Option Nat := none
  last : Option Nat := none
  invalid : Bool := false
  checked : Bool := false
  okSince : Option Nat := none
  apartSince : Option Nat := none
  deriving DecidableEq, Repr

/-- A swap of two logical fronds (14 R469): 1 WAITING, 2 BUSY, 3 copied. -/
structure Rot where
  a : Nat
  b : Nat
  mib : Nat
  st : Nat
  deriving DecidableEq, Repr

/-- Thermal control and cooling (14). `lastFlow`, `lastIn`: the flow and inlet last known; `near`: a half-layer came within
10 K of its throttle point since the last suggestion. `pairs`: hot spots that disagree, with when it began and whether it is counted;
`therm`: thermistors (17 R538), a valid reading or none, and since when it reads in range; coolant readings in 0.01 °C,
flow in 0.01 L/min; the coolant states in force and when their conditions began. -/
structure ThermS where
  sensors : SMap Sensor := []
  pairs : SMap (Nat × Bool) := []
  layers : SMap ThLayer := []
  cycles : SMap ThCycle := []
  models : SMap ThModel := []
  tachs : SMap Tach := []
  therm : SMap (Option Int × Nat) := []
  flow : Option Rat := none
  lastFlow : Rat := 400
  lastIn : Int := 2500
  flowSrc : Nat := 0
  tin : Option Int := none
  tout : Option Int := none
  power : Nat := 0
  hot2s : List Int := []
  deg : Bool := false
  hot : Bool := false
  lost : Bool := false
  leak : Bool := false
  ladder : Nat := 0
  tripped : Bool := false
  thermtrip : Bool := false
  lowSince : Option Nat := none
  highSince : Option Nat := none
  f34Since : Option Nat := none
  hotSince : Option Nat := none
  coolSince : Option Nat := none
  coldErr : Bool := false
  rot : Option Rot := none
  rotStat : Nat := 0
  rotRes : Nat := 0
  hint : Option (Nat × Nat) := none
  near : Bool := false
  warm : List Nat := []
  deriving DecidableEq, Repr

/-! ### Bring-up and reset (15) -/

/-- A reset below module level in progress (15 R496): level 0 frond, 1 half-layer, 2 stack; 0 follows a switch-on,
1 draining, 2 writing back, 3 reinitialising, 4 waits for the boundary. -/
structure Rst where
  level : Nat
  unit : Nat
  st : Nat
  deriving DecidableEq, Repr

/-- Bring-up (15). `stage` and `state` by R499; `record`: words 1-15 of R500; `downStacks`: stacks
without power; `upStacks`: those that reached stage 7. -/
structure BupS where
  powered : Bool := true
  stage : Nat := 0
  state : Nat := 0
  copy : Nat := 0
  code : Nat := 0
  detail : Nat := 0
  record : SMap Word := []
  stageAt : Nat := 0
  lock : Bool := false
  downStacks : List Nat := []
  upStacks : List Nat := []
  reached : SMap Nat := []
  retireLog : SMap Word := []
  retireHead : Nat := 0
  resets : List Rst := []
  thermal : List Byte := []
  rstStatus : Word := 0#32
  image : List Byte := []
  basesSet : List Nat := []
  retireImage : List (Nat × Nat) := []
  rtmapImage : List Word := []
  remapped : Nat := 0
  applied : Nat := 0
  ignored : Nat := 0
  disagree : Nat := 0
  fuseSecond : Nat := 0
  savedEq : SMap (Nat × Word) := []
  deriving DecidableEq, Repr

/-! ### Security (12) -/

/-- A port's session (12 R404, R407, R418): state 0 NONE, 1 PENDING, 2 ACTIVE. `next`: the sessions whose responses are still to
be written, oldest first: key, index and ADMIN, with the response's address and bytes. -/
structure Sess where
  active : Bool := false
  key : BitVec 256 := 0#256
  index : Nat := 0
  admin : Bool := false
  last : BitVec 64 := 0#64
  next : List (BitVec 256 × Nat × Bool × Nat × List Byte) := []
  deriving DecidableEq, Repr

/-- A firmware update (12 R411, R412): `last`: its last repair round has ended; blocks and versions by class; (receiver,
block) pairs that are missing; receivers that wait to switch; boundaries since SWITCH began; the hash list; the blocks that
matched it, by number in the image. Receivers: fronds 0-255, gemmas 256-2303, stipes 2304-2307. -/
structure FwS where
  st : Nat := 0
  round : Nat := 0
  last : Bool := false
  code : Nat := 0
  mask : Nat := 0
  base : Nat := 0
  blocks : List Nat := []
  versions : List Nat := []
  missing : List (Nat × Nat) := []
  waiting : List Nat := []
  switched : List Nat := []
  fenced : List Nat := []
  frames : Nat := 0
  hashes : List Byte := []
  data : SMap (List Byte) := []
  deriving DecidableEq, Repr

/-- Security (12). `trust`: the image's trust section by key index: port mask, ADMIN, public key; `reports`: attestation reports
still to be written, oldest first: port, address, nonce; `keyGone`: the identity
key was erased; `images`: the image each class's receivers run; `versions` in force; the digest of the fuse map as loaded. -/
structure SecS where
  trust : SMap (Nat × Bool × List Byte) := []
  sess : SMap Sess := []
  reports : List (Nat × Nat × List Byte) := []
  level : Nat := 0
  nonce : BitVec 128 := 0#128
  draws : Nat := 0
  keyReady : Bool := false
  keyGone : Bool := false
  session : Word := 0#32
  fw : FwS := {}
  images : SMap (List Byte) := []
  versions : List Nat := []
  fuseDigest : BitVec 256 := 0#256
  deriving DecidableEq, Repr

/-! ### Pins, the management bus and the test port (17) -/

/-- Levels of inputs as the module last took them (`fellAt`: PWR_EN's last fall; `resetLow`: held in reset; `vinBad`: the input
is outside its range), outputs (`tickOut`: rising edges driven on FRAME_TICK_OUT), the I3C target (the address of the next
read; the words and bytes last returned; in-band interrupts enabled; those raised, the last one's byte and moment), and the
test port (what TDO last shifted out; boundary scan; halted stipes). -/
structure PinS where
  pgood : Bool := false
  resetLow : Bool := false
  vinBad : Bool := false
  pwrEn : Bool := true
  fellAt : Option Nat := none
  refclk : Bool := true
  flashSel : Bool := false
  strap : BitVec 3 := 0#3
  dyn : BitVec 7 := 0#7
  ibi : Bool := false
  alert : Bool := false
  ibis : Nat := 0
  ibiByte : Nat := 0
  ibiAt : Nat := 0
  i3cAddr : Nat := 0
  i3cOut : List Word := []
  i3cReply : List Byte := []
  throttleAt : Option Nat := none
  throttleErr : Bool := false
  tickOut : Nat := 0
  tdo : Word := 0#32
  drive : BitVec 40 := 0#40
  extest : Bool := false
  halted : List Nat := []
  deriving DecidableEq, Repr

/-- The sweep (16 R521-R524): units whose coverage is late, when each was last covered and last reported late; `spent`: the
sweep's time in µs in the frame so far, by frond (with its gemmas, paths and partition), 256 + half and 288 + bridge. -/
structure SweepS where
  spent : SMap Nat := []
  late : List Nat := []
  covered : SMap Nat := []
  lateAt : SMap Nat := []
  deriving DecidableEq, Repr

/-! ### One-time memory and flash -/

/-- The fuses (15 R490, 12 R397, R399): vendor slot digests (none: unprogrammed), revocation, the owner slot, minimum
versions, units and retirements, FMAX_BIN, voltage-frequency tables in mV by half-layer * 64 + step, spares and lanes. -/
structure Fuses where
  seed : BitVec 256 := 0#256
  serial : BitVec 64 := 0#64
  vendor : SMap (BitVec 256) := []
  revoked : BitVec 4 := 0#4
  owner : Option (BitVec 256) := none
  minVer : List Nat := [0, 0, 0]
  bad : List (Nat × Nat) := []
  retired : List (Nat × Nat) := []
  fmax : SMap Nat := []
  vf : SMap Nat := []
  spares : SMap (List Nat) := []
  lanes : List (Nat × Nat) := []
  ccLanes : List (Nat × Nat) := []
  /-- Regions whose first copy, or both, fail their CRC (15 R490). -/
  badCopy : List (Nat × Nat) := []
  deriving DecidableEq, Repr

/-- The configuration flash (15 R484, 17 R547). -/
structure Flash where
  copyA : List Byte := []
  copyB : List Byte := []
  deriving DecidableEq, Repr

/-- A domain without power has no clock, no voltage and nothing that limits it. -/
def Dom.off (x : Dom) : Dom :=
  { x with st := 0, grant := 0, next := 0, target := 0, setpoint := 0, gate := 0, stretch := 0, thr := 0#8, idle := 0, droop := false }

/-- The device: everything but the queue of commands, the one-time memory and the flash. -/
structure Dev where
  now : Nat := 0
  free : Nat := 0
  err : ErrS := {}
  stat : StatS := {}
  mem : MemS := {}
  rhz : SMap Rhz := []
  halves : SMap Half := []
  bridgeFail : List Nat := []
  bridgeOff : List Nat := []
  win : SecWin := {}
  xfers : List Xfer := []
  nextX : Nat := 1
  units : List WUnit := []
  nextU : Nat := 1
  endedQ : List Nat := []
  regs : SMap Word := []
  inForce : SMap Word := []
  poolBase : Nat := 0
  poolCount : Nat := 0
  frame : Nat := 0
  lastTick : Nat := 0
  fronds : SMap Frond := []
  gemmas : SMap Gemma := []
  arrStatus : SMap Word := []
  seals : SMap Seal := []
  /-- RESEAL and VERIFY commands in progress, and writes to SEAL_CMD held behind them: (port, value) (10 R342, R343). -/
  sealRuns : List SealRun := []
  sealHeld : List (Nat × Word) := []
  ports : SMap PortS := []
  frm : FrameS := {}
  pwr : PwrS := {}
  thm : ThermS := {}
  bup : BupS := {}
  sec : SecS := {}
  pin : PinS := {}
  sweep : SweepS := {}
  halfReset : List Nat := []
  deriving DecidableEq, Repr

/-! ### The module -/

/-- The module: the commands that wait, first in first out; the fuses; the flash; the device. -/
structure State where
  pending : List Instr := []
  fuse : Fuses := {}
  flash : Flash := {}
  dev : Dev := {}
  deriving DecidableEq, Repr

/-- The module stops on no command: every outcome the manual gives is a state (log 20). -/
inductive Fault
  deriving DecidableEq, Repr

/-- A command without a meaning. -/
inductive Refusal where
  /-- No meaning is written for the command of this mnemonic. Raised by the dispatch alone; safe. -/
  | notModelled (mnemonic : String)
  deriving DecidableEq, Repr

/-- The domains as stage 0 finds them (13 R425, 15 R480): the base-die and link domains of each stack ON, the others OFF. -/
def bootDoms : SMap Dom := (List.range 56).map (fun i => (i, { ({} : Dom) with st := if 12 ≤ i % 14 then 4 else 0 }))

/-- The device at stage 0 after its first power-up, with nothing loaded, commanded or measured yet (log 4). -/
def Dev.reset : Dev :=
  let sec : SecS := { draws := 1, session := Config.randomWord 0, nonce := Config.randomNonce 0 }
  let mem : MemS := { layers := (List.range 32).map (fun i => (i, { ({} : MemLayer) with epoch := 1 })) }
  let pin : PinS := { pgood := true }
  { mem := mem, pwr := { dom := bootDoms }, sec := sec, pin := pin
    regs := (List.range 6).map (fun p => (0x09000110 + 0x20 * p, 0x80000000#32)) }

/-- The module right after reset: no command waits. -/
def State.reset : State := { dev := Dev.reset }

end Sys2Proof.Machine
end

