-- ==== Sys2Proof/Machine/Ops.lean ====
section
/-! DEFINITION. The shared operations: fields of words, counters, error records, access to the parts of the state by
index, work-unit marks, bytes of device memory. -/

namespace Sys2Proof.Machine

/-- Bits [hi:lo] of a word, as a number. -/
def bf (w : Word) (hi lo : Nat) : Nat := bitsAt w.toNat lo (hi - lo + 1)

/-- A word from (value, low bit) fields; each value is placed at its low bit. -/
def pack (l : List (Nat × Nat)) : Word := BitVec.ofNat 32 (l.foldl (fun a e => a + e.1 * 2 ^ e.2) 0)

def b2n (b : Bool) : Nat := if b then 1 else 0

/-- A 40-bit address from its register halves. -/
def addrOf (lo hi : Word) : Nat := hi.toNat % 256 * 2 ^ 32 + lo.toNat

/-- Byte i of a granule. -/
def gByte (g : Gran) (i : Nat) : Byte := BitVec.ofNat 8 (bitsAt g.toNat (8 * i) 8)

/-- A granule from bytes, the first lowest. -/
def gOfBytes (bs : List Byte) : Gran :=
  BitVec.ofNat 512 (bs.foldr (fun b a => a * 256 + b.toNat) 0)

def gBytes (g : Gran) : List Byte := (List.range 64).map (gByte g)

/-- Word j (32 bits) of a granule. -/
def gWord (g : Gran) (j : Nat) : Word := BitVec.ofNat 32 (bitsAt g.toNat (32 * j) 32)

/-- A granule with word j replaced. -/
def gSetWord (g : Gran) (j : Nat) (w : Word) : Gran :=
  BitVec.ofNat 512 (g.toNat - bitsAt g.toNat (32 * j) 32 * 2 ^ (32 * j) + w.toNat * 2 ^ (32 * j))

/-- A granule of sixteen words. -/
def gOfWords (ws : List Word) : Gran :=
  BitVec.ofNat 512 (ws.foldr (fun w a => a * 2 ^ 32 + w.toNat) 0)

/-- Each bit of a byte mask spread over its byte. -/
def spread (n : Nat) (m : Nat) : Nat :=
  (List.range n).foldr (fun i a => a * 256 + (if m.testBit i then 255 else 0)) 0

/-- The granule old with the bytes of the mask taken from new. -/
def gMerge (old new : Gran) (m : BitVec 64) : Gran :=
  let e : Gran := BitVec.ofNat 512 (spread 64 m.toNat)
  (old &&& ~~~ e) ||| (new &&& e)

/-- The mask of bytes lo to lo + n - 1 of a granule. -/
def byteMask (lo n : Nat) : BitVec 64 := BitVec.ofNat 64 ((2 ^ n - 1) * 2 ^ lo)

def fullMask : BitVec 64 := BitVec.allOnes 64

def modify {α : Type} (m : SMap α) (k : Nat) (dflt : α) (f : α → α) : SMap α := m.put k (f (m.get k dflt))

/-! ### Parts of the device by index -/

def Dev.frond (d : Dev) (f : Nat) : Frond := d.fronds.get f {}
def Dev.setFrond (d : Dev) (f : Nat) (x : Frond) : Dev := { d with fronds := d.fronds.put f x }
def Dev.modFrond (d : Dev) (f : Nat) (g : Frond → Frond) : Dev := d.setFrond f (g (d.frond f))
def Dev.bank (d : Dev) (b : Nat) : Bank := d.mem.banks.get b {}
def Dev.setBank (d : Dev) (b : Nat) (x : Bank) : Dev := { d with mem := { d.mem with banks := d.mem.banks.put b x } }
def Dev.layer (d : Dev) (i : Nat) : MemLayer := d.mem.layers.get i {}
def Dev.setLayer (d : Dev) (i : Nat) (x : MemLayer) : Dev :=
  { d with mem := { d.mem with layers := d.mem.layers.put i x } }
def Dev.rhiz (d : Dev) (f : Nat) : Rhz := d.rhz.get f {}
def Dev.setRhz (d : Dev) (f : Nat) (x : Rhz) : Dev := { d with rhz := d.rhz.put f x }
def Dev.half (d : Dev) (h : Nat) : Half := d.halves.get h {}
def Dev.setHalf (d : Dev) (h : Nat) (x : Half) : Dev := { d with halves := d.halves.put h x }

/-- The register at a control address, as last set (01 R34). -/
def Dev.reg (d : Dev) (a : Nat) : Word := d.regs.get a 0#32
/-- The register's value in force since the last frame boundary. -/
def Dev.inF (d : Dev) (a : Nat) : Word := d.inForce.get a 0#32

/-- The next free value (log 14). -/
def Dev.draw (d : Dev) : Dev × BitVec 64 := ({ d with free := d.free + 1 }, Config.freeValue d.free)

/-- How the read of a word goes where no operand of the command says it: free (08 R264, log 60). -/
def Dev.anyRead (d : Dev) : Dev × ReadTry :=
  let (d, v) := d.draw
  let (d, m) := d.draw
  (d, match v.toNat % 4 with
    | 0 => .good
    | 1 => .first m
    | 2 => .second m
    | _ => .never m)

/-- How the write of a word goes where no operand of the command says it: free (08 R266, log 60). -/
def Dev.anyWrite (d : Dev) : Dev × WriteTry :=
  let (d, v) := d.draw
  let (d, m) := d.draw
  (d, match v.toNat % 3 with
    | 0 => .good
    | 1 => .resent
    | _ => .failed m)

/-- What fails for an access where no operand of the command says it: free (09 R292, 16 R517, log 60). -/
def Dev.anyFault (d : Dev) : Dev × CacheFault :=
  let (d, v) := d.draw
  let (d, m) := d.draw
  (d, match v.toNat % 4 with
    | 0 => .none
    | 1 => .data (Fin.ofNat 4 (v.toNat / 4)) m
    | 2 => .tag (Fin.ofNat 16 (v.toNat / 4))
    | _ => .bridge (Fin.ofNat 32 (v.toNat / 4)))

/-- n reads, and n writes, whose outcomes are free. -/
def Dev.anyReads (d : Dev) : Nat → Dev × List ReadTry
  | 0 => (d, [])
  | n + 1 =>
    let (d, t) := d.anyRead
    let (d, l) := d.anyReads n
    (d, t :: l)

def Dev.anyWrites (d : Dev) : Nat → Dev × List WriteTry
  | 0 => (d, [])
  | n + 1 =>
    let (d, t) := d.anyWrite
    let (d, l) := d.anyWrites n
    (d, t :: l)

/-! ### Names and places (01 R16, R17, 03 R76, 08 R250) -/

def partOf (a : Nat) : Nat := a / 2 ^ 32 % 256
/-- The physical frond that carries a logical one (01 R18), the home half of its partition (09 R287), and its stack. -/
def Dev.phys (d : Dev) (f : Nat) : Nat := (d.frond f).phys.getD f
def Dev.home (d : Dev) (f : Nat) : Nat := d.phys f / 8
def Dev.stk (d : Dev) (f : Nat) : Nat := d.phys f / 64
/-- The global bank index of a linear address. -/
def bankOf (a : Nat) : Nat := 32 * partOf a + a / 2 ^ 31 % 2 * 16 + a / 2 ^ 27 % 16
/-- The row number in its bank. -/
def rowOf (a : Nat) : Nat := a / 2 ^ 13 % 2 ^ 14
/-- The first byte of a row. -/
def rowAddr (b r : Nat) : Nat := b / 32 * 2 ^ 32 + b % 32 * 2 ^ 27 + r * 2 ^ 13
/-- The memory layer of an address (08 R279). -/
def Dev.layerOf (d : Dev) (a : Nat) : Nat :=
  let p := d.phys (partOf a)
  p / 64 * 8 + p % 64 / 16 * 2 + a / 2 ^ 31 % 2
/-- The stack of a link port (01 R24). -/
def portStack (p : Nat) : Nat := if p ≤ 1 then 0 else if p = 2 then 1 else if p ≤ 4 then 2 else 3

/-! ### Counters (16 R518-R520) -/

def cMod (c : Nat) : Nat := c
def cFrd (f c : Nat) : Nat := 0x2000 + 64 * f + c
def cGem (g c : Nat) : Nat := 0x6000 + 8 * g + c
def cPart (f c : Nat) : Nat := 0xA000 + 2 * f + c
def cLayer (i : Nat) : Nat := 0xA200 + i
def cHalf (h c : Nat) : Nat := 0xA400 + 32 * h + c
def cPort (p c : Nat) : Nat := 0xA800 + 64 * p + c
def cDom (m c : Nat) : Nat := 0xAA00 + 16 * m + c
def cHl (h c : Nat) : Nat := 0xAE00 + 2 * h + c
def cLh (i c : Nat) : Nat := 0xAE40 + 2 * i + c
def cStk (s c : Nat) : Nat := 0xAF00 + 4 * s + c

/-- A counter rises by n and saturates at 2^48 - 1 (16 R518). -/
def Dev.bump (d : Dev) (c n : Nat) : Dev :=
  { d with stat := { d.stat with live := modify d.stat.live c 0 (fun v => min (v + n) (2 ^ 48 - 1)) } }

def Dev.inc (d : Dev) (c : Nat) : Dev := d.bump c 1

/-- A counter of cycles rises by a free number of them (log 11). -/
def Dev.bumpFree (d : Dev) (c : Nat) : Dev :=
  let (d, v) := d.draw
  d.bump c (v.toNat % 2 ^ 32)

/-! ### Work units (02) -/

def Dev.unit (d : Dev) (k : Nat) : Option WUnit := d.units.find? (fun u => u.key == k)

def Dev.modUnit (d : Dev) (k : Nat) (f : WUnit → WUnit) : Dev :=
  { d with units := d.units.map (fun u => if u.key == k then f u else u) }

/-- A unit runs, stops or is carried. -/
def WUnit.busy (u : WUnit) : Bool := u.phase == 1 || u.phase == 2 || (u.phase == 0 && 0 < u.carried)

/-- Whether master m runs unit u, which has started and not ended (03 R85, 02 R54). -/
def WUnit.runsOn (u : WUnit) (m : Nat) : Bool :=
  (u.phase == 1 || u.phase == 2) &&
  (match u.kind with
    | 0 => m == u.target
    | 1 => 0x100 ≤ m && m < 0x900 && (m - 0x100) / 8 == u.target && u.gemMask.getLsbD ((m - 0x100) % 8)
    | 2 => m == 0x900 + u.target % 16
    | _ => 0x100 ≤ m && m < 0x900 && (m - 0x100) / 8 == u.target)

def Dev.unitOn (d : Dev) (m : Nat) : Option WUnit := d.units.find? (fun u => u.runsOn m)

/-- The key of the unit master m runs; 0 for none. -/
def Dev.unitKey (d : Dev) (m : Nat) : Nat := match d.unitOn m with
  | some u => u.key
  | none => 0

/-- The regions of a unit that hold an address, as a mask. -/
def regionMask (rs : List (Nat × Nat)) (a : Nat) : BitVec 8 :=
  ((List.range rs.length).zip rs).foldl
    (fun m e => if e.2.1 ≤ a && a < e.2.1 + e.2.2 then m ||| BitVec.ofNat 8 (2 ^ e.1) else m) 0#8

/-- Poison was written at an address by a unit (02 R71, 08 R262): POISONED, or POISON_OTHER. -/
def Dev.markPoison (d : Dev) (k a : Nat) : Dev :=
  d.modUnit k (fun u =>
    let m := regionMask u.regions a
    if m == 0#8 then { u with poisonOther := true } else { u with poisoned := u.poisoned ||| m })

/-- A unit issued a write at an address after its last commit point (02 R64). -/
def Dev.markTouch (d : Dev) (k a : Nat) : Dev :=
  d.modUnit k (fun u =>
    let m := regionMask u.regions a
    if m == 0#8 then { u with touchedOther := true } else { u with touched := u.touched ||| m })

/-- A read returned DEADREF or UNSTABLE (02 R68). -/
def Dev.markSticky (d : Dev) (k : Nat) (st : Nat) : Dev :=
  d.modUnit k (fun u => { u with deadref := u.deadref || st == 2, unstable := u.unstable || st == 3 })

/-! ### Error records (16 R505-R514) -/

/-- The moment of a record: the frame in progress and ns after its tick. -/
def Dev.stamp (d : Dev) (r : ErrRec) : ErrRec :=
  { r with frame := d.frame % 2 ^ 32, ns := (d.now - d.lastTick) % 2 ^ 32 }

def ErrRec.same (a b : ErrRec) : Bool :=
  a.code == b.code && a.cls == b.cls && a.kind == b.kind && a.src == b.src && a.addr == b.addr

/-- The journal entry of a record's unit links to its SEQ (02 R68, 16 R510). -/
def Dev.link (d : Dev) (r : ErrRec) (seq : Nat) : Dev :=
  if r.unit == 0 then d else d.modUnit r.unit (fun u => { u with errSeq := seq })

/-- Whether a FATAL entry is being handled (16 R513). -/
def ErrS.fatalHandling (e : ErrS) : Bool := e.fifo.any (fun r => r.cls == 4 && e.handling.contains r.seq)

/-- A double fault (16 R513): ERR_FATAL[1] and DOUBLE; the stop of the module follows at the end of the step. -/
def Dev.doubleFault (d : Dev) (code : Nat) : Dev :=
  if d.err.double then d
  else
    let r := d.stamp { cls := 4, kind := 0, code := 0x0E02, seq := d.err.nextSeq, detail := code }
    let d := { d with err := { d.err with double := true, fatal1 := some r, nextSeq := d.err.nextSeq + 1 } }
    d.inc (cMod 44)

/-- The class of the innermost record being handled (16 R511). -/
def ErrS.innermost (e : ErrS) : Option Nat := (e.handling.head?.bind (fun q => e.fifo.find? (fun r => r.seq == q))).map (·.cls)

/-- The oldest unselected entry of the highest class (16 R511). -/
def ErrS.best (e : ErrS) : Option ErrRec :=
  let un := e.fifo.filter (fun r => !r.sel)
  let m := un.foldl (fun a r => max a r.cls) 0
  un.find? (fun r => r.cls == m)

/-- Selection (16 R511): at once when nothing is handled, or when a higher class pre-empts; from stage 7 on (16 R515). -/
def Dev.select (d : Dev) : Dev :=
  if d.bup.stage != 7 || d.err.double then d
  else match d.err.best with
    | none => d
    | some b =>
      let free := match d.err.innermost with
        | none => true
        | some c => decide (c < b.cls)
      if free then
        { d with err := { d.err with handling := b.seq :: d.err.handling
                                     fifo := d.err.fifo.map (fun r => if r.seq == b.seq then { r with sel := true } else r) } }
      else d

/-- A record takes SEQ and an entry. -/
def Dev.takeEntry (d : Dev) (r : ErrRec) : Dev :=
  let r := { r with seq := d.err.nextSeq }
  let d := { d with err := { d.err with fifo := d.err.fifo ++ [r], nextSeq := d.err.nextSeq + 1
                                        fatal0 := if r.cls == 4 && d.err.fatal0.isNone then some r else d.err.fatal0 } }
  let d := (d.inc (cMod (40 + r.cls))).link r r.seq
  if d.err.fatalHandling && 2 ≤ r.cls then d.doubleFault r.code else d.select

/-- The newest unselected entry of the lowest class below c (16 R512). -/
def ErrS.victim (e : ErrS) (c : Nat) : Option ErrRec :=
  let low := e.fifo.filter (fun r => !r.sel && decide (r.cls < c))
  let m := low.foldl (fun a r => min a r.cls) 5
  (low.filter (fun r => r.cls == m)).getLast?

/-- A record reaches stipe 0: coalesced, entered, displacing, dropped, or a double fault (16 R510, R512, R513). -/
def Dev.enterRec (d : Dev) (r : ErrRec) : Dev :=
  if d.err.double then d
  else
    match d.err.fifo.find? (fun e => !e.sel && e.same r) with
    | some e =>
      let fifo := d.err.fifo.map (fun x => if x.seq == e.seq then { x with count := min (x.count + 1) 65535 } else x)
      (({ d with err := { d.err with fifo := fifo } }).inc (cMod 46)).link r e.seq
    | none =>
      if d.err.fifo.length < 64 then d.takeEntry r
      else
        let drop := ({ d with err := { d.err with overflow := true, drops := d.err.drops + 1 } }).inc (cMod 45)
        if 2 ≤ r.cls then
          match d.err.victim r.cls with
          | some v =>
            let d := { d with err := { d.err with fifo := d.err.fifo.filter (fun x => x.seq != v.seq)
                                                  displaced := d.err.displaced ++ [{ v with lost := true }] } }
            (d.inc (cMod 45)).takeEntry r
          | none => if r.cls == 4 then d.doubleFault r.code else drop
        else drop

/-- A record is raised in stack s: at once in stack 0, otherwise it waits to be forwarded (16 R506). -/
def Dev.raise (d : Dev) (s : Nat) (r : ErrRec) : Dev :=
  let r := d.stamp r
  if s == 0 then d.enterRec r
  else { d with err := { d.err with waiting := modify d.err.waiting s [] (fun l => l ++ [r]) } }

/-! ### Bytes of device memory (03 R76, 08 R260-R262) -/

/-- The stored bytes of a 64-B word: (byte number, value). -/
def wordCells (m : List Host.Cell) (w : Nat) : List (Nat × Byte) :=
  (m.filter (fun c => c.1 / 64 == w)).map (fun c => (c.1 % 64, c.2))

/-- What unlisted bytes of a word read: that of the first area that holds it, or of its layer (08 R261, R263, 14 R469). -/
def Dev.under (d : Dev) (w : Nat) : Area :=
  match d.mem.areas.find? (fun e => w * 64 / 2 ^ 31 == e.key && decide (e.lo ≤ w * 64) && decide (w * 64 < e.hi)) with
  | some e => e
  | none =>
    let ly := d.layer (d.layerOf (w * 64))
    { lo := 0, hi := 0, epoch := ly.epoch, zero := ly.filled, marched := ly.marched }

/-- The data bits of a word in the cells: stored bytes, and arbitrary ones where none was written (08 R261). -/
def Dev.rawWord (d : Dev) (w : Nat) : Gran :=
  let cs := wordCells d.mem.cells w
  let un := d.under w
  let base := if un.zero then 0#512 else Config.unwrittenWord un.epoch w
  if cs.length == 64 then gOfBytes (cs.map (·.2))
  else cs.foldl (fun g c => gMerge g (BitVec.ofNat 512 (c.2.toNat * 2 ^ (8 * c.1))) (byteMask c.1 1)) base

/-- The bytes of a word that fail parity because they were never written since a power-up without a march (08 R261). -/
def Dev.unwrittenFail (d : Dev) (w : Nat) : BitVec 64 :=
  let cs := wordCells d.mem.cells w
  let un := d.under w
  if cs.length == 64 || un.marched then 0#64
  else
    let wr := cs.foldl (fun m c => m ||| byteMask c.1 1) 0#64
    Config.unwrittenParity un.epoch w &&& ~~~ wr

def Dev.stored (d : Dev) (w : Nat) : Bool := (d.mem.poison.find w).isSome

/-- One byte is stored. -/
def putByte (m : List Host.Cell) (a : Nat) (b : Byte) : List Host.Cell := SMap.put m a b

/-- The masked bytes of a word are stored. -/
def putWord (m : List Host.Cell) (w : Nat) (g : Gran) (mask : BitVec 64) : List Host.Cell :=
  (List.range 64).foldl (fun m i => if mask.getLsbD i then putByte m (64 * w + i) (gByte g i) else m) m

/-- Keys strictly rising. -/
def SMap.rising {α : Type} : SMap α → Bool
  | [] => true
  | [_] => true
  | a :: b :: l => decide (a.1 < b.1) && SMap.rising (b :: l)

/-- The canonical form: addresses and poisoned words strictly rising, and no byte listed as the zero that it would read
unlisted. -/
def Memory.wf (d : Dev) : Bool :=
  SMap.rising d.mem.cells && SMap.rising d.mem.poison && d.mem.cells.all (fun c => !((d.under (c.1 / 64)).zero && c.2 == 0#8))

/-- The word becomes stored poison: no byte of it is listed (08 R260). -/
def Dev.storePoison (d : Dev) (w : Nat) : Dev :=
  { d with mem := { d.mem with cells := d.mem.cells.filter (fun c => c.1 / 64 != w), poison := d.mem.poison.put w () } }

/-- Masked data is stored in a word that holds no stored poison, or in full over it; where unlisted bytes read 0, no byte
of the word is listed with 0. -/
def Dev.storeWord (d : Dev) (w : Nat) (g : Gran) (mask : BitVec 64) : Dev :=
  let cs := putWord d.mem.cells w g mask
  let cs := if (d.under w).zero then cs.filter (fun c => !(c.1 / 64 == w && c.2 == 0#8)) else cs
  { d with mem := { d.mem with cells := cs, poison := d.mem.poison.drop w } }

/-- A read of one byte as the cells hold it: none where nothing was written. -/
def Dev.cell (d : Dev) (a : Nat) : Option Byte := SMap.find d.mem.cells a

/-- A list without its entry n. -/
def dropIdx {α : Type} (l : List α) (n : Nat) : List α := l.take n ++ l.drop (n + 1)

end Sys2Proof.Machine
end

