-- ==== Sys2Proof/Machine/Elementary.lean ====
section
/-! DEFINITION. The elementary functions: a free value held inside the manual's bound around a close approximation of
the real function (05 R162, 06 R180, R182, 10 R324; log 9). Fixed point has 80 fractional bits. -/

namespace Sys2Proof.Machine

def fxOne : Nat := 2 ^ 80
/-- ln 2 and log2 e in fixed point. -/
def fxLn2 : Nat := 837963523372001241319907
def fxLog2e : Nat := 1744111284760651037637903

/-- A magnitude m * 2^e in fixed point, downwards. -/
def fxOf (m : Nat) (e : Int) : Nat :=
  if 0 ≤ e + 80 then m * 2 ^ (e + 80).toNat else m / 2 ^ (-(e + 80)).toNat

/-- exp(z) for z in [0, 1) in fixed point, by 30 terms of its series. -/
def fxExpSeries (z : Nat) : Nat :=
  ((List.range 30).foldl (fun (s : Nat × Nat) k =>
    let t := s.2 * z / fxOne / (k + 1)
    (s.1 + t, t)) (fxOne, fxOne)).1

/-- 2^v of a signed fixed-point exponent, as a value. -/
def fxExp2 (neg : Bool) (y : Nat) : Val :=
  let i : Int := if neg then -(y : Int) else y
  let n := i.fdiv (fxOne : Int)
  let fr := (i - n * fxOne).toNat
  .num false (fxExpSeries (fr * fxLn2 / fxOne)) (n - 80)

/-- A value at most b times away in relation to a, or within c of it: a - |a| * b - c ≤ v ≤ a + |a| * b + c, where
b = 2^-k, and c is a value; and widened by 2^-40 in relation. -/
def within (v a : Val) (k : Nat) (c : Val) : Bool :=
  let r := ((a.abs.scale (-(k : Int))).add (a.abs.scale (-40))).add c
  !(v.lt (a.sub r)) && !((a.add r).lt v) && !v.isNan && !v.isInf

/-- The free value where it meets the bound and a condition, the rounded approximation otherwise. -/
def heldIf (ok : Word → Bool) (which : Nat) (x : Word) (a : Val) (k : Nat) (c : Val) : Word :=
  let raw := Config.elementary which x
  if within (f32 raw) a k c && ok raw then raw else toF32 a

def held (which : Nat) (x : Word) (a : Val) (k : Nat) (c : Val) : Word := heldIf (fun _ => true) which x a k c

/-- A normal FP32 number. -/
def isNormalW (w : Word) : Bool := bf w 30 23 != 0 && bf w 30 23 != 255

def val0 : Val := .num false 0 0

/-- 2^x with a relative bound of 2^-k and an absolute one below the normal range. -/
def exp2Val (x : Val) : Val :=
  match x with
  | .num s m e => fxExp2 s (fxOf m e)
  | v => v

/-- exp(x) for x ≤ 0 (05 R162): a normal number down to x = -87.336. -/
def fExp (x : Word) : Word :=
  match f32 x with
  | .nan _ => canonNan
  | .inf s => if s then 0#32 else 0x7F800000#32
  | .num s m e =>
    let v := Val.num s m e
    if v.lt (.num true 126 0) then 0#32
    else if m == 0 then held 0 x (.num false 1 0) 10 val0
    else
      let y := fxOf m e * fxLog2e / fxOne
      let a := fxExp2 s y
      if v.lt ((Val.num true 87336 0).div (Val.num false 1000 0)) then held 0 x a 10 (.num false 1 (-150))
      else heldIf isNormalW 0 x a 10 val0

/-- recip, bound 2^-12 (05 R162). -/
def fRecip (x : Word) : Word :=
  let a := (Val.num false 1 0).div (f32 x)
  match a with
  | .num _ 0 _ => toF32 a
  | .num _ _ _ => held 1 x a 12 (.num false 1 (-150))
  | _ => toF32 a

/-- rsqrt, bound 2^-12 (05 R162). -/
def fRsqrt (x : Word) : Word :=
  let a := (Val.num false 1 0).div (f32 x).sqrt
  match a with
  | .num _ 0 _ => toF32 a
  | .num _ _ _ => held 2 x a 12 val0
  | _ => toF32 a

/-- exp(-|v|) as a value, +0 beyond 2^7. -/
def expNeg (v : Val) : Val :=
  match v with
  | .num _ m e => if (Val.num false m e).lt (.num false 128 0) then fxExp2 true (fxOf m e * fxLog2e / fxOne) else val0
  | _ => val0

/-- sigmoid, absolute bound 2^-11 (05 R162). -/
def fSigmoid (x : Word) : Word :=
  match f32 x with
  | .nan _ => canonNan
  | v =>
    let z := expNeg v
    let one := Val.num false 1 0
    let a := if v.sign then z.div (one.add z) else one.div (one.add z)
    held 3 x a 60 (.num false 1 (-11))

/-- tanh, absolute bound 2^-10 (05 R162). -/
def fTanh (x : Word) : Word :=
  match f32 x with
  | .nan _ => canonNan
  | v =>
    let z := expNeg (v.scale 1)
    let one := Val.num false 1 0
    let a := (one.sub z).div (one.add z)
    held 4 x (if v.sign then a.neg else a) 60 (.num false 1 (-10))

end Sys2Proof.Machine
end

