-- ==== Sys2Proof/Machine/Rv.lean ====
section
/-! DEFINITION. The base instruction set of a gemma's core (10 R311): decoding of RV32IMFC with Zicsr, and FP32 arithmetic
under the five rounding modes, as the ratified RISC-V unprivileged specification gives them (log 13). -/

namespace Sys2Proof.Machine

/-- A decoded instruction: major opcode, fields and immediate; `size` is 2 for a compressed one. -/
structure RvI where
  op : Nat
  rd : Nat := 0
  rs1 : Nat := 0
  rs2 : Nat := 0
  f3 : Nat := 0
  f7 : Nat := 0
  imm : Int := 0
  size : Nat := 4
  deriving DecidableEq, Repr

/-- An n-bit two's complement number. -/
def sxN (n v : Nat) : Int := if 2 ^ (n - 1) ≤ v % 2 ^ n then (v % 2 ^ n : Nat) - (2 ^ n : Int) else (v % 2 ^ n : Nat)

def rvImm (op w : Nat) : Int :=
  let b (lo n : Nat) : Nat := bitsAt w lo n
  match op with
  | 0x37 | 0x17 => sxN 32 (b 12 20 * 4096)
  | 0x6F => sxN 21 (b 31 1 * 2 ^ 20 + b 12 8 * 2 ^ 12 + b 20 1 * 2 ^ 11 + b 21 10 * 2)
  | 0x63 => sxN 13 (b 31 1 * 2 ^ 12 + b 7 1 * 2 ^ 11 + b 25 6 * 32 + b 8 4 * 2)
  | 0x23 | 0x27 => sxN 12 (b 25 7 * 32 + b 7 5)
  | _ => sxN 12 (b 20 12)

def rvDecode32 (w : Nat) : RvI :=
  let b (lo n : Nat) : Nat := bitsAt w lo n
  { op := b 0 7, rd := b 7 5, rs1 := b 15 5, rs2 := b 20 5, f3 := b 12 3, f7 := b 25 7, imm := rvImm (b 0 7) w }

/-- A compressed instruction as the one it stands for; none where it is reserved. -/
def rvDecode16 (h : Nat) : Option RvI :=
  let b (lo n : Nat) : Nat := bitsAt h lo n
  let q := b 0 2
  let f := b 13 3
  let r2 := 8 + b 2 3
  let r1 := 8 + b 7 3
  let rd := b 7 5
  let rs := b 2 5
  let im6 := sxN 6 (b 12 1 * 32 + b 2 5)
  let lwOff : Nat := b 10 3 * 8 + b 6 1 * 4 + b 5 1 * 64
  let jOff := sxN 12 (b 12 1 * 2048 + b 11 1 * 16 + b 9 2 * 256 + b 8 1 * 1024 + b 7 1 * 64 + b 6 1 * 128 + b 3 3 * 2 + b 2 1 * 32)
  let bOff := sxN 9 (b 12 1 * 256 + b 10 2 * 8 + b 5 2 * 64 + b 3 2 * 2 + b 2 1 * 32)
  let i (x : RvI) : Option RvI := some { x with size := 2 }
  match q, f with
  | 0, 0 =>
    let n := b 11 2 * 16 + b 7 4 * 64 + b 6 1 * 4 + b 5 1 * 8
    if n == 0 then none else i { op := 0x13, rd := r2, rs1 := 2, imm := n }
  | 0, 2 => i { op := 0x03, rd := r2, rs1 := r1, f3 := 2, imm := lwOff }
  | 0, 3 => i { op := 0x07, rd := r2, rs1 := r1, f3 := 2, imm := lwOff }
  | 0, 6 => i { op := 0x23, rs2 := r2, rs1 := r1, f3 := 2, imm := lwOff }
  | 0, 7 => i { op := 0x27, rs2 := r2, rs1 := r1, f3 := 2, imm := lwOff }
  | 1, 0 => i { op := 0x13, rd := rd, rs1 := rd, imm := im6 }
  | 1, 1 => i { op := 0x6F, rd := 1, imm := jOff }
  | 1, 2 => i { op := 0x13, rd := rd, imm := im6 }
  | 1, 3 =>
    if rd == 2 then
      let n := sxN 10 (b 12 1 * 512 + b 6 1 * 16 + b 5 1 * 64 + b 3 2 * 128 + b 2 1 * 32)
      if n == 0 then none else i { op := 0x13, rd := 2, rs1 := 2, imm := n }
    else if im6 == 0 then none else i { op := 0x37, rd := rd, imm := im6 * 4096 }
  | 1, 4 =>
    (match b 10 2 with
    | 0 => if b 12 1 == 1 then none else i { op := 0x13, rd := r1, rs1 := r1, rs2 := rs, f3 := 5, imm := rs }
    | 1 => if b 12 1 == 1 then none else i { op := 0x13, rd := r1, rs1 := r1, rs2 := rs, f3 := 5, f7 := 32, imm := 1024 + rs }
    | 2 => i { op := 0x13, rd := r1, rs1 := r1, f3 := 7, imm := im6 }
    | _ =>
      if b 12 1 == 1 then none
      else match b 5 2 with
        | 0 => i { op := 0x33, rd := r1, rs1 := r1, rs2 := r2, f3 := 0, f7 := 32 }
        | 1 => i { op := 0x33, rd := r1, rs1 := r1, rs2 := r2, f3 := 4 }
        | 2 => i { op := 0x33, rd := r1, rs1 := r1, rs2 := r2, f3 := 6 }
        | _ => i { op := 0x33, rd := r1, rs1 := r1, rs2 := r2, f3 := 7 })
  | 1, 5 => i { op := 0x6F, rd := 0, imm := jOff }
  | 1, 6 => i { op := 0x63, rs1 := r1, rs2 := 0, f3 := 0, imm := bOff }
  | 1, 7 => i { op := 0x63, rs1 := r1, rs2 := 0, f3 := 1, imm := bOff }
  | 2, 0 => if b 12 1 == 1 then none else i { op := 0x13, rd := rd, rs1 := rd, rs2 := rs, f3 := 1, imm := rs }
  | 2, 2 => if rd == 0 then none else
      i { op := 0x03, rd := rd, rs1 := 2, f3 := 2, imm := (b 12 1 * 32 + b 4 3 * 4 + b 2 2 * 64 : Nat) }
  | 2, 3 => i { op := 0x07, rd := rd, rs1 := 2, f3 := 2, imm := (b 12 1 * 32 + b 4 3 * 4 + b 2 2 * 64 : Nat) }
  | 2, 4 =>
    if b 12 1 == 0 then
      if rs == 0 then (if rd == 0 then none else i { op := 0x67, rd := 0, rs1 := rd })
      else i { op := 0x33, rd := rd, rs1 := 0, rs2 := rs }
    else if rs == 0 then
      if rd == 0 then i { op := 0x73, imm := 1 } else i { op := 0x67, rd := 1, rs1 := rd }
    else i { op := 0x33, rd := rd, rs1 := rd, rs2 := rs }
  | 2, 6 => i { op := 0x23, rs2 := rs, rs1 := 2, f3 := 2, imm := (b 9 4 * 4 + b 7 2 * 64 : Nat) }
  | 2, 7 => i { op := 0x27, rs2 := rs, rs1 := 2, f3 := 2, imm := (b 9 4 * 4 + b 7 2 * 64 : Nat) }
  | _, _ => none

/-- The CSRs a gemma has (10 R311, R322), and which of them are read-only. -/
def rvCsr (n : Nat) : Option Bool :=
  if n == 1 || n == 2 || n == 3 then some false
  else if n == 0xC00 || n == 0xC80 || n == 0xC02 || n == 0xC82 then some true
  else if 0x800 ≤ n && n ≤ 0x808 then some false
  else if 0xCC0 ≤ n && n ≤ 0xCC3 then some true
  else none

/-- The groups of instructions that the commands name. -/
inductive GKind where
  | base
  | ecall
  | csr
  | transfer
  | vector
  | control
  | illegal
  deriving DecidableEq, Repr

/-- Whether an instruction names a rounding mode that exists; `frm` is the dynamic one. -/
def rvRmOk (rm frm : Nat) : Bool := rm ≤ 4 || (rm == 7 && frm ≤ 4)

/-- The group of an instruction, or that it is illegal (10 R311, R318). -/
def RvI.kind (i : RvI) (frm : Nat) : GKind :=
  let ok (b : Bool) : GKind := if b then .base else .illegal
  match i.op with
  | 0x37 | 0x17 | 0x6F => .base
  | 0x67 => ok (i.f3 == 0)
  | 0x63 => ok (i.f3 != 2 && i.f3 != 3)
  | 0x03 => ok (i.f3 ≤ 2 || i.f3 == 4 || i.f3 == 5)
  | 0x23 => ok (i.f3 ≤ 2)
  | 0x07 | 0x27 => ok (i.f3 == 2)
  | 0x13 => ok (if i.f3 == 1 then i.f7 == 0 else if i.f3 == 5 then i.f7 == 0 || i.f7 == 32 else true)
  | 0x33 => ok (i.f7 == 0 || i.f7 == 1 || (i.f7 == 32 && (i.f3 == 0 || i.f3 == 5)))
  | 0x0F => ok (i.f3 == 0)
  | 0x43 | 0x47 | 0x4B | 0x4F => ok (i.f7 % 4 == 0 && rvRmOk i.f3 frm)
  | 0x53 =>
    ok (match i.f7 with
      | 0x00 | 0x04 | 0x08 | 0x0C => rvRmOk i.f3 frm
      | 0x2C => i.rs2 == 0 && rvRmOk i.f3 frm
      | 0x10 => i.f3 ≤ 2
      | 0x14 => i.f3 ≤ 1
      | 0x50 => i.f3 ≤ 2
      | 0x60 | 0x68 => i.rs2 ≤ 1 && rvRmOk i.f3 frm
      | 0x70 => i.rs2 == 0 && i.f3 ≤ 1
      | 0x78 => i.rs2 == 0 && i.f3 == 0
      | _ => false)
  | 0x73 =>
    if i.f3 == 0 then
      let n := (i.imm % 4096).toNat
      if i.rd == 0 && i.rs1 == 0 && (n == 0 || n == 1 || n == 0x302 || n == 0x105) then .ecall else .illegal
    else if i.f3 == 4 then .illegal
    else
      match rvCsr (i.imm % 4096).toNat with
      | none => .illegal
      | some ro =>
        let writes := i.f3 % 4 == 1 || i.rs1 != 0
        if ro && writes then .illegal else .csr
  | 0x0B => if i.f3 ≤ 6 then .transfer else .illegal
  | 0x2B => if i.f3 == 0 && i.f7 ≤ 13 then .vector else .illegal
  | 0x5B => .control
  | _ => .illegal

/-! ### Integer arithmetic -/

/-- OP and OP-IMM: a, b are the operands, `alt` funct7[5]. -/
def rvAlu (f3 : Nat) (alt : Bool) (a b : Word) : Word :=
  let sh := b.toNat % 32
  let t (c : Bool) : Word := if c then 1#32 else 0#32
  match f3 with
  | 0 => if alt then a - b else a + b
  | 1 => a <<< sh
  | 2 => t (a.slt b)
  | 3 => t (a.ult b)
  | 4 => a ^^^ b
  | 5 => if alt then a.sshiftRight sh else a >>> sh
  | 6 => a ||| b
  | _ => a &&& b

/-- The M extension. -/
def rvMul (f3 : Nat) (a b : Word) : Word :=
  let sa := a.toInt
  let sb := b.toInt
  let ua : Int := a.toNat
  let ub : Int := b.toNat
  let hi (p : Int) : Word := BitVec.ofInt 32 (p / (2 ^ 32 : Int))
  match f3 with
  | 0 => a * b
  | 1 => hi (sa * sb)
  | 2 => hi (sa * ub)
  | 3 => hi (ua * ub)
  | 4 => if b == 0#32 then BitVec.allOnes 32 else BitVec.ofInt 32 (sa.tdiv sb)
  | 5 => if b == 0#32 then BitVec.allOnes 32 else BitVec.ofNat 32 (a.toNat / b.toNat)
  | 6 => if b == 0#32 then a else BitVec.ofInt 32 (sa.tmod sb)
  | _ => if b == 0#32 then a else BitVec.ofNat 32 (a.toNat % b.toNat)

def rvBranch (f3 : Nat) (a b : Word) : Bool :=
  match f3 with
  | 0 => a == b
  | 1 => a != b
  | 4 => a.slt b
  | 5 => !(a.slt b)
  | 6 => a.ult b
  | _ => !(a.ult b)

/-! ### FP32 under a rounding mode; flags NV 16, DZ 8, OF 4, UF 2, NX 1 -/

def isSnan (w : Word) : Bool := (f32 w).isNan && !w.getLsbD 22

/-- m / 2^k rounded by mode rm (0 RNE, 1 RTZ, 2 RDN, 3 RUP, 4 RMM) for a value of sign s, and whether it is inexact. -/
def shiftRm (rm : Nat) (s : Bool) (m k : Nat) : Nat × Bool :=
  let q := m / 2 ^ k
  let r := m % 2 ^ k
  let up := match rm with
    | 0 => decide (2 * r > 2 ^ k) || (2 * r == 2 ^ k && k != 0 && q % 2 == 1)
    | 1 => false
    | 2 => s && r != 0
    | 3 => !s && r != 0
    | _ => decide (2 ^ k ≤ 2 * r) && r != 0
  (if up then q + 1 else q, r != 0)

/-- A value rounded once to FP32, with the flags of the rounding. -/
def rvRound (rm : Nat) (v : Val) : Word × Nat :=
  match v with
  | .nan _ => (canonNan, 0)
  | .inf s => (BitVec.ofNat 32 (ff32.infCode s), 0)
  | .num s m e =>
    if m == 0 then (if s then 0x80000000#32 else 0#32, 0)
    else
      let top := (Nat.log2 m : Int) + e
      let q := max (top - 23) (-149)
      let (r, nx) := if q ≤ e then (m * 2 ^ (e - q).toNat, false) else shiftRm rm s m (q - e).toNat
      let tiny := decide (top < -126) && !(top == -127 &&
        (if top - 23 ≤ e then false else (shiftRm rm s m (top - 23 - e).toNat).1 == 2 ^ 24))
      if ff32.beyond r q then
        let inf := rm == 0 || rm == 4 || (rm == 2 && s) || (rm == 3 && !s)
        (BitVec.ofNat 32 (if inf then ff32.infCode s else ff32.maxCode s), 5)
      else (BitVec.ofNat 32 (ff32.encode s r q), if nx then (if tiny then 3 else 1) else 0)

/-- A sum; an exact zero of operands with different signs is -0 under RDN only. -/
def rvAdd (rm : Nat) (a b : Val) : Val :=
  let v := a.add b
  if v.isZero && a.sign != b.sign then .num (rm == 2) 0 0 else v

/-- A result with NV where an operand is a signalling NaN or a NaN arose. -/
def rvFin (rm : Nat) (ops : List Word) (v : Val) (extra : Nat) : Word × Nat :=
  let (w, fl) := rvRound rm v
  let nan := ops.any (fun o => (f32 o).isNan)
  let nv := ops.any isSnan || (v.isNan && !nan)
  (w, (if v.isNan then 0 else fl ||| extra) ||| (if nv then 16 else 0))

/-- (a * b) with signs negated as asked, plus c. -/
def rvFma (rm : Nat) (np nc : Bool) (a b c : Word) : Word × Nat :=
  let p := (f32 a).mul (f32 b)
  let bad := p.isNan && !(f32 a).isNan && !(f32 b).isNan
  let p := if np then p.neg else p
  let cv := if nc then (f32 c).neg else f32 c
  let (w, fl) := rvFin rm [a, b, c] (rvAdd rm p cv) 0
  (w, if bad then fl ||| 16 else fl)

/-- A float to an integer word. -/
def rvToInt (rm : Nat) (uns : Bool) (a : Word) : Word × Nat :=
  let hiW : Word := if uns then BitVec.allOnes 32 else 0x7FFFFFFF#32
  let loW : Word := if uns then 0#32 else 0x80000000#32
  match f32 a with
  | .nan _ => (hiW, 16)
  | .inf s => (if s then loW else hiW, 16)
  | .num s m e =>
    let (r, nx) := if 0 ≤ e then (m * 2 ^ e.toNat, false) else shiftRm rm s m (-e).toNat
    let i : Int := if s then -(r : Int) else r
    let (lo, hi) : Int × Int := if uns then (0, 2 ^ 32 - 1) else (-(2 ^ 31), 2 ^ 31 - 1)
    if i < lo then (loW, 16) else if hi < i then (hiW, 16) else (BitVec.ofInt 32 i, if nx then 1 else 0)

def rvClass (a : Word) : Word :=
  let sub := bitsAt a.toNat 23 8 == 0
  match f32 a with
  | .nan _ => if isSnan a then 256#32 else 512#32
  | .inf s => if s then 1#32 else 128#32
  | .num s m _ =>
    if m == 0 then (if s then 8#32 else 16#32)
    else if sub then (if s then 4#32 else 32#32) else if s then 2#32 else 64#32

def rvSgn (f3 : Nat) (a b : Word) : Word :=
  let m : Word := 0x80000000#32
  let sb := if f3 == 0 then b &&& m else if f3 == 1 then ~~~ b &&& m else (a ^^^ b) &&& m
  (a &&& ~~~ m) ||| sb

def rvMinMax (mx : Bool) (a b : Word) : Word × Nat :=
  let fl := if isSnan a || isSnan b then 16 else 0
  let x := f32 a
  let y := f32 b
  (if x.isNan && y.isNan then canonNan else if x.isNan then b else if y.isNan then a
    else if mx then (if x.lt y then b else a) else (if y.lt x then b else a), fl)

/-- FEQ (2), FLT (1), FLE (0). -/
def rvCmp (f3 : Nat) (a b : Word) : Word × Nat :=
  let x := f32 a
  let y := f32 b
  let nan := x.isNan || y.isNan
  let lt := x.lt y && !(x.isZero && y.isZero)
  let r := if f3 == 2 then x.eqv y else if f3 == 1 then lt else lt || x.eqv y
  (if !nan && r then 1#32 else 0#32, if f3 == 2 then (if isSnan a || isSnan b then 16 else 0) else if nan then 16 else 0)

end Sys2Proof.Machine
end

