-- ==== Sys2Proof/Machine/Convert.lean ====
section
/-! DEFINITION. Operand and result formats (04 R102, R103): element codes, values, and the output conversions of R110 to
R114. -/

namespace Sys2Proof.Machine

/-- Bits of an element (04 R102, R103). -/
def fmtBits (f : Nat) : Nat :=
  if f ≤ 3 then 8 else if f ≤ 5 then 6 else if f == 6 then 4 else if f ≤ 8 then 8 else if f == 9 then 4
  else if f ≤ 11 then 16 else 32

/-- Bytes of one step of 64 elements (04 R100). -/
def stepBytes (f : Nat) : Nat := fmtBits f * 8

def fmtMx (f : Nat) : Bool := decide (2 ≤ f) && decide (f ≤ 7)
def fmtInt (f : Nat) : Bool := f == 8 || f == 9 || f == 13

/-- The element format of a float code; MXINT8 has none. -/
def fmtFF (f : Nat) : FF :=
  match f with
  | 0 | 2 => ffE4m3
  | 1 | 3 => ffE5m2
  | 4 => ffE3m2
  | 5 => ffE2m3
  | 6 => ffE2m1
  | 10 => ffBf16
  | 11 => ffFp16
  | _ => ff32

/-- A two's complement field of n bits. -/
def twos (n v : Nat) : Int := if 2 ^ (n - 1) ≤ v then (v : Int) - 2 ^ n else v

/-- The value of an element code, without its block scale (04 R102, R103). -/
def elemVal (f code : Nat) : Val :=
  if f == 7 then (Val.ofInt (twos 8 code)).scale (-6)
  else if fmtInt f then Val.ofInt (twos (fmtBits f) code)
  else (fmtFF f).decode code

/-- A value under an E8M0 scale byte: 0xFF is NaN (04 R103). -/
def scaled (v : Val) (s : Nat) : Val := if s == 255 then .nan false else v.scale ((s : Int) - 127)

/-- ARR_CTRL (04 R127). -/
structure OutCfg where
  nonsat : Bool := false
  noclamp : Bool := false
  deriving DecidableEq, Repr

def outCfg (w : Word) : OutCfg := { nonsat := w.getLsbD 1, noclamp := w.getLsbD 2 }

/-- The NaN code of a plain destination, with its sign (04 R110). -/
def nanCode (f : Nat) (s : Bool) : Nat :=
  match f with
  | 10 => 0x7FC0 + (if s then 0x8000 else 0)
  | 11 => 0x7E00 + (if s then 0x8000 else 0)
  | 12 => 0x7FC00000 + (if s then 0x80000000 else 0)
  | _ => 0x7F + (if s then 0x80 else 0)

/-- A plain float destination (04 R110, R111): the code and whether it was clamped or overflowed. -/
def outPlain (f : Nat) (c : OutCfg) (sr : Option Nat) (v : Val) : Nat × Bool :=
  let ff := fmtFF f
  let ovf (s : Bool) : Nat :=
    if f == 0 then (if c.nonsat then nanCode 0 s else ff.maxCode s)
    else if f == 1 then (if c.nonsat then ff.infCode s else ff.maxCode s)
    else ff.infCode s
  match v with
  | .nan s => (nanCode f s, false)
  | .inf s => (ovf s, true)
  | .num s m e =>
    let (r, q) := ff.roundMag sr s m e
    if ff.beyond r q then (ovf s, true) else (ff.encode s r q, false)

/-- FP32 is an exact copy (04 R110). -/
def outCopy (w : Word) : Nat := w.toNat

/-- emax of R112, and the largest magnitude of an element as (m, q). -/
def mxEmax (f : Nat) : Int :=
  match f with
  | 2 => 8
  | 3 => 15
  | 4 => 4
  | 5 => 2
  | 6 => 2
  | _ => 0

def mxMax (f : Nat) : Nat × Int := if f == 7 then (127, -6) else ((fmtFF f).maxM, (fmtFF f).maxQ)

/-- The larger magnitude of two values. -/
def maxMag (a b : Val) : Val := if (a.abs).lt b.abs then b.abs else a.abs

/-- The scale exponent of a block (04 R112). -/
def mxScale (f : Nat) (c : OutCfg) (vs : List Val) : Int :=
  let amax := vs.foldl maxMag (.num false 0 0)
  if amax.isZero then -127
  else
    let x := amax.log2 - mxEmax f
    let (mm, qq) := mxMax f
    let x := if c.noclamp && !((amax.scale (-x)).magLe mm qq) then x + 1 else x
    clampInt (-127) 127 x

/-- One element of an MX block at scale exponent x (04 R110): its code and whether it was clamped. -/
def mxElem (f : Nat) (x : Int) (sr : Option Nat) (v : Val) : Nat × Bool :=
  match v.scale (-x) with
  | .num s m e =>
    if f == 7 then
      -- multiples of 2^-6, two's complement
      let (r, q) : Nat × Int := if -6 ≤ e then (m * 2 ^ (e + 6).toNat, -6)
        else (match sr with
          | none => shiftRne m (-6 - e).toNat
          | some n => shiftSr s m (-6 - e).toNat n, -6)
      let _ := q
      let (r, cl) := if 127 < r then (127, true) else (r, false)
      (if s && r != 0 then 256 - r else r, cl)
    else
      let ff := fmtFF f
      let (r, q) := ff.roundMag sr s m e
      if ff.beyond r q then (ff.maxCode s, true) else (ff.encode s r q, false)
  | _ => (0, false)

/-- A block of an MX destination (04 R110, R112): scale byte, codes, number clamped. -/
def mxBlock (f : Nat) (c : OutCfg) (vs : List (Val × Option Nat)) : Nat × List Nat × Nat :=
  if vs.any (fun v => v.1.isNan || v.1.isInf) then (255, vs.map (fun _ => 0), 0)
  else
    let x := mxScale f c (vs.map (·.1))
    let es := vs.map (fun v => mxElem f x v.2 v.1)
    ((x + 127).toNat, es.map (·.1), (es.filter (·.2)).length)

/-- INT8 and INT4 from INT32 with a shift (04 R110), rounded stochastically by the draw where one is given (04 R114). -/
def outInt (f s : Nat) (sr : Option Nat) (acc : Word) : Nat × Bool :=
  let i := acc.toInt
  let r : Int := match sr with
    | none => shiftRne i.natAbs s
    | some n => shiftSr (decide (i < 0)) i.natAbs s n
  let v := if i < 0 then -r else r
  let (lo, hi) : Int × Int := if f == 8 then (-128, 127) else (-8, 7)
  let c := clampInt lo hi v
  ((c % (2 ^ fmtBits f : Nat)).toNat, c != v)

/-! ### Tiles in a granule store -/

/-- n bits at bit offset o of a store from granule g0, with the poison of the granules they lie in. -/
def osBits (os : SMap Gran) (osP : SMap Unit) (g0 o n : Nat) : Nat × Bool :=
  let g := g0 + o / 512
  let r := o % 512
  let lo := (os.get g 0#512).toNat
  let p := (osP.find g).isSome
  if r + n ≤ 512 then (bitsAt lo r n, p)
  else ((lo + (os.get (g + 1) 0#512).toNat * 2 ^ 512) / 2 ^ r % 2 ^ n, p || (osP.find (g + 1)).isSome)

/-- A tile of K steps of a format at a granule address. -/
structure TileRef where
  g : Nat
  k : Nat
  fmt : Nat
  deriving DecidableEq, Repr

/-- Bytes of a tile with its scale stream (04 R100, 05 R157). -/
def tileBytes (fmt k : Nat) : Nat := k * stepBytes fmt + (if fmtMx fmt then (k + 31) / 32 * 64 else 0)

/-- Granules of a tile. -/
def tileGrans (fmt k : Nat) : Nat := (tileBytes fmt k + 63) / 64

/-- Code and scale byte of element i of step k, with their poison. -/
def tileElem (os : SMap Gran) (osP : SMap Unit) (t : TileRef) (k i : Nat) : Nat × Nat × Bool :=
  let (c, p) := osBits os osP t.g (k * stepBytes t.fmt * 8 + i * fmtBits t.fmt) (fmtBits t.fmt)
  if fmtMx t.fmt then
    let (s, ps) := osBits os osP t.g (t.k * stepBytes t.fmt * 8 + k / 32 * 512 + i * 8) 8
    (c, s, p || ps)
  else (c, 127, p)

/-- The scale byte of the block of step k at element i. -/
def tileScale (os : SMap Gran) (osP : SMap Unit) (t : TileRef) (k i : Nat) : Nat × Bool :=
  if fmtMx t.fmt then osBits os osP t.g (t.k * stepBytes t.fmt * 8 + k / 32 * 512 + i * 8) 8 else (127, false)

/-- Element (j, k) of a transposed 64-step block b of a tile (07 R225): code, scale byte, poison. -/
def turnElem (os : SMap Gran) (osP : SMap Unit) (t : TileRef) (b j k : Nat) : Nat × Nat × Bool :=
  let kk := 64 * b + k
  if !fmtMx t.fmt then tileElem os osP t kk j
  else
    let block := (List.range 32).map (fun n => 32 * (j / 32) + n)
    let ins := block.map (fun i => tileElem os osP t kk i)
    let p := ins.any (·.2.2)
    let bad := ins.any (fun e => e.2.1 == 255 || (elemVal t.fmt e.1).isNan || (elemVal t.fmt e.1).isInf)
    if bad then (0, 255, p)
    else
      let x' : Nat := ins.foldl (fun (a : Nat) e => max a e.2.1) 0
      let (c, s, _) := tileElem os osP t kk j
      -- an MXINT8 element of -2.0 is no larger than it was: it is not clamped
      if t.fmt == 7 then
        let i := twos 8 c
        let r := shiftRne i.natAbs (x' - s)
        (if i < 0 && r != 0 then 256 - r else r, x', p)
      else ((mxElem t.fmt ((x' : Int) - 127) none ((elemVal t.fmt c).scale ((s : Int) - 127))).1, x', p)

/-- The value of an element under its scale. -/
def codeVal (fmt : Nat) (e : Nat × Nat × Bool) : Val :=
  if fmtMx fmt then scaled (elemVal fmt e.1) e.2.1 else elemVal fmt e.1

/-- Granule n of a tile whose steps are given as codes. -/
def packGran (fmt : Nat) (codes : List (List Nat)) (n : Nat) : Gran :=
  let step (l : List Nat) : Nat := l.foldr (fun c a => a * 2 ^ fmtBits fmt + c) 0
  let all := codes.foldr (fun l a => a * 2 ^ (8 * stepBytes fmt) + step l) 0
  BitVec.ofNat 512 (bitsAt all (512 * n) 512)

end Sys2Proof.Machine
end

