-- ==== Sys2Proof/Machine/Memory.lean ====
section
/-! DEFINITION. The banks: open rows, reads with their retries, writes, runtime remapping, coupler lanes and refresh
(08). -/

namespace Sys2Proof.Machine

/-- Retired fronds: by fuse, test, image or at run time (01 R30, R31). -/
def Dev.isRetired (d : Dev) (f : Nat) : Bool := (d.frond f).retired

def Dev.gemma (d : Dev) (g : Nat) : Gemma := d.gemmas.get g {}
def Dev.setGemma (d : Dev) (g : Nat) (x : Gemma) : Dev := { d with gemmas := d.gemmas.put g x }
def Dev.modGemma (d : Dev) (g : Nat) (h : Gemma → Gemma) : Dev := d.setGemma g (h (d.gemma g))

/-- The gemma that serves the bank of an address (01 R14). -/
def gemmaOf (a : Nat) : Nat := 8 * partOf a + a / 2 ^ 31 % 2 * 4 + a / 2 ^ 29 % 4

/-- Whether a 64-B word lies in a declared in-flight region (10 R328, R329). -/
def Dev.unstableAt (d : Dev) (w : Nat) : Bool :=
  (d.gemma (gemmaOf (w * 64))).infl.any (fun e => e.2.1 ≤ w * 64 && w * 64 < e.2.1 + e.2.2)

/-- Whether a bank instruction claims the subarray of a word (10 R326). -/
def Dev.claimed (d : Dev) (w : Nat) : Bool :=
  (d.gemma (gemmaOf (w * 64))).claims.contains (bankOf (w * 64), w * 64 / 2 ^ 13 % 4)

/-- The row of an address is opened; a row miss of a frond's own rhizoid access is counted (08 R251, R285). -/
def Dev.openRow (d : Dev) (a : Nat) (rhz : Option Nat) : Dev :=
  let b := d.bank (bankOf a)
  let sub := a / 2 ^ 13 % 4
  let row := a / 2 ^ 15 % 4096
  if b.openRow.find sub == some row then d
  else
    let d := d.setBank (bankOf a) { b with openRow := b.openRow.put sub row }
    match rhz with
    | some f => d.inc (cFrd f 56)
    | none => d

/-- RHZ_CTRL.LANE_ROWS in force; 0 is stored as 3 (08 R284). -/
def Dev.laneRows (d : Dev) : Nat := let n := bf (d.inF 0x06000400) 3 0; if n == 0 then 3 else n

/-! ### Lanes (08 R271-R275) -/

/-- The carrier of active lane n. -/
def carrier (spared : List (Nat × Nat)) (n : Nat) : Nat := match spared.find? (fun e => e.1 == n) with
  | some e => e.2
  | none => n

/-- The lowest-numbered free spare lane in first .. first + count - 1. -/
def freeSpare (failed : List Nat) (spared : List (Nat × Nat)) (first count : Nat) : Option Nat :=
  ((List.range count).map (first + ·)).find? (fun s => !failed.contains s && !(spared.any (fun e => e.2 == s)))

/-- The physical lane that carries active lane n of the rhizoid: in HALF a pair n, n + 128 travels over one good carrier, its
lower lane's where that is good (08 R274). -/
def Rhz.laneOf (r : Rhz) (n : Nat) : Nat :=
  let c := carrier r.spared n
  if r.mode != 1 then c
  else
    let lo := carrier r.spared (n % 128)
    if r.failed.contains lo then carrier r.spared (n % 128 + 128) else lo

/-- Every pair n, n + 128 has a good carrier (08 R274). -/
def Rhz.pairsGood (r : Rhz) : Bool :=
  (List.range 128).all (fun n => !r.failed.contains ({ r with mode := 1 }.laneOf n))

/-- The lane of byte i of a word on the rhizoid (cc = false) or the cache channel (08 R253, R256). -/
def Rhz.byteLane (r : Rhz) (cc : Bool) (w i : Nat) : Nat :=
  if cc then carrier r.ccSpared (i % 32) else r.laneOf (w % 4 * 64 + i)

/-- The bytes of a word that a failed lane still in use carries (08 R273). -/
def Rhz.deadBytes (r : Rhz) (cc : Bool) (w : Nat) : BitVec 64 :=
  let bad := if cc then r.ccFailed else r.failed
  if bad.isEmpty then 0#64
  else (List.range 64).foldl (fun m i => if bad.contains (r.byteLane cc w i) then m ||| byteMask i 1 else m) 0#64

/-- The rhizoid changes to HALF (1) or is retired (2) at the next boundary, with its error record, where that is a further
change (08 R273). -/
def Dev.pendRhz (d : Dev) (f p : Nat) : Dev :=
  let r := d.rhiz f
  if r.pend < p && !(p == 2 && r.mode == 2) then
    let e : ErrRec := { kind := 1, src := f, cls := if p == 1 then 0 else 2, code := if p == 1 then 0x0602 else 0x0603 }
    (d.setRhz f { r with pend := p }).raise (d.stk f) e
  else d

/-- The cache channel fails: the frond retires at the next boundary (08 R273). -/
def Dev.pendOut (d : Dev) (f : Nat) : Dev :=
  let r := d.rhiz f
  if r.out then d
  else (d.setRhz f { r with out := true }).raise (d.stk f) { kind := 1, src := f, cls := 2, code := 0x0805 }

/-- Rows of this frame's queues whose failing bytes all lay on one lane leave the queues (08 R271). -/
def Dev.unqueueLane (d : Dev) (f : Nat) (cc : Bool) (lane : Nat) : Dev :=
  let lr := (d.rhiz f).laneRows
  let mine (e : Nat × Nat × Nat) : Bool := e.1 == b2n cc && e.2.1 == lane
  let rows := (lr.filter mine).map (·.2.2)
  let only := rows.filter (fun r => lr.all (fun e => e.2.2 != r || mine e))
  only.foldl (fun d r =>
    let b := r / 2 ^ 14
    d.setBank b { d.bank b with queue := (d.bank b).queue.filter (· != r % 2 ^ 14) }) d

/-- A physical byte lane of a rhizoid (cc = false) or cache channel is declared failed (08 R271-R273). -/
def Dev.laneFail (d : Dev) (f : Nat) (cc : Bool) (lane : Nat) : Dev :=
  let r := d.rhiz f
  let failed := if cc then r.ccFailed else r.failed
  if failed.contains lane then d
  else
    let d := d.unqueueLane f cc lane
    let spared := if cc then r.ccSpared else r.spared
    let nAct := if cc then 32 else 256
    -- the active lane that this physical lane carries
    let act := match spared.find? (fun e => e.2 == lane) with
      | some e => some e.1
      | none => if lane < nAct && !(spared.any (fun e => e.1 == lane)) then some lane else none
    let failed' := lane :: failed
    let spare := freeSpare failed' spared nAct (if cc then 2 else 16)
    match act, spare with
    | none, _ => d.setRhz f (if cc then { d.rhiz f with ccFailed := failed' } else { d.rhiz f with failed := failed' })
    | some n, some s =>
      let sp := (n, s) :: spared.filter (fun e => e.1 != n)
      let d := d.setRhz f (if cc then { d.rhiz f with ccFailed := failed', ccSpared := sp }
        else { d.rhiz f with failed := failed', spared := sp })
      (d.raise (d.stk f) { cls := 0, kind := 1, src := f, code := 0x0601, detail := lane }).inc (cMod 21)
    | some _, none =>
      let d := d.setRhz f (if cc then { d.rhiz f with ccFailed := failed' } else { d.rhiz f with failed := failed' })
      let r := d.rhiz f
      if cc then d.pendOut f
      else if r.mode == 0 then
        if (d.reg 0x06000400).getLsbD 4 && r.pairsGood then d.pendRhz f 1 else d.pendRhz f 2
      else if r.mode == 1 then (if r.pairsGood then d else d.pendRhz f 2)
      else d

/-- A copy of a command group fails: 0-1 the rhizoid's, 2-3 the cache channel's (08 R253, R256, R273). -/
def Dev.groupFail (d : Dev) (f g : Nat) : Dev :=
  let r := d.rhiz f
  let bit := if g < 2 then g + 2 else g - 2
  let m := r.cmdFail ||| BitVec.ofNat 4 (2 ^ bit)
  let d := d.setRhz f { r with cmdFail := m, cmdAlt := r.cmdAlt || g == 0 }
  if g < 2 then (if m.getLsbD 2 && m.getLsbD 3 then d.pendRhz f 2 else d)
  else (if m.getLsbD 0 && m.getLsbD 1 then d.pendOut f else d)

/-- Failing bytes of a word's row are noted for the frame (08 R271, R277). -/
def Dev.noteLanes (d : Dev) (path : Nat) (lanes : List Nat) (w : Nat) : Dev :=
  let f := partOf (w * 64)
  let r := d.rhiz f
  let row := bankOf (w * 64) * 2 ^ 14 + rowOf (w * 64)
  let new := (lanes.map (fun l => (path, l, row))).filter (fun e => !r.laneRows.contains e)
  d.setRhz f { r with laneRows := r.laneRows ++ new }

/-- The lane rule of R271 for bytes of a word that failed every attempt over the rhizoid or the cache channel. -/
def Dev.laneRule (d : Dev) (cc : Bool) (w : Nat) (bytes : BitVec 64) : Dev :=
  let f := partOf (w * 64)
  let r := d.rhiz f
  let lanes := (((List.range 64).filter (fun i => bytes.getLsbD i)).map (r.byteLane cc w)).eraseDups
  lanes.foldl (fun d l =>
    let n := ((d.rhiz f).laneRows.filter (fun e => e.1 == b2n cc && e.2.1 == l)).length
    if d.laneRows ≤ n then d.laneFail f cc l else d) (d.noteLanes (b2n cc) lanes w)

/-! ### Reads and writes of a bank's words -/

/-- A row is queued for remapping (08 R267). -/
def Dev.queueRow (d : Dev) (a : Nat) : Dev :=
  let b := d.bank (bankOf a)
  let r := rowOf a
  if b.queue.contains r then d
  else if 4 ≤ b.queue.length then d.inc (cMod 18)
  else d.setBank (bankOf a) { b with queue := b.queue ++ [r] }

/-- Which port reads: the frond's rhizoid, the home half's cache channel, or the gemma port (08 R259). -/
inductive RdPort where
  | rhizoid
  | channel
  | gemma
  deriving DecidableEq, Repr

/-- The bytes of a word that a failed lane of a port still carries (08 R273). -/
def Dev.deadBytes (d : Dev) (w : Nat) (port : RdPort) : BitVec 64 :=
  if port == .gemma then 0#64 else (d.rhiz (partOf (w * 64))).deadBytes (port == .channel) w

/-- The bytes of a word that still fail after both retries. -/
def Dev.failMask (d : Dev) (w : Nat) (port : RdPort) (tr : ReadTry) : BitVec 64 :=
  d.unwrittenFail w ||| d.deadBytes w port ||| (match tr with
    | .never m => m
    | _ => 0#64)

/-- A port reads a word it needs (08 R260, R264): the data and whether it is poison. -/
def Dev.readWord (d : Dev) (w : Nat) (port : RdPort) (tr : ReadTry) : Dev × Gran × Bool :=
  let a := w * 64
  let f := partOf a
  let d := d.openRow a (if port == .rhizoid then some f else none)
  if d.stored w then (d.inc (cMod 14), 0#512, true)
  else
    let m := d.failMask w port tr
    let retry (d : Dev) (n : Nat) : Dev := if port == .rhizoid then d.bump (cFrd f 58) n else d
    if m != 0#64 then
      let d := (retry d 2).raise (d.stk f) { cls := 1, kind := 5, src := bankOf a, code := 0x0702, addr := a, detail := m.toNat }
      let d := (d.inc (cMod 13)).queueRow a
      (if port == .gemma then d.noteLanes 2 [0] w else d.laneRule (port == .channel) w m, 0#512, true)
    else
      let g := d.rawWord w
      let tr1 (d : Dev) (m : BitVec 64) : Dev :=
        (d.raise (d.stk f) { cls := 0, kind := 5, src := bankOf a, code := 0x0701, addr := a, detail := m.toNat }).inc (cMod 12)
      match tr with
      | .first m => (tr1 (retry d 1) m, g, false)
      | .second m => (tr1 (retry d 2) m, g, false)
      | _ => (d, g, false)

/-- How a write of a word fares over the rhizoid or the cache channel (cc), where a failed lane may still carry bytes of it
(08 R273). -/
def Dev.writeFate (d : Dev) (w : Nat) (mask : BitVec 64) (tr : WriteTry) (cc : Option Bool) : WriteTry :=
  let m := (match cc with
    | some c => (d.rhiz (partOf (w * 64))).deadBytes c w
    | none => 0#64) &&& mask
  if m == 0#64 then tr
  else match tr with
    | .failed b => .failed (b ||| m)
    | _ => .failed m

/-- A bank receives a write of one word (08 R260, R262, R266); `k`: the unit that wrote it, 0 for none. -/
def Dev.writeWord (d : Dev) (w : Nat) (g : Gran) (mask : BitVec 64) (pois : Bool) (tr : WriteTry) (k : Nat)
    (cc : Option Bool) : Dev :=
  let a := w * 64
  let s := d.stk (partOf a)
  let d := d.openRow a (if cc == some false then some (partOf a) else none)
  if mask == 0#64 then d
  else
    match d.writeFate w mask tr cc with
    | .failed bytes =>
      let d := d.storePoison w
      let d := (d.raise s { cls := 1, kind := 5, src := bankOf a, code := 0x0705, addr := a }).markPoison k a
      let d := d.inc (cMod 16)
      (match cc with
        | some c => d.laneRule c w bytes
        | none => d)
    | t =>
      let d := if t == .resent then d.raise s { cls := 0, kind := 5, src := bankOf a, code := 0x0704, addr := a } else d
      if pois then (d.storePoison w).markPoison k a
      else if mask != fullMask && d.stored w then
        let d := (d.inc (cMod 15)).raise s { cls := 1, kind := 5, src := bankOf a, code := 0x0703, addr := a }
        d.markPoison k a
      else d.storeWord w g mask

/-! ### Runtime remapping (08 R267-R270, R555) -/

/-- The lowest-numbered good free runtime spare slot. -/
def Bank.freeSlot (b : Bank) : Option Nat :=
  (List.range 16).find? (fun k => (b.slots.find k).isNone && !b.badSlots.contains k)

/-- The slot that maps a row. -/
def Bank.slotOf (b : Bank) (r : Nat) : Option Nat := (b.slots.find? (fun e => e.2 == r)).map (·.1)

/-- No byte of a word was written since its layer's power-up (08 R261). -/
def Dev.neverWritten (d : Dev) (w : Nat) : Bool := (wordCells d.mem.cells w).isEmpty && !(d.under w).zero

/-- A row's 128 words are copied: a word that fails parity, or was never written, becomes stored poison (08 R268). -/
def Dev.copyRow (d : Dev) (b r : Nat) (bad : List Nat) : Dev :=
  let w0 := rowAddr b r / 64
  (List.range 128).foldl (fun d i =>
    let w := w0 + i
    if d.stored w then d
    else if bad.contains w || d.neverWritten w || d.unwrittenFail w != 0#64 then d.storePoison w
    else d) d

/-- A runtime-map entry (08 R270). -/
def rtEntry (b r k : Nat) : Word := pack [(b, 0), (r, 13), (k, 27), (1, 31)]

/-- A row is switched to a spare slot, logged, reported and counted (08 R268, R269, R280). -/
def Dev.mapRow (d : Dev) (b r k : Nat) : Dev :=
  let bk := d.bank b
  let d := d.setBank b { bk with slots := bk.slots.put k r, openRow := bk.openRow.drop (r % 4) }
  let d := { d with mem := { d.mem with rtlog := d.mem.rtlog.put (d.mem.rthead % 256) (rtEntry b r k)
                                        rthead := d.mem.rthead + 1 } }
  d.raise (d.stk (b / 32)) { cls := 0, kind := 5, src := b, code := 0x0706, addr := rowAddr b r }

/-- A queued row is remapped, or deferred for want of a spare (08 R268, R269). -/
def Dev.remapRow (d : Dev) (b r : Nat) (bad : List Nat) : Dev :=
  let bk := d.bank b
  match bk.freeSlot with
  | none =>
    let d := (d.setBank b { bk with exhausted := true }).inc (cMod 20)
    if bk.reported.contains r then d
    else
      let d := d.setBank b { d.bank b with reported := r :: bk.reported }
      d.raise (d.stk (b / 32)) { cls := 1, kind := 5, src := b, code := 0x0707, addr := rowAddr b r }
  | some k =>
    let d := d.copyRow b r bad
    let bk := d.bank b
    let d := match bk.slotOf r with
      | some old => d.setBank b { bk with slots := bk.slots.drop old, badSlots := old :: bk.badSlots }
      | none => d
    (d.mapRow b r k).inc (cMod 19)

/-- The boundary empties every bank's queue, remapping its rows where REMAP_EN is 1 (08 R268, R278). -/
def Dev.remapAll (d : Dev) (bad : List Nat) : Dev :=
  let en := (d.reg 0x07000004).getLsbD 2
  d.mem.banks.foldl (fun d e =>
    let q := (d.bank e.1).queue
    let d := d.setBank e.1 { d.bank e.1 with queue := [] }
    if en then q.foldl (fun d r => d.remapRow e.1 r bad) d else d) d

/-- The accepted edits of the runtime map are applied in order (08 R555): (add, bank, row, slot). -/
def Dev.applyEdits (d : Dev) (bad : List Nat) : Dev :=
  let es := d.mem.edits
  let d := { d with mem := { d.mem with edits := [] } }
  es.foldl (fun d e =>
    let (add, b, r, k) := e
    let bk := d.bank b
    if add then
      let slot := if bk.badSlots.contains k then bk.freeSlot else some k
      match slot with
      | some k => (d.copyRow b r bad).mapRow b r k
      | none => d
    else
      let d := d.copyRow b r bad
      let bk := d.bank b
      d.setBank b { bk with slots := bk.slots.drop k, openRow := bk.openRow.drop (r % 4) }) d

/-- The map as it stands once accepted edits have been applied: slots of a bank (08 R555). -/
def Dev.slotsAfter (d : Dev) (b : Nat) : SMap Nat :=
  d.mem.edits.foldl (fun m e =>
    let (add, b', r, k) := e
    if b' != b then m
    else if add then
      let k := if (d.bank b).badSlots.contains k then
        ((List.range 16).find? (fun j => (m.find j).isNone && !(d.bank b).badSlots.contains j)).getD k else k
      m.put k r
    else m.drop k) (d.bank b).slots

/-! ### Power and refresh -/

/-- A memory layer's words become unwritten (08 R261, R277): power-down or power-up. -/
def Dev.wipeLayer (d : Dev) (i : Nat) : Dev :=
  let m := d.mem
  let banks := m.banks.map (fun e =>
    if d.layerOf (rowAddr e.1 0) == i then (e.1, { e.2 with queue := [], openRow := [] }) else e)
  let d := { d with mem := { m with cells := m.cells.filter (fun c => d.layerOf c.1 != i), epochs := m.epochs + 1
                                    areas := m.areas.filter (fun e => d.layerOf (e.key * 2 ^ 31) != i)
                                    poison := m.poison.filter (fun c => d.layerOf (c.1 * 64) != i), banks := banks } }
  let ly := d.layer i
  let d := d.setLayer i { ly with epoch := m.epochs + 1, marched := false, filled := false }
  -- sealed pages of the layer become BROKEN_DEVICE (10 R344)
  { d with seals := d.seals.map (fun e =>
      if d.layerOf (e.1 * 4096) == i then (e.1, { e.2 with bit := false, state := 2 }) else e) }

/-- Stage 3 has marched an unwritten layer and, with BOOT_FILL, written zero to every word (08 R263, 15 R493). -/
def Dev.marchLayer (d : Dev) (i : Nat) (fill : Bool) : Dev := d.setLayer i { d.layer i with marched := true, filled := fill }

/-- A bank's refresh command when its interval has passed (08 R257, R258). -/
def Dev.refresh (d : Dev) (b t : Nat) : Dev :=
  let i := d.layerOf (rowAddr b 0)
  let bk := d.bank b
  let iv := if (d.layer i).double then 15625 else 31250
  if 2 * t < 2 * bk.lastRef + iv then d
  else
    let d := d.setBank b { bk with openRow := bk.openRow.drop bk.nextSub, nextSub := (bk.nextSub + 1) % 4
                                   lastRef := t, refreshes := bk.refreshes + 1 }
    { (d.inc (cLayer i)) with now := max d.now t }

end Sys2Proof.Machine
end

