-- ==== Sys2Proof/Machine/Windows.lean ====
section
/-! DEFINITION. Addresses in their two views, window checks, freezes, access status and paths (01 R21-R23, 03). -/

namespace Sys2Proof.Machine

/-! ### The two views (03 R78) -/

def hostToLinear (swizzle : Bool) (h : Nat) : Nat :=
  let page := h / 2 ^ 20 % 2 ^ 20
  let f := h / 2 ^ 12 % 256
  let f := if swizzle then f ^^^ (page % 256) else f
  f * 2 ^ 32 + page * 2 ^ 12 + h % 2 ^ 12

def linearToHost (swizzle : Bool) (a : Nat) : Nat :=
  let f := a / 2 ^ 32 % 256
  let page := a / 2 ^ 12 % 2 ^ 20
  let f := if swizzle then f ^^^ (page % 256) else f
  page * 2 ^ 20 + f * 2 ^ 12 + a % 2 ^ 12

/-- MEM_HOST_VIEW.SWIZZLE (03 R80). -/
def Dev.swizzle (d : Dev) : Bool := (d.reg 0x07000000).getLsbD 0

/-! ### Windows (03 R86-R89) -/

def Dev.winWord (d : Dev) (set w word : Nat) : Word := d.win.win.get (set * 64 + w * 4 + word) 0#32

/-- The kinds of access a window grants. -/
inductive AccK where
  | read
  | write
  | atomic
  | fetch
  deriving DecidableEq, Repr

def AccK.bit : AccK → Nat
  | .read => 28
  | .write => 29
  | .atomic => 30
  | .fetch => 31

/-- KIND of the freeze log (03 R96). -/
def AccK.code : AccK → Nat
  | .read => 0
  | .write => 1
  | .atomic => 2
  | .fetch => 3

/-- Window w of a set grants a kind on a page of a space (0 device, 1 control) (03 R88). -/
def Dev.grants (d : Dev) (set w space : Nat) (k : AccK) (page : Nat) : Bool :=
  let w0 := d.winWord set w 0
  let w1 := d.winWord set w 1
  w1.getLsbD 30 && bf w1 29 28 == space && w0.getLsbD k.bit && decide (bf w0 27 0 ≤ page) && decide (page ≤ bf w1 27 0)

/-- Some valid window of the set grants the page (03 R89). -/
def Dev.allowed (d : Dev) (set space : Nat) (k : AccK) (page : Nat) : Bool :=
  (List.range 16).any (fun w => d.grants set w space k page)

/-- The 256-B line of a device address is granted. -/
def Dev.allowedAt (d : Dev) (set : Nat) (k : AccK) (a : Nat) : Bool := d.allowed set 0 k (a / 4096)

/-- Every line of n bytes from a is granted. -/
def Dev.allowedRange (d : Dev) (set : Nat) (k : AccK) (a n : Nat) : Bool :=
  n == 0 || (List.range ((a + n - 1) / 4096 - a / 4096 + 1)).all (fun i => d.allowed set 0 k (a / 4096 + i))

/-- The window set bound to a port (03 R94). -/
def Dev.portSet (d : Dev) (p : Nat) : Nat := d.win.bind.get p 0

/-! ### Masters and freezes (03 R85, R90-R93) -/

def gemmaMid (g : Nat) : Nat := 0x100 + g
def engineMid (e : Nat) : Nat := 0x900 + e
def portMid (p : Nat) : Nat := 0x910 + p
/-- The stipes are no masters; this number stands for them as a requester (03 R85). -/
def stipeMid : Nat := 0xFFF

def Dev.isFrozen (d : Dev) (m : Nat) : Bool := d.win.frozen.contains m

/-- A copy engine, or a gemma that fills, issues no further piece for a unit (02 R559), and a WAITM between two reads of its
word ends (05 R165, 10 R334). -/
def Dev.truncCopy (d : Dev) (k : Nat) : Dev :=
  let cut (x : Xfer) : Bool := x.unit == k &&
    (x.kind == .copyRead || x.kind == .copyWrite || (x.kind == .gFill && x.ip == 0x10000) ||
      ((x.kind == .waitm || x.kind == .gWaitm) && x.gr.isEmpty && x.sent.isEmpty))
  let xs := d.xfers.map (fun x => if cut x then { x with limit := x.next } else x)
  { d with xfers := xs.filter (fun x => !(cut x && x.next == x.limit && x.gr.isEmpty && x.sent.isEmpty)) }

/-- An ending arises for the unit a master runs; the unit stops issue (05 R165). -/
def Dev.stopUnit (d : Dev) (k cause aux : Nat) : Dev :=
  let d := d.modUnit k (fun u => if u.phase == 1 || u.phase == 2 then
    { u with phase := 2, stops := u.stops ++ [(cause, aux)] } else u)
  if k == 0 then d else d.truncCopy k

/-- The first refused line freezes the master at once; further ones are only counted (03 R90, R92). `dead`: a ghost
hit under STRICT_DEAD (09 R302). -/
def Dev.freeze (d : Dev) (m kind wset addr ctx : Nat) (dead : Bool) : Dev :=
  if m == stipeMid then d
  else if d.isFrozen m then d.inc (cMod 8)
  else
    let k := d.unitKey m
    let lc := if 0x910 ≤ m then 0xFFFF else if m < 0x100 then (d.frond m).lastCommit
      else match d.unitOn m with
        | some u => u.lastCommit
        | none => 0xFFFF
    let dr : Drain := { mid := m, kind := kind, wset := wset, addr := addr / 256 * 256, lastCommit := lc, context := ctx,
                        dead := dead, unit := k }
    let d := { d with win := { d.win with frozen := d.win.frozen ++ [m], drains := d.win.drains ++ [dr] } }
    d.stopUnit k 6 0

/-- The drain of a frozen master ends: its log entry is latched and the error raised (03 R90, R92, R96, 09 R302). -/
def Dev.drainEnd (d : Dev) (m : Nat) : Dev :=
  match d.win.drains.find? (fun r => r.mid == m) with
  | none => d
  | some r =>
    if d.xfers.any (fun x => x.mid == m) then d
    else
      let h := d.win.logHead
      let lost := (d.win.log.get (4 * h) 0#32).getLsbD 31
      let log := d.win.log.put (4 * h) (pack [(r.mid, 0), (r.kind, 12), (r.wset, 16), (b2n (!r.free), 30), (1, 31)])
      let log := log.put (4 * h + 1) (BitVec.ofNat 32 (r.addr % 2 ^ 32))
      let log := log.put (4 * h + 2) (pack [(if 4 ≤ r.kind then 0 else r.addr / 2 ^ 32 % 256, 0), (r.lastCommit, 16)])
      let log := log.put (4 * h + 3) (BitVec.ofNat 32 (r.context % 2 ^ 32))
      let d := { d with win := { d.win with drains := d.win.drains.eraseP (fun x => x.mid == m), log := log
                                            logHead := (h + 1) % 32 } }
      let d := if lost then d.inc (cMod 9) else d
      -- in-flight regions of a frozen gemma are cleared once drained (10 R329)
      let d := if 0x100 ≤ m && m < 0x900 then d.modGemma (m - 0x100) (fun g => { g with infl := [] }) else d
      d.raise 0 { cls := 2, kind := 3, src := m, code := if r.dead then 0x0804 else 0x0B01, unit := r.unit }

/-! ### Access status and paths (03 R83, R84, 01 R21-R23) -/

/-- The stack bridges of a path from stack s to t, going up or down the ring. -/
def ringPath (s t : Nat) (up : Bool) : List Nat :=
  if up then (List.range ((t + 4 - s) % 4)).map (fun i => (s + i) % 4)
  else (List.range ((s + 4 - t) % 4)).map (fun i => (s + 3 - i) % 4)

/-- The direction a request takes to another stack: the bridge of bridged stacks, R22's rule to the opposite stack, and
the other way round where a bridge of it is retired or the stack between is in reset (01 R22, R23, 15 R496). DESIGN CHOICE
(log 61): an unpowered stack between (R26) keeps carrying the traffic, for the manual turns it round for the other two only. -/
def Dev.ring (d : Dev) (s t a : Nat) : List Nat :=
  let n := (t + 4 - s) % 4
  let mode := bf (d.inF 0x08000010) 1 0
  let up := if n == 1 then true else if n == 3 then false
    else if mode == 1 then true else if mode == 2 then false else !(a.testBit 8)
  let p := ringPath s t up
  let mid := if up then (s + 1) % 4 else (s + 3) % 4
  let reset := n == 2 && d.bup.resets.any (fun r => r.level == 2 && r.unit == mid)
  if reset || p.any (fun b => d.bridgeOff.contains b) then ringPath s t (!up) else p

/-- The bridges a request crosses from stack s, in its half h where it has one, to an address's home half; stitch
bridge l is 16 + l. -/
def Dev.path (d : Dev) (s : Nat) (h : Option Nat) (a : Nat) : List Nat :=
  let home := d.home (partOf a)
  let t := home / 8
  if s != t then d.ring s t a
  else match h with
    | some h => if h != home && h / 2 == home / 2 && !d.bridgeOff.contains (16 + h / 2) then [16 + h / 2] else []
    | none => []

/-- A bridge (stack bridge s, or 16 + stitch bridge) fails its lane check: a record now, PATH_FAILED until the boundary
(16 R517, 01 R23). -/
def Dev.bridgeFails (d : Dev) (b : Nat) : Dev :=
  if d.bridgeFail.contains b || d.bridgeOff.contains b then d
  else
    let e : ErrRec := if b < 16 then { cls := 2, kind := 11, src := b, code := 0x0E03 }
      else { cls := 2, kind := 12, src := b - 16, code := 0x0E04 }
    ({ d with bridgeFail := d.bridgeFail ++ [b] }).raise (if b < 16 then b else (b - 16) / 4) e

/-- A transfer fails the link-level check of a bridge that it crosses, after 4 resends (16 R517). -/
def Dev.pathFault (d : Dev) (path : List Nat) (f : CacheFault) : Dev := match f with
  | .bridge b => if path.contains b.val then d.bridgeFails b else d
  | _ => d

/-- Where a master's requests start: its stack, and its half-layer where it lies in one. -/
def Dev.place (d : Dev) (m : Nat) : Nat × Option Nat :=
  if m < 0x100 then (d.stk m, some (d.home m))
  else if m < 0x900 then (d.stk ((m - 0x100) / 8), some (d.home ((m - 0x100) / 8)))
  else if m < 0x910 then ((m - 0x900) / 4, none)
  else if m < 0x916 then (portStack (m - 0x910), none)
  else (0, none)

/-! ### Domains that carry an access (13 R424, R440-R442) -/

def Dev.dom (d : Dev) (i : Nat) : Dom := d.pwr.dom.get i {}
def Dev.modDom (d : Dev) (i : Nat) (f : Dom → Dom) : Dev :=
  { d with pwr := { d.pwr with dom := d.pwr.dom.put i (f (d.dom i)) } }
/-- The domain of a logic half-layer, and of a partition's memory pair. -/
def halfDom (h : Nat) : Nat := 14 * (h / 8) + h % 8
def Dev.partDom (d : Dev) (f : Nat) : Nat := 14 * (d.phys f / 64) + 8 + d.phys f % 64 / 16

/-- A switch-on is requested: the domain waits for the test of R441. -/
def Dev.askDom (d : Dev) (i : Nat) : Dev :=
  if (d.dom i).st != 0 || (d.dom i).dead || 2 ≤ d.thm.ladder then d
  else d.modDom i (fun x => { x with st := 1, asked := 0, askedAt := d.now, waited := false })

/-- An access homed in a half that is off completes RESET: under REQ = OFF, after a fault, or under the ladder. -/
def Dev.halfDown (d : Dev) (h : Nat) : Bool :=
  let x := d.dom (halfDom h)
  x.st == 5 || (x.st == 0 && (x.req == 2 || x.dead || decide (2 ≤ d.thm.ladder)))

/-- An access homed in a half that is switched on, or waits to be, is held until it is ON (13 R441). -/
def Dev.halfHeld (d : Dev) (h : Nat) : Bool := (d.dom (halfDom h)).st != 4 && !d.halfDown h

/-- A swap keeps accesses from a partition (14 R469). -/
def Dev.swapping (d : Dev) (f : Nat) : Bool := match d.thm.rot with
  | some r => decide (2 ≤ r.st) && (r.a == f || r.b == f)
  | none => false

/-- The partition's cells cannot be reached: UNMAPPED where its frond is RETIRED, else RESET (03 R77, 09 R306, 13 R440, R442,
14 R469). -/
def Dev.partStatus (d : Dev) (f : Nat) : Nat :=
  if d.isRetired f then 4 else if (d.dom (d.partDom f)).st != 4 || d.swapping f then 9 else 0

/-- The status that keeps an access from its home half: UNMAPPED, PATH_FAILED or RESET; 0 for none (03 R84). DESIGN CHOICE
(log 62): where both ways round the ring hold a retired bridge, an access completes PATH_FAILED after the boundary too. -/
def Dev.targetStatus (d : Dev) (m a : Nat) : Nat :=
  if d.isRetired (partOf a) then 4
  else
    let p := d.path (d.place m).1 (d.place m).2 a
    if p.any (fun b => d.bridgeFail.contains b || d.bridgeOff.contains b) then 12
    else if d.halfReset.contains (d.home (partOf a)) || d.halfDown (d.home (partOf a)) then 9
    else d.partStatus (partOf a)

/-- An access absorbed by a resetting half is counted (15 R496). -/
def Dev.countAbsorb (d : Dev) (st a : Nat) : Dev :=
  let h := d.home (partOf a)
  if st == 9 && d.halfReset.contains h then d.inc (cHl h 1) else d

/-- The status of codes 4 to 12: the access was not performed (03 R83). -/
def notPerformed (st : Nat) : Bool := decide (4 ≤ st) && decide (st ≤ 12)

/-! ### Seals (10 R338-R340) -/

/-- A write reaches a page: a set seal bit is cleared and the entry broken, naming the port for a port's write
(10 R340). -/
def Dev.breakSeal (d : Dev) (a m : Nat) : Dev :=
  match d.seals.find (a / 4096) with
  | some e =>
    if e.bit then
      let port := decide (0x910 ≤ m) && decide (m < 0x916)
      let e' := { e with bit := false, state := if port then 3 else 2, breaker := if port then m - 0x910 else 0 }
      ({ d with seals := d.seals.put (a / 4096) e' }).inc (cMod 22)
    else d
  | none => d

end Sys2Proof.Machine
end

