-- ==== Sys2Proof/Machine/Cache.lean ====
section
/-! DEFINITION. The shared cache (09): lines, fill and eviction entries, ghost tags, the order of accesses at a home
half, and the stipes' accesses. -/

namespace Sys2Proof.Machine

/-! ### Transfers in flight -/

def Dev.xfer (d : Dev) (x : Nat) : Option Xfer := d.xfers.find? (fun e => e.id == x)
def Dev.modXfer (d : Dev) (x : Nat) (f : Xfer → Xfer) : Dev :=
  { d with xfers := d.xfers.map (fun e => if e.id == x then f e else e) }
def Dev.endXfer (d : Dev) (x : Nat) : Dev := { d with xfers := d.xfers.filter (fun e => e.id != x) }

/-- The access of piece i of transfer x has its status and data. -/
def Dev.finishGr (d : Dev) (x i st : Nat) (data : Gran) : Dev :=
  d.modXfer x (fun e =>
    { e with gr := e.gr.map (fun g => if g.i == i then { g with stage := 1, status := st, data := data } else g) })

/-- The unit on whose behalf a transfer runs; 0 for none. -/
def Dev.xUnit (d : Dev) (x : Nat) : Nat := match d.xfer x with
  | some e => e.unit
  | none => 0

/-! ### Lines of a half (09 R288, R556) -/

/-- The set of a line, by its number A[39:8]. -/
def setOf (l : Nat) : Nat := (l % 2 ^ 14) ^^^ (l / 2 ^ 19 % 256 * 64)
def sliceOf (l : Nat) : Nat := setOf l % 16

/-- The way key (set * 16 + way) that holds a line. -/
def Half.find (h : Half) (l : Nat) : Option (Nat × CLine) :=
  let s := setOf l * 16
  ((List.range 16).filterMap (fun w => match h.lines.find (s + w) with
    | some c => if c.line == l then some (s + w, c) else none
    | none => none)).head?

/-- A way is out of service (09 R292, 16 R522). -/
def Half.isOff (h : Half) (key : Nat) : Bool :=
  h.off.contains key || h.offSlice.contains (key / 16 % 16 * 16 + key % 16)

/-- Node n's walk down the tree of R556. -/
def plruWalk : Nat → BitVec 16 → Nat → Nat
  | 0, _, n => n
  | k + 1, b, n => plruWalk k b (2 * n + (if b.getLsbD n then 1 else 0))

/-- The tree after an access of way w: each node on the path points away from w (09 R556). -/
def plruTouch : Nat → BitVec 16 → Nat → Nat → BitVec 16
  | 0, b, _, _ => b
  | k + 1, b, n, w =>
    let bit := w.testBit k
    let one : BitVec 16 := BitVec.ofNat 16 (2 ^ n)
    plruTouch k (if bit then b &&& ~~~ one else b ||| one) (2 * n + (if bit then 1 else 0)) w

def Half.touch (h : Half) (key : Nat) : Half :=
  { h with plru := modify h.plru (key / 16) 0#16 (fun b => plruTouch 4 b 1 (key % 16)) }

/-- The way to allocate in a line's set; none where every way in service has an open fill entry (09 R556). -/
def Half.choose (h : Half) (l : Nat) : Option Nat :=
  let s := setOf l * 16
  let ways := (List.range 16).map (s + ·)
  let filling (k : Nat) : Bool := h.fills.any (fun f => f.way == k)
  let ok := ways.filter (fun k => !h.isOff k)
  match ok.find? (fun k => (h.lines.find k).isNone) with
  | some k => some k
  | none =>
    let k := s + (plruWalk 4 (h.plru.get (setOf l) 0#16) 1 - 16)
    if filling k || h.isOff k then ok.find? (fun k => !filling k) else some k

/-- Word j of a line. -/
def CLine.word (c : CLine) (j : Nat) : Gran := BitVec.ofNat 512 (bitsAt c.data.toNat (512 * j) 512)
def CLine.wValid (c : CLine) (j : Nat) : BitVec 64 := BitVec.ofNat 64 (bitsAt c.valid.toNat (64 * j) 64)
def CLine.wDirty (c : CLine) (j : Nat) : BitVec 64 := BitVec.ofNat 64 (bitsAt c.dirty.toNat (64 * j) 64)

def setField {n : Nat} (v : BitVec n) (lo w x : Nat) : BitVec n :=
  BitVec.ofNat n (v.toNat - bitsAt v.toNat lo w * 2 ^ lo + x * 2 ^ lo)

/-- A line with word j's data, VALID, DIRTY and POISON replaced. -/
def CLine.setWord (c : CLine) (j : Nat) (g : Gran) (v dt : BitVec 64) (p : Bool) : CLine :=
  { c with data := setField c.data (512 * j) 512 g.toNat, valid := setField c.valid (64 * j) 64 v.toNat
           dirty := setField c.dirty (64 * j) 64 dt.toNat, pois := setField c.pois j 1 (b2n p) }

def CLine.wPois (c : CLine) (j : Nat) : Bool := c.pois.getLsbD j

/-- Whether word j counts as having DIRTY bytes in the check of a direct access (09 R296). -/
def CLine.dirtyish (c : CLine) (j : Nat) : Bool := c.wDirty j != 0#64 || c.wPois j

/-- Word j takes poison, with VALID and DIRTY on the bytes of a mask (09 R290, R291). -/
def CLine.poison (c : CLine) (j : Nat) (m : BitVec 64) : CLine :=
  c.setWord j 0#512 (c.wValid j ||| m) (c.wDirty j ||| m) true

/-- A masked write of a word of a line; the flag says that it was discarded (09 R290, R291). -/
def CLine.write (c : CLine) (j : Nat) (g : Gran) (m : BitVec 64) (p : Bool) : CLine × Bool :=
  if p then (c.poison j m, false)
  else if c.wPois j && m != fullMask then (c, true)
  else (c.setWord j (gMerge (c.word j) g m) (c.wValid j ||| m) (c.wDirty j ||| m) false, false)

/-- An atomic on a word that holds every byte it needs; the flag says that the target is poison (09 R291, R304). -/
def CLine.atomic (c : CLine) (j : Nat) (a : HAcc) : CLine × Bool :=
  if c.wPois j || a.pois then (c.poison j a.mask, true)
  else (c.setWord j (atomGran a.aop a.afmt (c.word j) a.data a.mask) (c.wValid j ||| a.mask) (c.wDirty j ||| a.mask) false, false)

/-- The bytes of word k of its line that an access wants when it arrives. -/
def HAcc.wants (a : HAcc) (k : Nat) : BitVec 64 :=
  let m := if k == a.w % 4 then a.mask else 0#64
  if a.kind == 0 && a.head then m ||| BitVec.ofNat 64 (bitsAt a.bytes.toNat (64 * k) 64) else m

/-- The words of its line that an access wants. -/
def HAcc.need (a : HAcc) : BitVec 4 :=
  (List.range 4).foldl (fun m k => if a.wants k == 0#64 then m else m ||| BitVec.ofNat 4 (2 ^ k)) 0#4

/-- A line holds every byte that an access wants: word by word, VALID bytes or POISON (09 R290). -/
def CLine.serves (c : CLine) (a : HAcc) : Bool :=
  (List.range 4).all (fun k => c.wPois k || (a.wants k &&& ~~~ (c.wValid k)) == 0#64)

/-! ### Events at a line -/

/-- Last-use marks have an effect (09 R300, R307). -/
def Dev.luOn (d : Dev) : Bool := !(d.inF 0x08000000).getLsbD 1
def Dev.strictDead (d : Dev) : Bool := (d.inF 0x08000000).getLsbD 0

def Half.ghost (h : Half) (l : Nat) : Option Bool := (h.ghosts.find? (fun g => g.1 == l)).map (·.2)
def Half.unghost (h : Half) (l : Nat) : Half := { h with ghosts := h.ghosts.filter (fun g => g.1 != l) }

/-- A marked read drops its line and makes a ghost entry (09 R299, R301). -/
def Dev.luDrop (d : Dev) (h l : Nat) : Dev :=
  let hf := d.half h
  match hf.find l with
  | none => d
  | some (k, c) =>
    let dirty := c.dirty != 0#256
    let gs := (hf.unghost l).ghosts
    let gs := if 1024 ≤ gs.length then gs.drop 1 else gs
    let d := d.setHalf h { hf with lines := hf.lines.drop k, ghosts := gs ++ [(l, dirty)] }
    let d := d.inc (cHalf h 12)
    if dirty then d.inc (cHalf h 13) else d

/-- A ghost hit (09 R301): the entry is removed and counted. -/
def Dev.ghostHit (d : Dev) (h l : Nat) : Dev :=
  match (d.half h).ghost l with
  | none => d
  | some dirty =>
    let d := (d.setHalf h ((d.half h).unghost l)).inc (cHalf h 14)
    if dirty then d.inc (cHalf h 15) else d

/-- A discarded partial write of a poisoned word (08 R262, 09 R291). -/
def Dev.poisonMerge (d : Dev) (w k : Nat) : Dev :=
  let a := w * 64
  let d := (d.inc (cMod 15)).raise (d.stk (partOf a)) { cls := 1, kind := 5, src := bankOf a, code := 0x0703, addr := a }
  d.markPoison k a

/-- CONTEXT of a master's freeze-log entry at an access of a transfer (03 R96): a copy's bytes written so far, a port's
request, the byte address of an instruction. DESIGN CHOICE (log 69): 16 times the index in the store for a frond, and 0 where no
instruction issues the access (a launch, a FILL). -/
def Xfer.ctx (e : Xfer) : Nat :=
  if 0x900 ≤ e.mid && e.mid < 0x910 then (if e.kind == .copyRead then 64 * e.done - e.loc else e.ip)
  else if 0x910 ≤ e.mid then e.ip else e.ip * (if e.mid < 0x100 then 16 else 1)

/-- A port's read notes a page whose seal bit is clear when a line of it is served (10 R341, R344). -/
def Dev.noteSeal (d : Dev) (x w : Nat) : Dev :=
  if (d.seals.find (w / 64)).any (·.bit) then d
  else d.modXfer x (fun e => if e.kind == .portRead && !e.clear.contains (w / 64) then { e with clear := w / 64 :: e.clear } else e)

/-- A read ends: its status and data; a ghost hit under STRICT_DEAD freezes its master, whatever the status (09 R302). -/
def Dev.finishRead (d : Dev) (a : HAcc) (st : Nat) (g : Gran) (dead : Bool) : Dev :=
  let d' := (d.finishGr a.x a.i st g).noteSeal a.x a.w
  match d.xfer a.x with
  | some e => if dead && a.head && d.strictDead then d'.freeze a.mid 0 e.wset (a.w / 4 * 256) e.ctx true else d'
  | none => d'

/-- Status of served data: POISON over UNSTABLE over DEADREF over OK (03 R84). -/
def readStatus (pois unst dead : Bool) : Nat := if pois then 1 else if unst then 3 else if dead then 2 else 0

/-- A read is UNSTABLE: a word of its line that it returns lies in a declared region (10 R328, R329). -/
def Dev.unstableRead (d : Dev) (a : HAcc) : Bool :=
  d.unstableAt a.w || (List.range 4).any (fun k =>
    bitsAt a.bytes.toNat (64 * k) 64 != 0 && d.unstableAt (a.w / 4 * 4 + k))

/-- A later granule of a read whose first granule found the line's ghost entry (09 R301). -/
def Dev.deadTail (d : Dev) (a : HAcc) : Bool := !a.head && (match d.xfer a.x with
  | some e => e.deadLine == some (a.w / 4)
  | none => false)

/-- A read that served data ends with its status; one that completes UNSTABLE is counted, once (10 R349). -/
def Dev.serveRead (d : Dev) (a : HAcc) (pois unst dead : Bool) (g : Gran) : Dev :=
  let st := readStatus pois unst dead
  let d := if st == 3 && a.head then d.inc (cPart (partOf (a.w * 64)) 1) else d
  d.finishRead a st (if pois then 0#512 else g) dead

/-- A write or atomic has landed at its home half, with what it did to poison (09 R262, R291). -/
def Dev.landed (d : Dev) (a : HAcc) (pois disc : Bool) : Dev :=
  let u := d.xUnit a.x
  let d := if pois then d.markPoison u (a.w * 64) else if disc then d.poisonMerge a.w u else d
  d.finishGr a.x a.i 0 0#512

/-- An access is applied to its line, which holds every byte it needs (09 R290, R291, R304); a write breaks the page's seal
when it lands too (10 R344). -/
def Dev.applyHit (d : Dev) (h : Nat) (a : HAcc) (dead : Bool) : Dev :=
  let d := if a.kind != 0 then d.breakSeal (a.w * 64) a.mid else d
  let hf := d.half h
  match hf.find (a.w / 4) with
  | none => d
  | some (k, c) =>
    let j := a.w % 4
    let hf := hf.touch k
    if a.kind == 0 then (d.setHalf h hf).serveRead a (c.wPois j) (d.unstableRead a) dead (c.word j)
    else if a.kind == 1 then
      let (c', disc) := c.write j a.data a.mask a.pois
      (d.setHalf h { hf with lines := hf.lines.put k c' }).landed a a.pois disc
    else
      let (c', p) := c.atomic j a
      (d.setHalf h { hf with lines := hf.lines.put k c' }).landed a p false

/-- The dirty words and masks of a line, which move to its eviction entry (09 R295). -/
def CLine.dirtyPart (c : CLine) : CLine :=
  (List.range 4).foldl (fun e j =>
    if c.wDirty j == 0#64 then e else e.setWord j (c.word j) (c.wDirty j) (c.wDirty j) (c.wPois j)) { line := c.line }

/-- The victim in a way moves to an eviction entry where it has DIRTY bytes; none where its slice's 8 entries are in use
(09 R295). -/
def Half.evict (h : Half) (key : Nat) : Option Half :=
  match h.lines.find key with
  | none => some h
  | some c =>
    if c.dirty == 0#256 then some { h with lines := h.lines.drop key }
    else if 8 ≤ (h.evicts.filter (fun e => sliceOf e.cl.line == sliceOf c.line)).length then none
    else some { h with lines := h.lines.drop key, evicts := h.evicts ++ [{ cl := c.dirtyPart }] }

/-- A line is allocated; none where no way or eviction entry is free. -/
def Half.alloc (h : Half) (l : Nat) : Option (Nat × Half) :=
  match h.choose l with
  | none => none
  | some k => match h.evict k with
    | none => none
    | some h => some (k, ({ h with lines := h.lines.put k { line := l } }).touch k)

/-- A word fails parity in the data array (09 R292): refetched where it is clean, POISON where it has DIRTY bytes. -/
def Dev.arrayFault (d : Dev) (h l j : Nat) (bytes : BitVec 64) : Dev :=
  let hf := d.half h
  match hf.find l with
  | none => d
  | some (k, c) =>
    let e : ErrRec := { kind := 6, src := h, addr := (l * 4 + j) * 64, detail := bytes.toNat }
    if c.wDirty j == 0#64 then
      let d := d.setHalf h { hf with lines := hf.lines.put k (c.setWord j 0#512 0#64 0#64 false) }
      d.raise (h / 8) { e with cls := 0, code := 0x0801 }
    else
      let d := d.setHalf h { hf with lines := hf.lines.put k (c.setWord j 0#512 (c.wValid j) (c.wDirty j) true) }
      d.raise (h / 8) { e with cls := 1, code := 0x0802 }

/-- An uncorrectable tag error takes a way out of service (09 R292, R556). -/
def Dev.tagLost (d : Dev) (h key : Nat) : Dev :=
  let hf := d.half h
  let d := d.setHalf h { hf with lines := hf.lines.drop key, off := key :: hf.off, plru := hf.plru.drop (key / 16) }
  d.raise (h / 8) { cls := 3, kind := 6, src := h, code := 0x0803, addr := key }

/-- A fault of the half's arrays met by an access to a line. -/
def Dev.cacheFault (d : Dev) (h l : Nat) (f : CacheFault) : Dev :=
  match f with
  | .data j m => d.arrayFault h l j.val m
  | .tag w => d.tagLost h (setOf l * 16 + w.val)
  | _ => d

/-- The dirty words of the line that an allocation displaces are read from the data array: whether one fails is free (09 R292,
log 60). -/
def Dev.victimFault (d : Dev) (h l : Nat) : Dev :=
  match (d.half h).choose l with
  | none => d
  | some k => match (d.half h).lines.find k with
    | none => d
    | some c =>
      if c.dirty == 0#256 then d
      else
        let (d, f) := d.anyFault
        match f with
        | .data j m => if c.wDirty j == 0#64 then d else d.arrayFault h c.line j.val m
        | _ => d

/-- An access whose line is in an eviction entry (09 R305): a write or atomic of an open entry is applied to the entry's word,
and what the entry lacks of it is read from memory first where the access does not overwrite the word. -/
def Dev.atEvict (d : Dev) (h : Nat) (a : HAcc) (e : Evict) : Dev :=
  let put (d : Dev) (e' : Evict) : Dev :=
    let hf := d.half h
    d.setHalf h { hf with evicts := hf.evicts.map (fun x => if x.cl.line == e.cl.line then e' else x) }
  let j := a.w % 4
  if a.kind == 0 || e.closed then
    let d := if a.kind != 0 then d.inc (cHalf h 17) else d
    put d { e with waiters := e.waiters ++ [a] }
  else
    let d := d.inc (cHalf h 16)
    let lacks := if a.kind == 1 then e.cl.wDirty j == 0#64 && a.mask != fullMask else (a.mask &&& ~~~ (e.cl.wValid j)) != 0#64
    let (d, c) := if lacks && !e.cl.wPois j then
        let (d, tr) := d.anyRead
        let (d, g, p) := d.readWord a.w .channel tr
        (d, e.cl.setWord j (gMerge g (e.cl.word j) (e.cl.wValid j)) fullMask (e.cl.wDirty j) p)
      else (d, e.cl)
    if a.kind == 1 then
      let (c', disc) := c.write j a.data a.mask a.pois
      (put d { e with cl := c' }).landed a a.pois disc
    else
      let (c', p) := c.atomic j a
      (put d { e with cl := c' }).landed a p false

/-- A fill entry is opened for a line, which is allocated where it is absent (09 R290, R297). -/
def Dev.openFill (d : Dev) (h : Nat) (a : HAcc) (dead : Bool) : Dev :=
  let l := a.w / 4
  let hf := d.half h
  let mk (k : Nat) (hf : Half) : Half :=
    { hf with fills := hf.fills ++ [{ line := l, way := k, opened := d.now, need := a.need, waiters := [a]
                                      dead := if dead then some a.x else none }] }
  match hf.find l with
  | some (k, _) => d.setHalf h (mk k hf)
  | none =>
    let d := d.victimFault h l
    match (d.half h).alloc l with
    | some (k, hf) => d.setHalf h (mk k hf)
    | none => d.setHalf h { d.half h with blocked := (d.half h).blocked ++ [a] }

/-- A hit or miss is counted once for each access (09 R309). -/
def Dev.countAt (d : Dev) (h : Nat) (a : HAcc) (n : Nat) : Dev := if a.counted then d else d.inc (cHalf h n)

/-- An access arrives at its home half and is served, merged into a fill entry, or waits (09 R290, R297, R298, R301,
R305). A read behind a write that waits for the fill is served after it, and counts then. An access that finds no way or
eviction entry free, or one that waits for its line, changes nothing but the list of those that wait. -/
def Dev.homeAccess (d : Dev) (h : Nat) (a : HAcc) : Dev :=
  let l := a.w / 4
  let hf := d.half h
  let d := if a.kind != 0 then d.breakSeal (a.w * 64) a.mid else d
  match hf.evicts.find? (fun e => e.cl.line == l) with
  | some e => d.atEvict h a e
  | none =>
  match hf.fills.find? (fun f => f.line == l) with
  | some f =>
    let early := decide (d.now ≤ f.opened + 53)
    let joins := a.kind == 0 && f.waiters.all (fun b => b.kind == 0)
    -- the later granules of a read count with its first
    let new := joins && a.head
    let d := if new then (d.inc (cHalf h (if early then 8 else 9))).countAt h a 1
      else if a.kind == 0 then d else d.countAt h a (2 * a.kind + 1)
    let f' := { f with waiters := f.waiters ++ [{ a with counted := a.counted || joins || a.kind != 0 }]
                       joined := if new && early then f.joined + 1 else f.joined
                       need := f.need ||| (if a.kind == 1 then 0#4 else a.need) }
    let hf := d.half h
    d.setHalf h { hf with fills := hf.fills.map (fun x => if x.line == l then f' else x) }
  | none =>
  match hf.find l with
  | some (_, c) =>
    let hit := a.kind == 1 || c.serves a
    let d := d.countAt h a (2 * a.kind + (if hit then 0 else 1))
    if hit then
      let d := d.applyHit h a (a.kind == 0 && d.deadTail a)
      if a.kind == 0 && a.lu && d.luOn then d.luDrop h l else d
    else d.openFill h { a with counted := true } false
  | none =>
    if hf.blocked.any (fun b => b.w / 4 == l) || (hf.alloc l).isNone then
      d.setHalf h { d.half h with blocked := (d.half h).blocked ++ [a] }
    else
      let d := d.countAt h a (2 * a.kind + 1)
      let dead := a.kind == 0 && (hf.ghost l).isSome
      let d := if dead then (d.ghostHit h l).modXfer a.x (fun e => { e with deadLine := some l })
        else d.setHalf h ((d.half h).unghost l)
      if a.kind == 1 then
        let d := d.victimFault h l
        match (d.half h).alloc l with
        | some (_, hf) => (d.setHalf h hf).applyHit h a false
        | none => d
      else d.openFill h { a with counted := true } dead

/-- An access that waited arrives again, unless a status now keeps it from its home half (03 R84, 09 R306). -/
def Dev.rearrive (d : Dev) (h : Nat) (a : HAcc) : Dev :=
  let st := d.targetStatus a.mid (a.w * 64)
  if st != 0 then d.finishGr a.x a.i st 0#512 else d.homeAccess h a

/-- Accesses that waited for a way or an eviction entry arrive again, in order. -/
def Dev.unblock (d : Dev) (h : Nat) : Dev :=
  let bs := (d.half h).blocked
  let d := d.setHalf h { d.half h with blocked := [] }
  bs.foldl (fun d a => d.rearrive h a) d

/-- Word j of a fill is fetched (09 R263, R290): stored poison is taken at once; a needed word by R264; a word no one
needs that still fails is left out. -/
def Dev.fillWord (d : Dev) (h k j : Nat) (need : Bool) (tr : ReadTry) : Dev :=
  match (d.half h).lines.find k with
  | none => d
  | some c =>
    let w := c.line * 4 + j
    let put (d : Dev) (c : CLine) : Dev :=
      let hf := d.half h
      d.setHalf h { hf with lines := hf.lines.put k c }
    let full := c.wValid j == fullMask
    if d.stored w then
      let d := (d.openRow (64 * w) none).inc (cMod 14)
      if full then d else put d (c.setWord j 0#512 fullMask (c.wDirty j) true)
    else if full then d.openRow (64 * w) none
    else if !need && d.failMask w .channel tr != 0#64 then (d.openRow (64 * w) none).inc (cMod 17)
    else
      let (d, g, p) := d.readWord w .channel tr
      put d (if p then c.setWord j 0#512 fullMask (c.wDirty j) true
        else c.setWord j (gMerge g (c.word j) (c.wValid j)) fullMask (c.wDirty j) (c.wPois j))

def tryAt (l : List ReadTry) (j : Nat) : ReadTry := l.getD j .good
def wtryAt (l : List WriteTry) (j : Nat) : WriteTry := l.getD j .good

/-- A wide-port access meets a claim: held until it ends, except a read with a word in an in-flight region (10 R328). -/
def Dev.claimHolds (d : Dev) (w : Nat) (read unst : Bool) : Bool := d.claimed w && !(read && unst)

/-- A read over the cache channel, of a line, meets a claim. -/
def Dev.fillHeld (d : Dev) (l : Nat) : Bool :=
  d.claimHolds (4 * l) true ((List.range 4).any (fun j => d.unstableAt (4 * l + j)))

/-- The fill of a line, or its write-back, is held by a claim; it counts once (10 R328, R349). -/
def Dev.holdLine (d : Dev) (h l : Nat) : Dev :=
  let hf := d.half h
  if hf.fills.any (fun f => f.line == l && !f.held) || hf.evicts.any (fun e => e.cl.line == l && !e.held) then
    (d.setHalf h { hf with fills := hf.fills.map (fun f => if f.line == l then { f with held := true } else f)
                           evicts := hf.evicts.map (fun e => if e.cl.line == l then { e with held := true } else e)
      }).inc (cPart (partOf (l * 256)) 0)
  else d

/-- The fill's data is applied, the joined reads return together, a mark drops the line, and the writes and
atomics that waited are applied in order of arrival (09 R297-R299). -/
def Dev.fillGo (d : Dev) (h l : Nat) (tries : List ReadTry) (flt : CacheFault) : Dev :=
  let d := if (d.half h).fills.any (fun f => f.line == l) then d.cacheFault h l flt else d
  let hf := d.half h
  match hf.fills.find? (fun f => f.line == l) with
  | none => d
  | some f =>
    -- its way was lost or its line dropped meanwhile: what waited arrives again
    if (hf.find l).isNone then
      let d := d.setHalf h { hf with fills := hf.fills.filter (fun x => x.line != l) }
      (f.waiters.foldl (fun d a => d.rearrive h a) d).unblock h
    else
    let d := (List.range 4).foldl (fun d j => d.fillWord h f.way j (f.need.getLsbD j) (tryAt tries j)) d
    let d := d.bump (cHalf h 6) 256
    let hf := d.half h
    let d := d.setHalf h ({ hf with fills := hf.fills.filter (fun x => x.line != l) }.touch f.way)
    let reads := f.waiters.takeWhile (fun a => a.kind == 0)
    let rest := f.waiters.dropWhile (fun a => a.kind == 0)
    let d := reads.foldl (fun d a => d.applyHit h a (f.dead == some a.x)) d
    let d := if 0 < f.joined then (d.inc (cHalf h 10)).bump (cHalf h 11) (256 * f.joined) else d
    let d := if reads.any (fun a => a.lu) && d.luOn then d.luDrop h l else d
    -- an atomic opened the entry: it is applied; the rest arrive again
    let d := rest.foldl (fun d a =>
      match (d.half h).find l with
      | some (_, c) =>
        if (d.half h).fills.any (fun x => x.line == l) then d.homeAccess h a
        else if a.kind != 0 && (a.kind == 1 || c.serves a) then d.applyHit h a false
        else d.homeAccess h a
      | none => d.homeAccess h a) d
    d.unblock h

/-- The fill's data arrives, unless a claim holds its read (09 R297, 10 R328). -/
def Dev.fillReturn (d : Dev) (h l : Nat) (tries : List ReadTry) (flt : CacheFault) : Dev :=
  if d.fillHeld l then d.holdLine h l else d.fillGo h l tries flt

/-- An open eviction entry issues its write-back (09 R295). -/
def Dev.evictIssue (d : Dev) (h l : Nat) : Dev :=
  let hf := d.half h
  d.setHalf h { hf with evicts := hf.evicts.map (fun e => if e.cl.line == l then { e with closed := true } else e) }

/-- The dirty words of a line are written to the bank, each by its DIRTY mask (09 R294). -/
def Dev.writeBack (d : Dev) (c : CLine) (tries : List WriteTry) : Dev :=
  (List.range 4).foldl (fun d j =>
    if c.wDirty j == 0#64 then d
    else d.writeWord (c.line * 4 + j) (c.word j) (c.wDirty j) (c.wPois j) (wtryAt tries j) 0 (some true)) d

/-- A line's write-back, whose outcome no operand of the command says (log 60). -/
def Dev.writeBackAny (d : Dev) (c : CLine) : Dev :=
  let (d, ts) := d.anyWrites 4
  d.writeBack c ts

def dirtyBytes (c : CLine) : Nat := ((List.range 256).filter (fun i => c.dirty.getLsbD i)).length

/-- A closed entry's write-back lands; its entry is freed and the waiting accesses arrive again (09 R295, R305). -/
def Dev.evictGo (d : Dev) (h l : Nat) (tries : List WriteTry) : Dev :=
  match (d.half h).evicts.find? (fun e => e.cl.line == l && e.closed) with
  | none => d
  | some e =>
    let d := (d.writeBack e.cl tries).bump (cHalf h 7) (dirtyBytes e.cl)
    let hf := d.half h
    let d := d.setHalf h { hf with evicts := hf.evicts.filter (fun x => x.cl.line != l) }
    let d := e.waiters.foldl (fun d a => d.rearrive h a) d
    d.unblock h

/-- A closed entry's write-back lands, unless a claim holds it (09 R295, 10 R328). -/
def Dev.evictLanded (d : Dev) (h l : Nat) (tries : List WriteTry) : Dev :=
  if (d.half h).evicts.any (fun e => e.cl.line == l && e.closed) && d.claimHolds (4 * l) false false then d.holdLine h l
  else d.evictGo h l tries

/-! ### Whole halves -/

/-- A half's lines of partition f are dropped; `wb`: their dirty words are written back first (09 R306). -/
def Dev.dropPart (d : Dev) (f : Nat) (wb : Bool) : Dev :=
  let h := d.home f
  let hf := d.half h
  let mine := (hf.lines.filter (fun e => partOf (e.2.line * 256) == f)).map (·.2)
  let ev := (hf.evicts.filter (fun e => partOf (e.cl.line * 256) == f)).map (·.cl)
  let n := mine.foldl (fun a c => a + dirtyBytes c) 0
  let d := if wb then ((ev ++ mine).foldl Dev.writeBackAny d).bump (cHalf h 7) ((ev.foldl (fun a c => a + dirtyBytes c) 0) + n)
    else d.bump (cHalf h 19) n
  let hf := d.half h
  let ws := if wb then (hf.evicts.filter (fun e => partOf (e.cl.line * 256) == f)).flatMap (·.waiters) else []
  let d := d.setHalf h { hf with lines := hf.lines.filter (fun e => partOf (e.2.line * 256) != f)
                                 evicts := if wb then hf.evicts.filter (fun e => partOf (e.cl.line * 256) != f) else hf.evicts }
  ws.foldl (fun d a => d.rearrive h a) d

/-- The lines of a half that its write-back covers, those in eviction entries first. -/
def Half.held (h : Half) : List CLine := (h.evicts.map (·.cl)) ++ (h.lines.map (·.2))

/-- Every dirty line of a half is written back (09 R306, 15 R496); `tries`: four outcomes for each line. -/
def Dev.flushHalf (d : Dev) (h : Nat) (tries : List WriteTry) : Dev :=
  let hf := d.half h
  let cs := hf.held
  let d := (((List.range cs.length).zip cs).foldl (fun d e => d.writeBack e.2 (tries.drop (4 * e.1))) d).bump (cHalf h 7)
    (cs.foldl (fun a c => a + dirtyBytes c) 0)
  d.setHalf h { d.half h with lines := [], evicts := [], blocked := hf.blocked ++ hf.evicts.flatMap (·.waiters) }

/-! ### Accesses that are whole and indivisible: entries in flight for the line complete, with free outcomes (log 12, 60) -/

/-- A line's fill entry, or its eviction entry, completes now; a claim that holds it is waited for (10 R328). -/
def Dev.fillNow (d : Dev) (h l : Nat) : Dev :=
  let d := if d.fillHeld l then d.holdLine h l else d
  let (d, ts) := d.anyReads 4
  let (d, f) := d.anyFault
  d.fillGo h l ts f

def Dev.evictNow (d : Dev) (h l : Nat) : Dev :=
  let d := if d.claimHolds (4 * l) false false then d.holdLine h l else d
  let (d, ts) := d.anyWrites 4
  (d.evictIssue h l).evictGo h l ts

def Dev.settle (d : Dev) (h l : Nat) : Nat → Dev
  | 0 => d
  | n + 1 =>
    let hf := d.half h
    if hf.fills.any (fun f => f.line == l) then (d.fillNow h l).settle h l n
    else if hf.evicts.any (fun e => e.cl.line == l) then (d.evictNow h l).settle h l n
    else if hf.blocked.any (fun a => a.w / 4 == l) then
      match hf.evicts.find? (fun e => sliceOf e.cl.line == sliceOf l), hf.fills.find? (fun f => setOf f.line == setOf l) with
      | some e, _ => (d.evictNow h e.cl.line).settle h l n
      | none, some f => (d.fillNow h f.line).settle h l n
      | none, none => d
    else d

/-- The entries on which piece 0 of a transfer waits complete. -/
def Dev.settleFor (d : Dev) (x h l : Nat) : Dev :=
  if ((d.xfer x).bind (fun e => e.gr.head?)).any (fun r => r.stage == 1) then d else d.settle h l 40

/-- The status and data of piece 0 of a transfer, which then ends. -/
def Dev.takeGr (d : Dev) (x : Nat) : Dev × Nat × Gran :=
  let r := (d.xfer x).bind (fun e => e.gr.head?)
  (d.endXfer x, match r with
    | some r => if r.stage == 1 then (r.status, r.data) else (12, 0#512)
    | none => (12, 0#512))

/-- An access goes over the cache path to its home half and is served there, whole (03 R84, 09 R290); a bridge or the arrays may
fail (log 60). -/
def Dev.homeWhole (d : Dev) (a : HAcc) : Dev :=
  let at0 := a.w * 64
  let h := d.home (partOf at0)
  let d := d.askDom (halfDom h)
  let (d, f) := d.anyFault
  let d := d.pathFault (d.path (d.place a.mid).1 (d.place a.mid).2 at0) f
  let st := d.targetStatus a.mid at0
  if st != 0 then (d.countAbsorb st at0).finishGr a.x a.i st 0#512
  else ((d.cacheFault h (a.w / 4) f).homeAccess h a).settleFor a.x h (a.w / 4)

/-! ### The stipes' accesses (09 R557) -/

/-- An access of a stipe, or of a gemma that reads a page for its seal, whole. -/
def Dev.stipeAcc (d : Dev) (a : HAcc) : Dev × Nat × Gran :=
  let id := d.nextX
  let x : Xfer := { id := id, mid := a.mid, kind := if a.kind == 0 then .sld else .sst, base := a.w * 64, n := 1, limit := 1, next := 1
                    gr := [{ i := 0 }] }
  (({ d with nextX := id + 1, xfers := d.xfers ++ [x] }).homeWhole { a with x := id, i := 0 }).takeGr id

/-- A stipe reads a 64-B word through its home half: status and data (09 R557, R301). -/
def Dev.stipeRead (d : Dev) (w : Nat) : Dev × Nat × Gran :=
  d.stipeAcc { x := 0, i := 0, mid := stipeMid, w := w, kind := 0, mask := fullMask }

/-- A stipe writes masked bytes of a word through its home half. -/
def Dev.stipeWrite (d : Dev) (w : Nat) (g : Gran) (m : BitVec 64) : Dev × Nat :=
  let (d, st, _) := d.stipeAcc { x := 0, i := 0, mid := stipeMid, w := w, kind := 1, mask := m, data := g }
  (d, st)

/-- Bytes written by a stipe from address a, a whole number of words within one 64-B word. -/
def Dev.stipeWords (d : Dev) (a : Nat) (ws : List Word) : Dev :=
  let o := a % 64 / 4
  let g := gOfWords (List.replicate o 0#32 ++ ws)
  (d.stipeWrite (a / 64) g (byteMask (4 * o) (4 * ws.length))).1

end Sys2Proof.Machine
end

