-- ==== Sys2Proof/Machine/Transfer.lean ====
section
/-! DEFINITION. The masters' accesses as transfers: issue with the window check, the pieces over the rhizoid and over the
cache path, and what a frond's and a gemma's completed pieces do (05 R148-R154, 08 R254, R262, 09 R296). -/

namespace Sys2Proof.Machine

/-- Address of piece i as the program named it (05 R148). -/
def Xfer.named (x : Xfer) (i : Nat) : Nat :=
  let a := ((x.base : Int) + (i / x.rowG : Nat) * x.stride + (i % x.rowG * 64 : Nat)).toNat
  match x.host with
  | some sw => if a < 2 ^ 40 then hostToLinear sw a else a
  | none => a

/-- Address of piece i, redirected to the lender in the spill part of a stash (07 R237). -/
def Xfer.addr (x : Xfer) (i : Nat) : Nat :=
  let a := x.named i
  match x.redir with
  | some (lo, hi, dst) => if lo ≤ a && a < hi then dst + (a - lo) else a
  | none => a

def XKind.isRead : XKind → Bool
  | .lds | .sld | .waitm | .copyRead | .gCrd | .gWaitm | .gLd | .portRead => true
  | _ => false

def XKind.isAtomic : XKind → Bool
  | .atom | .sig | .gAtom | .gSig | .portAtomic => true
  | _ => false

def XKind.acc (k : XKind) : AccK := if k.isRead then .read else if k.isAtomic then .atomic else .write

/-- The first piece whose line the window set refuses, if any (03 R89). -/
def Dev.firstRefused (d : Dev) (x : Xfer) : Option Nat :=
  (List.range x.n).find? (fun i => !d.allowedAt x.wset x.kind.acc (x.addr i))

/-- A master issues a transfer: the pieces before the first refused line are performed, and that line freezes the master
(03 R89, R90). Remote accesses are checked where they arrive (05 R149). -/
def Dev.issue (d : Dev) (x : Xfer) (ctx : Nat) : Dev :=
  let x := { x with id := d.nextX }
  let ref := if x.remote.isSome then none else d.firstRefused x
  let lim := ref.getD x.n
  let d := { d with nextX := d.nextX + 1 }
  let d := if lim == 0 then d else { d with xfers := d.xfers ++ [{ x with limit := lim }] }
  match ref with
  | some i => d.freeze x.mid x.kind.acc.code x.wset (x.addr i) ctx false
  | none => d

/-- Whether piece i goes over the frond's rhizoid (01 R21, 05 R149, R152): its own partition, no atomic or WAITM, and a
rhizoid that is not retired. -/
def Dev.viaRhizoid (d : Dev) (x : Xfer) (i : Nat) : Bool :=
  decide (x.mid < 0x100) && x.remote.isNone && partOf (x.addr i) == x.mid && (d.rhiz x.mid).mode != 2 &&
  !x.kind.isAtomic && x.kind != .waitm

/-- The word of a piece, and the bytes of it that the access touches. -/
def Xfer.word (x : Xfer) (i : Nat) : Nat := x.addr i / 64
def Xfer.maskOf (x : Xfer) (i : Nat) : BitVec 64 := x.masks.get i x.mask

/-- Data of a write or atomic piece: an STS or ATOM reads the operand store when the piece is performed
(05 R138); other kinds captured their data at issue. -/
def Dev.pieceData (d : Dev) (x : Xfer) (i : Nat) : Gran × Bool :=
  match x.kind with
  | .sts | .atom =>
    let fr := d.frond x.mid
    (fr.os.get (x.loc + i) 0#512, (fr.osP.find (x.loc + i)).isSome)
  | _ => (x.data.get i 0#512, x.pois.contains i)

/-- Pieces i - k and i + k, for the k up to 3 that lie in piece i's line without a gap: the pieces of one read of the line. -/
def Xfer.before (x : Xfer) (i : Nat) : List Nat :=
  ((List.range 3).map (fun k => i - 1 - k)).takeWhile (fun j => decide (j < i) && x.word j / 4 == x.word i / 4) |>.take i
def Xfer.after (x : Xfer) (i : Nat) : List Nat :=
  ((List.range 3).map (fun k => i + 1 + k)).takeWhile (fun j => decide (j < x.limit) && x.word j / 4 == x.word i / 4)

/-- The bytes of its line that the read of piece i covers with the pieces beside it. -/
def Xfer.lineBytes (x : Xfer) (i : Nat) : BitVec 256 :=
  (x.before i ++ i :: x.after i).foldl (fun m j =>
    m ||| BitVec.ofNat 256 ((x.maskOf j).toNat * 2 ^ (64 * (x.word j % 4)))) 0#256

/-- The home-half access of piece i. A read's mark falls due at the last piece in the line (09 R299). -/
def Dev.hacc (d : Dev) (x : Xfer) (i : Nat) : HAcc :=
  let (g, p) := d.pieceData x i
  let rd := x.kind.isRead
  let head := !rd || (x.before i).isEmpty
  { x := x.id, i := i, mid := x.mid, w := x.word i, kind := if rd then 0 else if x.kind.isAtomic then 2 else 1
    lu := x.lu && !(List.range (x.limit - i - 1)).any (fun k => x.word (i + 1 + k) / 4 == x.word i / 4)
    mask := x.maskOf i, data := g, pois := p && !rd, aop := x.aop, afmt := x.afmt
    bytes := if rd then x.lineBytes i else 0#256, head := head, counted := !head }

/-- An access of the frond to a granule with an outstanding atomic of its own is held (05 R152 rule 2). -/
def Dev.atomHeld (d : Dev) (x : Xfer) (i : Nat) : Bool :=
  d.xfers.any (fun y => y.mid == x.mid && y.order < x.order && y.kind.isAtomic && y.remote == x.remote &&
    (y.gr.any (fun g => y.word g.i == x.word i) || y.sent.any (fun s => y.word s.2 == x.word i) ||
      (List.range (y.limit - y.next)).any (fun k => y.word (y.next + k) == x.word i)))

/-- A stream of the same frond or gemma issued before this one on the same path still has requests to issue (05 R151, 10 R323);
a copy engine writes in the order of its pieces (02 R558). -/
def Dev.behind (d : Dev) (x : Xfer) (i : Nat) : Bool :=
  if 0x910 ≤ x.mid then
    -- a port's requests keep arrival order for each line (11 R376)
    d.xfers.any (fun y => y.mid == x.mid && y.order < x.order &&
      (List.range (y.limit - y.next)).any (fun k => y.word (y.next + k) / 4 == x.word i / 4))
  else if 0x900 ≤ x.mid then
    x.kind == .copyWrite && d.xfers.any (fun y => y.mid == x.mid && y.kind == .copyWrite && y.id < x.id && y.next < y.limit)
  else d.xfers.any (fun y => y.mid == x.mid && y.order < x.order && y.remote == x.remote &&
    (List.range (y.limit - y.next)).any (fun k => d.viaRhizoid y (y.next + k) == d.viaRhizoid x i))

/-- A copy engine holds up to 256 reads outstanding, each of one line at most (02 R558). -/
def Dev.readsFull (x : Xfer) : Bool :=
  x.kind == .copyRead && (let ls := (x.gr.map (fun g => x.word g.i / 4)).eraseDups
    decide (256 ≤ ls.length) && !ls.contains (x.word x.next / 4))

/-- SIG is performed only after every earlier write and atomic of the unit has landed (05 R152 rule 3). -/
def Dev.sigHeld (d : Dev) (x : Xfer) : Bool :=
  (x.kind == .sig || x.kind == .gSig) &&
  d.xfers.any (fun y => y.mid == x.mid && y.order < x.order && !y.kind.isRead)

/-- A signal of a master with a write that did not land is not performed, and ends the unit WRITE_FAILED (05 R154, R164). -/
def Dev.sigFails (d : Dev) (x : Xfer) : Bool :=
  (x.kind == .sig && (d.frond x.mid).wrFail != 0) || (x.kind == .gSig && (d.gemma (x.mid - 0x100)).wrFail != 0)

/-- The next piece of a transfer may be performed. -/
def Dev.mayPerform (d : Dev) (x : Xfer) : Bool :=
  decide (x.next < x.limit) && x.remote.isNone && !d.atomHeld x x.next && !d.behind x x.next &&
  !d.sigHeld x && !Dev.readsFull x

/-- Piece `next` starts: it is listed as performing. -/
def Dev.begin (d : Dev) (x : Nat) : Dev :=
  d.modXfer x (fun e => { e with gr := e.gr ++ [{ i := e.next }], next := e.next + 1, held := false })

/-- The rows of a stream beyond row r of piece i, at most n of them, in the order it comes to them. -/
def Xfer.rowsAhead (x : Xfer) : (n i r : Nat) → List Nat
  | 0, _, _ => []
  | n + 1, i, r =>
    match (List.range (x.limit - i)).find? (fun k => x.addr (i + k) / 2 ^ 13 != r) with
    | some k => x.addr (i + k) :: x.rowsAhead n (i + k) (x.addr (i + k) / 2 ^ 13)
    | none => []

/-- The rows of a stream are opened up to two ahead, where they lie in another subarray or bank than the rows before them
(08 R255). DESIGN CHOICE (log 70): two rows ahead, at each access. -/
def Dev.openAhead (d : Dev) (x : Xfer) (f : Nat) : Dev :=
  let place (a : Nat) : Nat × Nat := (bankOf a, a / 2 ^ 13 % 4)
  let a0 := x.addr x.next
  ((x.rowsAhead 2 x.next (a0 / 2 ^ 13)).foldl (fun (s : Dev × List (Nat × Nat) × Bool) a =>
    if s.2.2 || s.2.1.contains (place a) || partOf a != f then (s.1, s.2.1, true)
    else (s.1.openRow a (some f), place a :: s.2.1, false)) (d, [place a0], false)).1

def Dev.hold (d : Dev) (x : Xfer) (w : Nat) : Dev :=
  if x.held then d
  else (d.modXfer x.id (fun e => { e with held := true })).inc (cPart (partOf (w * 64)) 0)

/-- A change of direction of the rhizoid is counted (08 R285). -/
def Dev.turnRhz (d : Dev) (f : Nat) (wr : Bool) : Dev :=
  let r := d.rhiz f
  let d := d.setRhz f { r with lastWrite := some wr }
  if r.lastWrite == some (!wr) then d.inc (cFrd f 57) else d

/-- A marked direct read drops a clean line, after the last return of an open fill entry (09 R300). -/
def Dev.luDirect (d : Dev) (h l w : Nat) : Dev :=
  let hf := d.half h
  if hf.fills.any (fun f => f.line == l) then
    d.setHalf h { hf with fills := hf.fills.map (fun f => if f.line == l then
      { f with waiters := f.waiters ++ [{ x := 0, i := 0, mid := stipeMid, w := w, kind := 0, lu := true }] } else f) }
  else if (hf.find l).isSome then d.luDrop h l else d

/-- A direct access is performed at the home half, whose arrays may fail (09 R292, R296, log 60). -/
def Dev.redirected (d : Dev) (h : Nat) (a : HAcc) : Dev :=
  let (d, f) := d.anyFault
  (d.cacheFault h (a.w / 4) f).homeAccess h a

/-- A direct read of a word, with the line-state check of R296: performed directly or redirected to the home half. -/
def Dev.directRead (d : Dev) (a : HAcc) (port : RdPort) (tr : ReadTry) : Dev :=
  let h := d.home (partOf (a.w * 64))
  let l := a.w / 4
  let hf := d.half h
  let redirect := hf.evicts.any (fun e => e.cl.line == l) || (match hf.find l with
    | some (_, c) => c.dirtyish (a.w % 4)
    | none => false)
  if redirect then
    let d := d.inc (cHalf h 18)
    let d := if port == .gemma then d.inc (cGem (a.mid - 0x100) 4) else d
    d.redirected h a
  else
    let ghost := (hf.find l).isNone && (hf.ghost l).isSome
    let d := if ghost then (d.ghostHit h l).modXfer a.x (fun e => { e with deadLine := some l }) else d
    -- a gemma's own bank instruction is never UNSTABLE (10 R328)
    let own := a.mid == gemmaMid (gemmaOf (a.w * 64)) && port == .gemma
    let unst := d.unstableRead a && !own
    let (d, g, p) := d.readWord a.w port tr
    let d := d.serveRead a p unst (ghost || d.deadTail a) g
    if a.lu && d.luOn then d.luDirect h l a.w else d

/-- A direct write of a word, with the line-state check of R296 and the seal check of 10 R340. -/
def Dev.directWrite (d : Dev) (a : HAcc) (cc : Option Bool) (tr : WriteTry) : Dev :=
  let h := d.home (partOf (a.w * 64))
  let l := a.w / 4
  let j := a.w % 4
  let hf := d.half h
  let m := a.mask
  let redirect := hf.evicts.any (fun e => e.cl.line == l) || (match hf.find l with
    | some (_, c) => ((if c.wPois j then fullMask else c.wDirty j) &&& ~~~ m) != 0#64
    | none => false)
  if redirect then
    let d := d.inc (cHalf h 18)
    let d := if cc.isNone then d.inc (cGem (a.mid - 0x100) 4) else d
    d.redirected h a
  else
    let hf := hf.unghost l
    let hf := match hf.find l with
      | some (k, c) =>
        let c' := c.setWord j (c.word j) (c.wValid j &&& ~~~ m) (c.wDirty j &&& ~~~ m) false
        if c'.valid == 0#256 && !hf.fills.any (fun f => f.line == l) then { hf with lines := hf.lines.drop k }
        else { hf with lines := hf.lines.put k c' }
      | none => hf
    let d := (d.setHalf h hf).breakSeal (a.w * 64) a.mid
    let d := d.writeWord a.w a.data a.mask a.pois tr (d.xUnit a.x) cc
    d.finishGr a.x a.i 0 0#512

/-- RHIZOID_READ: the next piece of a read transfer of a frond (08 R254, 09 R296). -/
def Dev.rhizoidRead (d : Dev) (x : Xfer) (tr : ReadTry) : Dev :=
  if !(d.mayPerform x && d.viaRhizoid x x.next && x.kind.isRead) then d
  else
    let w := x.word x.next
    if d.claimHolds w true (d.unstableRead (d.hacc x x.next)) then d.hold x w
    else if d.partStatus x.mid != 0 then (d.begin x.id).finishGr x.id x.next (d.partStatus x.mid) 0#512
    else
      let a := d.hacc x x.next
      let d := ((d.begin x.id).turnRhz x.mid false).bump (cFrd x.mid 9) x.size
      (d.directRead a .rhizoid tr).openAhead x x.mid

/-- RHIZOID_WRITE: the next piece of a write transfer of a frond (08 R254, R262). -/
def Dev.rhizoidWrite (d : Dev) (x : Xfer) (tr : WriteTry) : Dev :=
  if !(d.mayPerform x && d.viaRhizoid x x.next && !x.kind.isRead) then d
  else
    let w := x.word x.next
    if d.claimHolds w false false then d.hold x w
    else if d.partStatus x.mid != 0 then (d.begin x.id).finishGr x.id x.next (d.partStatus x.mid) 0#512
    else
      let a := d.hacc x x.next
      let d := ((d.begin x.id).turnRhz x.mid true).bump (cFrd x.mid 10) x.size
      let d := d.markTouch x.unit (x.named x.next)
      (d.directWrite a (some false) tr).openAhead x x.mid

/-- Bytes over the cache path are counted for fronds (11, 12) and gemmas (3). -/
def Dev.countCache (d : Dev) (x : Xfer) : Dev :=
  if x.mid < 0x100 then d.bump (cFrd x.mid (if x.kind.isRead then 11 else 12)) x.size
  else if x.mid < 0x900 then d.bump (cGem (x.mid - 0x100) 3) x.size
  else d

/-- CACHE_READ, CACHE_WRITE, CACHE_ATOMIC: the next piece of a transfer over the cache path reaches its home half, or
completes with the status that keeps it from there (03 R77, R84, 09 R290). `want`: 0 read, 1 write, 2 atomic. -/
def Dev.cacheGo (d : Dev) (x : Xfer) (want : Nat) (flt : CacheFault) : Dev :=
  let k := if x.kind.isRead then 0 else if x.kind.isAtomic then 2 else 1
  if !(d.mayPerform x && !d.viaRhizoid x x.next && k == want) then d
  -- a copy engine issues piece by piece, and a refused line freezes it (02 R559, 03 R86)
  else if (x.kind == .copyRead || x.kind == .copyWrite) && !d.allowedAt x.wset x.kind.acc (x.addr x.next)
  then
    let d := d.freeze x.mid x.kind.acc.code x.wset (x.addr x.next) x.ctx false
    if x.kind == .copyWrite then d.endXfer x.id else d
  -- held until an AUTO half-layer is ON (13 R441)
  else if d.targetStatus x.mid (x.addr x.next) == 0 && d.halfHeld (d.home (partOf (x.addr x.next)))
  then d.askDom (halfDom (d.home (partOf (x.addr x.next))))
  else
    let i := x.next
    let w := x.word i
    let a := d.hacc x i
    let d := (d.begin x.id).countCache x
    let d := if k == 0 then d else d.markTouch x.unit (x.named i)
    let d := d.pathFault (d.path (d.place x.mid).1 (d.place x.mid).2 (w * 64)) flt
    let st := d.targetStatus x.mid (w * 64)
    if st != 0 then (d.countAbsorb st (w * 64)).finishGr x.id i st 0#512
    else
      let h := d.home (partOf (w * 64))
      (d.cacheFault h (w / 4) flt).homeAccess h a

end Sys2Proof.Machine
end

