-- ==== Sys2Proof/Machine/Units.lean ====
section
/-! DEFINITION. The endings of work units (02 R55, R64, R70, 05 R165, R166). -/

namespace Sys2Proof.Machine

/-- The causes in the order of 05 R166, the highest first. -/
def causeOrder : List Nat := [12, 13, 6, 7, 8, 9, 10, 11, 1, 2, 3]

/-- The ending that the journal reports. -/
def chooseStop (stops : List (Nat × Nat)) : Nat × Nat :=
  match causeOrder.findSome? (fun c => stops.find? (fun s => s.1 == c)) with
  | some s => s
  | none => (0, 0)

/-- STATE of an entry by its cause (02 R70): 0 COMPLETE, 1 PARTIAL, 3 FAULTED. -/
def stateOf (cause : Nat) : Nat :=
  if cause == 0 then 0 else if cause ≤ 3 || cause == 10 || cause == 11 then 1 else 3

/-- Writes of a unit's transfers still in flight count as issued, but not what a FILL has not begun (02 R64). -/
def Dev.touchInFlight (d : Dev) (k : Nat) : Dev :=
  (d.xfers.filter (fun x => x.unit == k && !x.kind.isRead && !(x.kind == .gFill && x.ip == 0x10000))).foldl (fun d x =>
    (List.range (x.limit - x.next)).foldl (fun d i => d.markTouch k (x.named (x.next + i))) d) d

/-- The gemmas a GEMMA unit selects, by global index. -/
def WUnit.gemList (u : WUnit) : List Nat :=
  ((List.range 8).filter (fun k => u.gemMask.getLsbD k)).map (8 * u.target + ·)

/-- The gemmas of a unit that ended hold no program and no region, and their SRAM stays valid (10 R314, R329). -/
def Dev.endGemmas (d : Dev) (u : WUnit) : Dev :=
  u.gemList.foldl (fun d g => d.modGemma g (fun x =>
    { x with running := false, fend := false, waiting := false, barrier := none, infl := [], valid := true, wrFail := 0 })) d

/-- A unit ends with a state, cause and AUX; its frond is free, and its regions written since the last commit point are
uncertain unless it ended COMPLETE (02 R64). -/
def Dev.endUnitAs (d : Dev) (k st cause aux : Nat) : Dev :=
  match d.unit k with
  | none => d
  | some u =>
    if u.phase == 3 then d
    else
      let d := if st == 1 || st == 3 then d.touchInFlight k else d
      let d := d.modUnit k (fun u =>
        let unc := st == 1 || st == 3
        { u with phase := 3, state := st, cause := cause, ended := d.now
                 aux := if cause == 8 || cause == 9 || cause == 10 then BitVec.ofNat 32 aux
                   else u.stashAux.getD (BitVec.ofNat 32 aux)
                 uncertain := if unc then u.touched else 0#8
                 uncertainOther := unc && u.touchedOther })
      let d := Dev.truncCopy { d with endedQ := d.endedQ ++ [k] } k
      if u.kind == 0 && u.phase != 0 then
        d.modFrond u.target (fun f => { f with unit := 0, cq := [], waiting := false, osValid := true
                                               late := [], wrFail := 0 })
      else if u.kind == 1 && u.phase != 0 then d.endGemmas u
      else d

/-- Units that have not started and depend on a unit of their plan that ended otherwise than COMPLETE end NOT_STARTED,
directly or through others (02 R55, R60). -/
def Dev.depFail (d : Dev) : Nat → Dev
  | 0 => d
  | n + 1 =>
    let bad (u : WUnit) : Bool := u.phase == 0 && d.units.any (fun v =>
      v.origin == u.origin && v.seq == u.seq && (v.uid == u.dep0 || v.uid == u.dep1) && v.phase == 3 && v.state != 0)
    match (d.units.filter bad).map (·.key) with
    | [] => d
    | ks => (ks.foldl (fun d k => d.endUnitAs k 2 4 0) d).depFail n

/-- A unit ends and its dependents with it where it is not COMPLETE. -/
def Dev.endUnit (d : Dev) (k st cause aux : Nat) : Dev :=
  let d := d.endUnitAs k st cause aux
  if st == 0 then d else d.depFail d.units.length

/-- A unit that stops has drained: no transfer of it is in flight, and no compute instruction runs (05 R165). -/
def Dev.drained (d : Dev) (u : WUnit) : Bool :=
  !d.xfers.any (fun x => x.unit == u.key) && (u.kind != 0 || !(d.frond u.target).cq.any (·.started))

end Sys2Proof.Machine
end

