-- ==== Sys2Proof/Machine/Frond.lean ====
section
/-! DEFINITION. The issue stage of a frond: fetch, checks, exceptions, scalar, branch, wait and memory instructions (05),
with the stash (07 R234-R241). -/

namespace Sys2Proof.Machine

/-! ### Encoding (05 R141-R144) -/

/-- Bits [lo + n - 1 : lo] of an instruction. -/
def fld (b : BitVec 128) (lo n : Nat) : Nat := bitsAt b.toNat lo n

def opOf (b : BitVec 128) : Nat := fld b 0 8

/-- A signed field. -/
def sfld (b : BitVec 128) (lo n : Nat) : Int :=
  let v := fld b lo n
  if 2 ^ (n - 1) ≤ v then (v : Int) - 2 ^ n else v

/-- The bits an opcode lists beyond the opcode: from and to (05 R143); none for an undefined opcode. -/
def opFields (op : Nat) : Option (Nat × Nat) :=
  match op with
  | 0x00 | 0x01 | 0x17 => some (8, 8)
  | 0x02 => some (8, 24)
  | 0x08 => some (8, 96)
  | 0x0A | 0x0B => some (8, 59)
  | 0x0C => some (8, 20)
  | 0x10 => some (8, 37)
  | 0x11 => some (8, 60)
  | 0x14 => some (8, 28)
  | 0x15 => some (8, 88)
  | 0x16 => some (8, 85)
  | 0x20 => some (8, 128)
  | 0x21 => some (9, 128)
  | 0x22 => some (8, 127)
  | 0x30 => some (8, 115)
  | 0x31 => some (8, 20)
  | 0x32 => some (8, 59)
  | 0x33 => some (8, 65)
  | 0x34 => some (8, 42)
  | 0x38 => some (8, 71)
  | 0x40 => some (8, 123)
  | 0x41 => some (8, 49)
  | 0x42 => some (8, 46)
  | 0x48 => some (8, 53)
  | _ => none

/-- No reserved bit is set. -/
def bitsClean (b : BitVec 128) : Bool :=
  match opFields (opOf b) with
  | some (lo, hi) => fld b 8 (lo - 8) == 0 && b.toNat / 2 ^ hi == 0
  | none => false

/-- A count field in which 0 encodes the largest value. -/
def cnt (v m : Nat) : Nat := if v == 0 then m else v

/-! ### Scalar registers (05 R134, R170) -/

def Frond.r (f : Frond) (n : Nat) : DWord := if n == 0 then 0#64 else f.sreg.get n 0#64
def Frond.pois (f : Frond) (n : Nat) : Bool := n != 0 && (f.sP.find n).isSome
/-- A write of a register with its poison bit; s0 discards it. -/
def Frond.setR (f : Frond) (n : Nat) (v : DWord) (p : Bool) : Frond :=
  if n == 0 then f else { f with sreg := f.sreg.put n v, sP := if p then f.sP.put n () else f.sP.drop n }

def Frond.flag (f : Frond) (n : Nat) : Nat := f.flags.get n 0

/-! ### Exceptions and endings (05 R164-R170) -/

/-- A program exception of the instruction issued as number `ord` ends the unit FAULTED after its drain, with an error record;
of several, the one whose instruction is earliest in program order is reported (05 R169). -/
def Dev.frondExcAt (d : Dev) (f code ip st ord : Nat) : Dev :=
  let k := (d.frond f).unit
  let aux := code + ip * 2 ^ 8 + st * 2 ^ 22
  let first := !(d.unit k).any (fun u => u.stops.any (fun s => s.1 == 8) && decide (u.excAt ≤ ord))
  let d := (d.inc (cFrd f (14 + code))).raise (d.stk f)
    { cls := 0, kind := 1, src := f, code := 0x0301, detail := aux, unit := if first then k else 0 }
  let d := if first then d.modUnit k (fun u => { u with excAt := ord, stops := u.stops.filter (fun s => s.1 != 8) }) else d
  d.stopUnit k 8 aux

/-- An exception of the instruction at issue. -/
def Dev.frondExc (d : Dev) (f code ip st : Nat) : Dev := d.frondExcAt f code ip st (d.frond f).order

/-- POISON_CONTROL (05 R170). -/
def Dev.frondPoison (d : Dev) (f : Nat) : Dev :=
  d.stopUnit (d.frond f).unit 9 ((d.frond f).pc * 2 ^ 8)

/-- An exception found when its instruction completes. Once issue has stopped, one of a draining stream only counts
(05 R166). -/
def Dev.frondLate (d : Dev) (f code ip st ord : Nat) (stream : Bool) : Dev :=
  match d.unit (d.frond f).unit with
  | some u =>
    if u.phase == 1 || (u.phase == 2 && !stream) then d.frondExcAt f code ip st ord else d.inc (cFrd f (14 + code))
  | none => d.inc (cFrd f (14 + code))

/-- A local flag gains 1; beyond 65,535 raises FLAG_OVF (05 R139). -/
def Dev.addFlag (d : Dev) (f n ip ord : Nat) (stream : Bool) : Dev :=
  let v := (d.frond f).flag n
  if 65535 ≤ v then d.frondLate f 9 ip 0 ord stream
  else d.modFrond f (fun x => { x with flags := x.flags.put n (v + 1) })

/-! ### Issue -/

/-- The loop stack and the next index after the instruction at pc (05 R147). -/
def advLoop : List LoopLv → Nat → List LoopLv × Nat
  | [], pc => ([], pc + 1)
  | l :: ls, pc =>
    if l.last == pc then
      if 1 < l.left then ({ l with left := l.left - 1 } :: ls, l.start) else advLoop ls pc
    else (l :: ls, pc + 1)

/-- The instruction at pc has issued and the next follows; passing the last one raises FETCH_END (05 R147). -/
def Dev.advance (d : Dev) (f : Nat) : Dev :=
  let x := d.frond f
  let (ls, pc') := advLoop x.loops x.pc
  let d := (d.inc (cFrd f 5)).modFrond f (fun x => { x with loops := ls, ip := x.pc, pc := pc', waiting := false, order := x.order + 1 })
  if x.len ≤ pc' then d.frondExcAt f 10 x.pc 0 x.order else d

/-- A wait holds issue (05 R171 RUN = WAITING), for a free number of cycles (05 R173). -/
def Dev.waitHere (d : Dev) (f : Nat) : Dev := (d.bumpFree (cFrd f 6)).modFrond f (fun x => { x with waiting := true })

/-- A register with a load outstanding stalls its readers (05 R167). -/
def Dev.pendingReg (d : Dev) (f n : Nat) : Bool :=
  n != 0 && d.xfers.any (fun x => x.mid == f && x.kind == .sld && x.loc == n)

/-- The unit a frond runs and issues for. -/
def Dev.issuing (d : Dev) (f : Nat) : Option WUnit :=
  match d.unit (d.frond f).unit with
  | some u => if u.phase == 1 && u.kind == 0 && u.target == f && !d.isFrozen f then some u else none
  | none => none

/-- What an instruction's checks give: an exception by code, POISON_CONTROL, a stall, or none (05 R169). -/
inductive Chk where
  | ok
  | exc (code : Nat)
  | poison
  | stall
  deriving DecidableEq, Repr

/-- The first group of checks: the lowest of the codes that apply; then poison; then the second group (05 R169). A
register still being loaded stalls issue before its poison or value is known. -/
def checks (codes : List (Bool × Nat)) (stall : Bool) (poison : Bool) (late : List (Bool × Nat)) : Chk :=
  let low (l : List (Bool × Nat)) : Option Nat := (l.filter (·.1)).foldl (fun a e => match a with
    | none => some e.2
    | some c => some (min c e.2)) none
  match low codes with
  | some c => .exc c
  | none => if stall then .stall else if poison then .poison else match low late with
    | some c => .exc c
    | none => .ok

/-- The issue stage meets the instruction at pc for a command of its mnemonic: a poisoned or undefined encoding ends the
unit; an instruction of another mnemonic leaves the frond as it is (log 1). -/
def Dev.frondGo (d : Dev) (f : Nat) (mine : BitVec 128 → Bool) (body : Dev → WUnit → BitVec 128 → Dev) : Dev :=
  match d.issuing f with
  | none => d
  | some u =>
    let x := d.frond f
    if x.len ≤ x.pc then d
    else if (x.storeP.find x.pc).isSome then d.frondPoison f
    else
      let b := x.store.get x.pc 0#128
      if (opFields (opOf b)).isNone then d.frondExc f 1 x.pc 0
      else if !mine b then d
      else if !bitsClean b then d.frondExc f 1 x.pc 0
      else body d u b

/-- The outcome of the checks, and the instruction where they pass. -/
def Dev.checked (d : Dev) (f : Nat) (c : Chk) (go : Dev → Dev) : Dev :=
  match c with
  | .ok => go d
  | .exc code => d.frondExc f code (d.frond f).pc 0
  | .poison => d.frondPoison f
  | .stall => d

def hasOp (n : Nat) (b : BitVec 128) : Bool := opOf b == n

/-! ### Scalar and control instructions -/

/-- SALU's operation (05 R145). -/
def saluOp (op : Nat) (a x : DWord) : DWord :=
  let sh := x.toNat % 64
  let b (c : Bool) : DWord := if c then 1#64 else 0#64
  match op with
  | 0 => a + x
  | 1 => a - x
  | 2 => a * x
  | 3 => a &&& x
  | 4 => a ||| x
  | 5 => a ^^^ x
  | 6 => a <<< sh
  | 7 => a >>> sh
  | 8 => a.sshiftRight sh
  | 9 => if a.slt x then a else x
  | 10 => if a.slt x then x else a
  | 11 => if a.ult x then a else x
  | 12 => if a.ult x then x else a
  | 13 => b (a == x)
  | 14 => b (a.slt x)
  | 15 => b (a.ult x)
  | _ => b (!(a.slt x))

def Dev.doSalu (d : Dev) (f : Nat) (b : BitVec 128) : Dev :=
  let x := d.frond f
  let imm := fld b 8 1 == 1
  let op := fld b 9 5
  let rd := fld b 14 6
  let ra := fld b 20 6
  let rb := fld b 26 6
  let stall := d.pendingReg f ra || d.pendingReg f rd || (!imm && d.pendingReg f rb)
  d.checked f (checks [(decide (17 ≤ op), 1)] stall false []) (fun d =>
    let v := saluOp op (x.r ra) (if imm then BitVec.ofNat 64 (fld b 32 64) else x.r rb)
    (d.modFrond f (fun x => x.setR rd v (x.pois ra || (!imm && x.pois rb)))).advance f)

/-- The system value of a selector (05 R146); SEL 0 counts cycles, which the model leaves free (log 14). -/
def Dev.sysValue (d : Dev) (f : Nat) (u : WUnit) (sel t : Nat) : Nat :=
  let x := d.frond f
  match sel with
  | 0 => (Config.freeValue d.free).toNat
  | 1 => t - d.lastTick
  | 2 => d.frame
  | 3 => u.carried
  | 4 => x.lastCommit
  | 5 => x.sticky.toNat
  | n => if n ≤ 9 then (match x.loops[n - 6]? with
      | some l => l.left
      | none => 0)
    else x.flag (n - 10)

def Dev.doSrd (d : Dev) (f t : Nat) (u : WUnit) (b : BitVec 128) : Dev :=
  let rd := fld b 8 6
  let sel := fld b 14 6
  d.checked f (checks [(decide (26 ≤ sel), 1)] (d.pendingReg f rd) false []) (fun d =>
    let v := d.sysValue f u sel (max t d.now)
    let d := { d with free := if sel == 0 then d.free + 1 else d.free, now := max d.now t }
    (d.modFrond f (fun x => x.setR rd (BitVec.ofNat 64 v) false)).advance f)

def brCond (c : Nat) (a b : DWord) : Bool :=
  match c with
  | 0 => true
  | 1 => a == b
  | 2 => a != b
  | 3 => a.slt b
  | 4 => !(a.slt b)
  | 5 => a.ult b
  | _ => !(a.ult b)

/-- BR: a taken branch pops the levels whose body it leaves (05 R147). -/
def Dev.doBr (d : Dev) (f : Nat) (b : BitVec 128) : Dev :=
  let x := d.frond f
  let c := fld b 8 3
  let ra := fld b 11 6
  let rb := fld b 17 6
  let tgt := fld b 23 14
  d.checked f (checks [(c == 7, 1), (decide (x.len ≤ tgt), 7)] (d.pendingReg f ra || d.pendingReg f rb)
      (x.pois ra || x.pois rb) []) (fun d =>
    if brCond c (x.r ra) (x.r rb) then
      (d.inc (cFrd f 5)).modFrond f (fun x =>
        { x with loops := x.loops.filter (fun l => decide (l.start ≤ tgt) && decide (tgt ≤ l.last))
                 ip := x.pc, pc := tgt, waiting := false, order := x.order + 1 })
    else d.advance f)

/-- LOOP (05 R147). -/
def Dev.doLoop (d : Dev) (f : Nat) (b : BitVec 128) : Dev :=
  let x := d.frond f
  let rc := fld b 8 6
  let n := if rc == 0 then fld b 14 32 else (x.r rc).toNat
  let last := fld b 46 14
  d.checked f (checks [(decide (last < x.pc + 1) || decide (x.len ≤ last), 7), (decide (4 ≤ x.loops.length), 8)]
      (d.pendingReg f rc) (x.pois rc) []) (fun d =>
    if n == 0 then
      let (ls, pc') := advLoop x.loops last
      let d := (d.inc (cFrd f 5)).modFrond f (fun x => { x with loops := ls, ip := x.pc, pc := pc', waiting := false, order := x.order + 1 })
      if x.len ≤ pc' then d.frondExcAt f 10 (x.len - 1) 0 x.order else d
    else (d.inc (cFrd f 5)).modFrond f (fun x =>
      { x with loops := { start := x.pc + 1, last := last, left := n } :: x.loops, ip := x.pc, pc := x.pc + 1
               waiting := false, order := x.order + 1 }))

def Dev.doWaitf (d : Dev) (f : Nat) (b : BitVec 128) : Dev :=
  let n := fld b 12 16
  let fl := fld b 8 4
  if n ≤ (d.frond f).flag fl then
    (d.modFrond f (fun x => { x with flags := x.flags.put fl (x.flag fl - n) })).advance f
  else d.waitHere f

/-- Every earlier access of the frond has completed. -/
def Dev.accessesDone (d : Dev) (f : Nat) : Bool := !d.xfers.any (fun x => x.mid == f)

def Dev.doFence (d : Dev) (f : Nat) : Dev := if d.accessesDone f then d.advance f else d.waitHere f

/-- A commit point passes, or a write that did not land ends the unit WRITE_FAILED (02 R62, R65, 05 R164). -/
def Dev.doCommit (d : Dev) (f : Nat) (u : WUnit) (b : BitVec 128) : Dev :=
  let id := fld b 8 16
  d.checked f (checks [(id == 0xFFFF, 1)] false false []) (fun d =>
    let x := d.frond f
    if !x.cq.isEmpty || !d.accessesDone f then d.waitHere f
    else if x.wrFail != 0 then d.stopUnit u.key 7 0
    else
      let d := d.modFrond f (fun x => { x with lastCommit := id })
      let d := d.modUnit u.key (fun u => { u with lastCommit := id, touched := 0#8, touchedOther := false })
      d.advance f)

/-- FEND: the unit ends COMPLETE once everything earlier has ended, or WRITE_FAILED (05 R164). -/
def Dev.doFend (d : Dev) (f : Nat) (u : WUnit) : Dev :=
  let x := d.frond f
  if !x.cq.isEmpty || !d.accessesDone f || x.att.running then d.waitHere f
  else if x.wrFail != 0 then d.stopUnit u.key 7 0
  else
    let d := (d.inc (cFrd f 5)).modFrond f (fun x => { x with ip := x.pc })
    d.endUnit u.key 0 0 0

/-! ### The stash (07) -/

/-- STH_STATUS.CFG_ERR of the values in force (07 R245). -/
def Dev.sthErr (d : Dev) (f : Nat) : Bool :=
  let base := d.inF (0x05000400 + 4 * f)
  let size := bf (d.inF (0x05000800 + 4 * f)) 11 0
  size == 0 || decide (3072 < size) || decide (bf base 28 16 < size) || decide (4096 < bf base 11 0 + bf base 28 16)

/-- The stash of a frond is enabled (07 R235). -/
def Dev.sthOn (d : Dev) (f : Nat) : Bool := (d.inF (0x05000000 + 4 * f)).getLsbD 0 && !d.sthErr f

def mib : Nat := 2 ^ 20

/-- The window's first byte, local length and whole length. -/
def Dev.sthWin (d : Dev) (f : Nat) : Nat × Nat × Nat :=
  let base := d.inF (0x05000400 + 4 * f)
  (f * 2 ^ 32 + bf base 11 0 * mib, bf (d.inF (0x05000800 + 4 * f)) 11 0 * mib, bf base 28 16 * mib)

/-- The lend area of a frond: base and bytes (07 R246). -/
def Dev.lendOf (d : Dev) (l : Nat) : Nat × Nat :=
  let w := d.inF (0x05000C00 + 4 * l)
  let b := bf w 11 0
  let n := bf w 28 16
  (l * 2 ^ 32 + b * mib, if 4096 < b + n then 0 else n * mib)

/-- The header granule (07 R236). -/
def sthHeader (state commit switch : Nat) : Gran :=
  gOfWords [pack [(state, 0), (commit, 16)], BitVec.ofNat 32 switch]

/-- The module writes the stash header of a frond through the frond's own path. -/
def Dev.writeSthHeader (d : Dev) (f : Nat) (u : WUnit) (state switch : Nat) : Dev :=
  let (w0, _, _) := d.sthWin f
  d.issue { id := 0, mid := f, kind := .stash, base := w0, n := 1, limit := 1, wset := u.wset, unit := u.key
            data := [(0, sthHeader state (d.frond f).lastCommit switch)], order := (d.frond f).order
            ip := (d.frond f).pc } ((d.frond f).pc * 16)

/-- AUX of R240. -/
def sthAux (commit off kind : Nat) : Word := pack [(commit, 0), (off / mib % 4096, 16), (kind, 28)]

/-- What the stash does with a stream: its redirect, or that it is skipped or stopped. -/
inductive StashDo where
  | plain
  | redirect (lo hi dst first : Nat)
  | skip (off : Nat)
  | full (off kind : Nat)
  deriving DecidableEq, Repr

/-- The policy for granules at the given addresses (07 R235, R237-R239). -/
def Dev.stashDo (d : Dev) (f : Nat) (u : WUnit) (addrs : List Nat) : StashDo :=
  if !d.sthOn f then .plain
  else
    let (w0, size, win) := d.sthWin f
    let spill := addrs.filter (fun a => w0 + size ≤ a && a < w0 + win)
    match spill with
    | [] => .plain
    | a0 :: _ =>
      let low := (spill.foldl min a0) - w0
      let lowAll := ((addrs.filter (fun a => w0 ≤ a && a < w0 + win)).foldl min a0) - w0
      if u.stash == 1 then .skip lowAll
      else if u.stash == 2 then .full lowAll 2
      else
        let (lb, ln) := d.lendOf u.lender
        let full := spill.any (fun a => ln ≤ a - w0 - size) || d.isRetired u.lender || u.lender == f || ln == 0
        if full then .full lowAll 3 else .redirect (w0 + size) (w0 + win) lb low

/-- STASH_FULL stops the unit (07 R239, R240). -/
def Dev.stashFull (d : Dev) (f : Nat) (u : WUnit) (off kind : Nat) : Dev :=
  let aux := sthAux (d.frond f).lastCommit off kind
  let d := d.modFrond f (fun x => { x with sthState := 3, sthSwitch := off / mib % 4096 })
  let d := d.modUnit u.key (fun u => { u with stashAux := some aux })
  (d.inc (cFrd f 54)).stopUnit u.key 11 aux.toNat

/-- The first skipped stream or item of a unit switches (07 R238); streams that are skipped are counted (07 R248). -/
def Dev.stashSwitch (d : Dev) (f : Nat) (u : WUnit) (off : Nat) (stream : Bool) : Dev :=
  let d := if stream then d.inc (cFrd f 52) else d
  if (d.frond f).sthState == 2 then d
  else
    let aux := sthAux (d.frond f).lastCommit off 1
    let d := (d.writeSthHeader f u 2 off).inc (cFrd f 53)
    let d := d.modFrond f (fun x => { x with sthState := 2, sthSwitch := off / mib % 4096 })
    d.modUnit u.key (fun u => { u with stashAux := some aux })

/-- STH_STATUS.HIGH and the stash byte counters, for a granule of a stash access that was written or read at the address its
program named (07 R247, R248). -/
def Dev.stashCount (d : Dev) (f : Nat) (wr : Bool) (a : Nat) : Dev :=
  let (w0, size, win) := d.sthWin f
  if a < w0 || w0 + win ≤ a then d
  else
    let spill := decide (w0 + size ≤ a)
    if wr then
      (d.bump (cFrd f (if spill then 50 else 49)) 64).modFrond f
        (fun x => { x with sthHigh := min 4095 (max x.sthHigh ((a - w0 + 64 + mib - 1) / mib)) })
    else if spill then d.bump (cFrd f 51) 64 else d

/-! ### Memory instructions (05 R148-R154) -/

/-- Common fields of an access: base register, offset, module register. -/
def Dev.addrChk (d : Dev) (f sa mr : Nat) (remote : Bool) : Bool × Bool :=
  let x := d.frond f
  (d.pendingReg f sa || (remote && d.pendingReg f mr), x.pois sa || (remote && x.pois mr))

/-- The module a REMOTE access goes to; none for the module's own ID (05 R149). -/
def Dev.remoteOf (d : Dev) (f mr : Nat) (remote : Bool) : Option Nat :=
  let m := ((d.frond f).r mr).toNat % 4096
  if remote && m != bf (d.reg 0) 11 0 then some m else none

def Dev.mrBad (d : Dev) (f mr : Nat) (remote : Bool) : Bool := remote && decide (4095 < ((d.frond f).r mr).toNat)

/-- Whether the rows of a stream leave the address space. -/
def rowsOut (base : Int) (rowG rows : Nat) (stride : Int) : Bool :=
  let last := base + (rows - 1 : Nat) * stride
  let lo := min base last
  let hi := max base last + (rowG * 64 : Nat)
  decide (lo < 0) || decide ((2 ^ 40 : Int) < hi)

/-- Streams outstanding in the stream queue (05 R136). -/
def Dev.streamsOut (d : Dev) (f : Nat) : Nat :=
  (d.xfers.filter (fun x => x.mid == f && (x.kind == .lds || x.kind == .sts || x.kind == .atom || x.kind == .sig))).length

/-- LDS, STS and ATOM: a stream of ROWS rows of ROWG granules. -/
def Dev.doStream (d : Dev) (f : Nat) (u : WUnit) (kind : XKind) (sa osa rowG rows : Nat) (stride off : Int) (mr : Nat)
    (remote lu : Bool) (fe : Option Nat) (aop afmt : Nat) : Dev :=
  let x := d.frond f
  let base : Int := (x.r sa).toNat + off * 64
  let n := rowG * rows
  let (st, p) := d.addrChk f sa mr remote
  let c := checks [(lu && remote, 1), (kind == .atom && aop == 3, 1), (kind == .atom && afmt == 3, 2),
      (decide (393216 < osa + n), 3)] st p
    [(base % 64 != 0 || stride % 64 != 0, 5), (rowsOut base rowG rows stride || d.mrBad f mr remote, 6)]
  d.checked f c (fun d =>
    -- a full stream queue stalls issue (05 R136, R173)
    if 16 ≤ d.streamsOut f then d.bumpFree (cFrd f 8)
    else
      let sth := kind != .atom && !remote && d.sthOn f
      let xf : Xfer := { id := 0, mid := f, kind := kind, base := base.toNat, n := n, rowG := rowG, stride := stride
                         limit := n, loc := osa, lu := lu, aop := aop, afmt := afmt, flag := fe, ip := x.pc, sth := sth
                         order := x.order, remote := d.remoteOf f mr remote, wset := u.wset, unit := u.key }
      let addrs := if sth then (List.range n).map xf.named else []
      match d.stashDo f u addrs with
      | .plain => (d.advance f).issue xf (x.pc * 16)
      | .redirect lo hi dst first =>
        let d := if u.stashSpilled then d
          else (d.writeSthHeader f u 1 first).modFrond f (fun x => { x with sthState := 1 })
        let d := d.modUnit u.key (fun u => { u with stashSpilled := true })
        (d.advance f).issue { xf with redir := some (lo, hi, dst) } (x.pc * 16)
      | .skip o =>
        let d := (d.stashSwitch f u o true).advance f
        match fe with
        | some n => d.addFlag f n x.pc x.order true
        | none => d
      | .full o k => d.stashFull f u o k)

def feOf (fe flag : Nat) : Option Nat := if fe == 1 then some flag else none

def Dev.doLds (d : Dev) (f : Nat) (u : WUnit) (b : BitVec 128) : Dev :=
  d.doStream f u .lds (fld b 14 6) (fld b 20 19) (cnt (fld b 39 10) 1024) (cnt (fld b 49 16) 65536) (sfld b 65 32)
    (sfld b 97 24) (fld b 121 6) (fld b 127 1 == 1) (fld b 8 1 == 1) (feOf (fld b 9 1) (fld b 10 4)) 0 0

def Dev.doSts (d : Dev) (f : Nat) (u : WUnit) (b : BitVec 128) : Dev :=
  d.doStream f u .sts (fld b 14 6) (fld b 20 19) (cnt (fld b 39 10) 1024) (cnt (fld b 49 16) 65536) (sfld b 65 32)
    (sfld b 97 24) (fld b 121 6) (fld b 127 1 == 1) false (feOf (fld b 9 1) (fld b 10 4)) 0 0

def Dev.doAtom (d : Dev) (f : Nat) (u : WUnit) (b : BitVec 128) : Dev :=
  d.doStream f u .atom (fld b 17 6) (fld b 23 19) (cnt (fld b 42 10) 1024) (cnt (fld b 52 16) 65536) (sfld b 68 32)
    (sfld b 100 20) (fld b 120 6) (fld b 126 1 == 1) false (feOf (fld b 12 1) (fld b 13 4)) (fld b 8 2) (fld b 10 2)

/-- A small access of one granule: SLD, SST, SIG, WAITM. `al`: bytes and alignment. -/
def Dev.doSmall (d : Dev) (f : Nat) (u : WUnit) (kind : XKind) (al sa mr : Nat) (off : Int) (remote : Bool)
    (regs : List Nat) (bad : Bool) (loc : Nat) (data : DWord) (pois adv : Bool) : Dev :=
  let x := d.frond f
  let base : Int := (x.r sa).toNat + off
  let (st, p) := d.addrChk f sa mr remote
  let c := checks [(bad, 1)] (st || regs.any (d.pendingReg f)) p
    [(base % (al : Int) != 0, 5), (decide (base < 0) || decide ((2 ^ 40 : Int) ≤ base) || d.mrBad f mr remote, 6)]
  d.checked f c (fun d =>
    -- a SIG that waits on a write that did not land is not performed (05 R154)
    if kind == .sig && x.wrFail != 0 then d.stopUnit u.key 7 0
    else if kind == .sig && 16 ≤ d.streamsOut f then d.bumpFree (cFrd f 8)
    else
      let a := base.toNat
      let o := a % 64
      let xf : Xfer := { id := 0, mid := f, kind := kind, base := a, n := 1, limit := 1, size := al, loc := loc
                         mask := byteMask o al, data := [(0, BitVec.ofNat 512 (data.toNat * 2 ^ (8 * o)))]
                         pois := if pois then [0] else [], afmt := 2, ip := x.pc, order := x.order
                         remote := d.remoteOf f mr remote, wset := u.wset, unit := u.key }
      (if adv then d.advance f else d.waitHere f).issue xf (x.pc * 16))

def Dev.doSld (d : Dev) (f : Nat) (u : WUnit) (b : BitVec 128) : Dev :=
  d.doSmall f u .sld 8 (fld b 14 6) (fld b 52 6) (sfld b 20 32) (fld b 58 1 == 1) [fld b 8 6] false (fld b 8 6) 0#64 false true

def Dev.doSst (d : Dev) (f : Nat) (u : WUnit) (b : BitVec 128) : Dev :=
  let rs := fld b 8 6
  let x := d.frond f
  d.doSmall f u .sst 8 (fld b 14 6) (fld b 52 6) (sfld b 20 32) (fld b 58 1 == 1) [rs] false 0 (x.r rs) (x.pois rs) true

def Dev.doSig (d : Dev) (f : Nat) (u : WUnit) (b : BitVec 128) : Dev :=
  d.doSmall f u .sig 4 (fld b 8 6) (fld b 78 6) (sfld b 14 32) (fld b 84 1 == 1) [] false 0
    (BitVec.ofNat 64 (fld b 46 32)) false true

/-- WAITM issues its first read; issue stays there until the condition holds (05 R152 rule 4). -/
def Dev.doWaitm (d : Dev) (f : Nat) (u : WUnit) (b : BitVec 128) : Dev :=
  if d.xfers.any (fun x => x.mid == f && x.kind == .waitm) then d.waitHere f
  else d.doSmall f u .waitm 4 (fld b 8 6) (fld b 81 6) (sfld b 14 32) (fld b 87 1 == 1) []
    (decide (6 ≤ fld b 46 3)) 0 0#64 false false

/-- WAITM's condition (05 R152): word against VAL. -/
def waitmCond (c : Nat) (w v : Word) : Bool :=
  match c with
  | 0 => w == v
  | 1 => w != v
  | 2 => !(w.ult v)
  | 3 => w.ult v
  | 4 => !(w.slt v)
  | _ => w.slt v

/-- WAITM_POLL: the interval has expired, and the word is read again. -/
def Dev.waitmPoll (d : Dev) (f : Nat) : Dev :=
  match d.issuing f with
  | none => d
  | some _ => match d.xfers.find? (fun x => x.mid == f && x.kind == .waitm && x.next == 1 && x.gr.isEmpty && x.sent.isEmpty) with
    | some x => d.modXfer x.id (fun e => { e with next := 0 })
    | none => d

/-! ### Completion of a frond's accesses (05 R139, R154) -/

/-- A granule of the operand store is written, with its poison bit. -/
def Frond.setOs (f : Frond) (g : Nat) (v : Gran) (p : Bool) : Frond :=
  { f with os := f.os.put g v, osP := if p then f.osP.put g () else f.osP.drop g }

/-- The access-sticky bits and the journal's bits of a read's status (05 R154, 02 R68). -/
def Dev.frondSticky (d : Dev) (f k st : Nat) : Dev :=
  let m : BitVec 3 := if st == 1 then 1#3 else if st == 2 then 2#3 else if st == 3 then 4#3 else 0#3
  (d.modFrond f (fun x => { x with sticky := x.sticky ||| m })).markSticky k st

/-- A read piece of a frond is delivered. -/
def Dev.frondDeliver (d : Dev) (x : Xfer) (g : XGr) : Dev :=
  let f := x.mid
  let fail := decide (4 ≤ g.status)
  let p := g.status == 1
  let d := d.modXfer x.id (fun e => { e with gr := e.gr.filter (fun y => y.i != g.i), done := e.done + 1 })
  let d := d.frondSticky f x.unit g.status
  let d := if fail then d.frondLate f 11 x.ip g.status x.order (x.kind == .lds)
    else if x.sth then d.stashCount f false (x.named g.i) else d
  let v := if fail then 0#512 else g.data
  match x.kind with
  | .lds => d.modFrond f (fun y => y.setOs (x.loc + g.i) v p)
  | .sld =>
    let w : DWord := BitVec.ofNat 64 (bitsAt v.toNat (8 * (x.named 0 % 64)) 64)
    (d.modFrond f (fun y => y.setR x.loc w p)).endXfer x.id
  | _ =>
    -- WAITM
    let w : Word := BitVec.ofNat 32 (bitsAt v.toNat (8 * (x.named 0 % 64)) 32)
    let b := (d.frond f).store.get x.ip 0#128
    if (d.issuing f).isNone || fail then d.endXfer x.id
    else if p then (d.endXfer x.id).frondPoison f
    else if waitmCond (fld b 46 3) w (BitVec.ofNat 32 (fld b 49 32)) then (d.endXfer x.id).advance f
    else d.modXfer x.id (fun e => { e with done := 0 })

/-- A write or atomic piece of a frond is acknowledged. -/
def Dev.frondLanded (d : Dev) (x : Xfer) (g : XGr) : Dev :=
  let d := d.modXfer x.id (fun e => { e with gr := e.gr.filter (fun y => y.i != g.i), done := e.done + 1 })
  let d := if 4 ≤ g.status then d.modFrond x.mid (fun y => { y with wrFail := if y.wrFail == 0 then g.status else y.wrFail })
    else if x.sth then d.stashCount x.mid true (x.named g.i) else d
  if x.kind == .sst || x.kind == .sig || x.kind == .stash then d.endXfer x.id else d

/-- STREAM_END: a stream whose pieces have all been delivered completes (05 R139). -/
def Dev.streamEnd (d : Dev) (x : Xfer) : Dev :=
  if x.mid < 0x100 && (x.kind == .lds || x.kind == .sts || x.kind == .atom) && x.next == x.limit && x.gr.isEmpty
      && x.sent.isEmpty then
    let d := d.endXfer x.id
    match x.flag with
    | some n => if x.limit == x.n then d.addFlag x.mid n x.ip x.order true else d
    | none => d
  else d

end Sys2Proof.Machine
end

