-- ==== Sys2Proof/Machine/Tile.lean ====
section
/-! DEFINITION. The compute queue and the outer-product arrays: TOP, TZERO, TMOVI, TMOVO, TMOVR, TOPKR, TURN (04, 05
R136-R139, R155-R159, 07 R225). -/

namespace Sys2Proof.Machine

/-! ### Cells (04 R105-R107, R116, R117) -/

/-- What an update of a cell raises: bit 0 a NaN from NaN-free operands, bit 1 a sum overflowed, bit 2 an integer sum
clamped or wrapped. -/
abbrev CellFlags := BitVec 3

/-- A sum or value rounded once to FP32, with its flags; `had`: an operand was a NaN. -/
def roundCell (v : Val) (had : Bool) : Word × CellFlags :=
  let w := toF32 v
  let ov := !v.isNan && !v.isInf && (f32 w).isInf
  (w, (if v.isNan && !had then 1#3 else 0#3) ||| (if ov then 2#3 else 0#3))

/-- A term is added to a cell (04 R105, R106); a NaN cell stays NaN, and a term that is NaN from NaN-free operands is flagged
all the same. -/
def cellAdd (cv term : Val) (had : Bool) : Word × CellFlags :=
  if cv.isNan then (canonNan, if term.isNan && !had then 1#3 else 0#3) else roundCell (cv.add term) had

/-- The float update of a cell in mode m (04 R105, R106, R117). -/
def cellFloat (m : Nat) (c : Word) (a b : Val) : Word × CellFlags :=
  let cv := f32 c
  let had := a.isNan || b.isNan
  match m with
  | 0 => cellAdd cv (a.mul b) had
  | 1 => cellAdd cv (a.sub b).abs had
  | 2 => cellAdd cv ((a.sub b).mul (a.sub b)) had
  | _ =>
    let (s, fl) := roundCell (a.add b) had
    let sv := f32 s
    (if sv.isNan then c else if cv.isNan then s
      else if m == 3 then (if sv.lt cv then s else c) else (if cv.lt sv then s else c), fl)

/-- A 32-bit sum clamped or wrapped (04 R107). -/
def intSum (wrap : Bool) (i : Int) : Word × CellFlags :=
  let c := clampInt (-(2 ^ 31)) (2 ^ 31 - 1) i
  if c == i then (BitVec.ofInt 32 i, 0#3) else (BitVec.ofInt 32 (if wrap then i else c), 4#3)

def popcount4 (x : Nat) : Nat := x % 2 + x / 2 % 2 + x / 4 % 2 + x / 8 % 2

/-- The integer update of a cell (04 R107, R117); `ca`, `cb`: the codes, for HAMMING. -/
def cellInt (m : Nat) (wrap : Bool) (c : Word) (a b : Int) (ca cb : Nat) : Word × CellFlags :=
  match m with
  | 0 => intSum wrap (c.toInt + a * b)
  | 1 => intSum wrap (c.toInt + ((a - b).natAbs : Nat))
  | 2 => intSum wrap (c.toInt + (a - b) * (a - b))
  | 3 => let (s, fl) := intSum wrap (a + b); (if s.slt c then s else c, fl)
  | 4 => let (s, fl) := intSum wrap (a + b); (if c.slt s then s else c, fl)
  | _ => intSum wrap (c.toInt + (popcount4 ((ca ^^^ cb) % 16) : Nat))

/-- Rate of a pair of formats in steps per cycle, as steps per 8 cycles (04 R104, R116). -/
def rate8 (fa fb : Nat) : Nat :=
  let r (f : Nat) : Nat := if f == 6 || f == 9 then 16 else if f == 12 then 1 else if f == 10 || f == 11 then 4 else 8
  min (r fa) (r fb)

/-! ### Arrays of a frond -/

def Frond.arr (f : Frond) (q : Nat) : Arr := f.arrs.get q {}
def Arr.cell (a : Arr) (i j : Nat) : Word := a.cells.get (64 * i + j) a.fill
def Arr.cellPois (a : Arr) (i j : Nat) : Bool := (a.pois.find (64 * i + j)).isSome
def Arr.setCell (a : Arr) (i j : Nat) (w : Word) (p : Bool) : Arr :=
  { a with cells := a.cells.put (64 * i + j) w, pois := if p then a.pois.put (64 * i + j) () else a.pois.drop (64 * i + j) }

/-- The arrays a mask names, with their ranks. -/
def maskArrays (m : Nat) : List (Nat × Nat) :=
  let qs := (List.range 4).filter (fun q => m.testBit q)
  (List.range qs.length).zip qs

/-- ARR_STATUS flags are set for array q (04 R129); bit k of `fl` sets field k. -/
def Dev.setArr (d : Dev) (f q fl : Nat) : Dev :=
  let w := (List.range 5).foldl (fun w k => if fl.testBit k then w ||| BitVec.ofNat 32 (2 ^ (4 * k + q)) else w)
    (d.arrStatus.get f 0#32)
  { d with arrStatus := d.arrStatus.put f w }

/-- An output conversion outside the arrays clamped n elements: they are counted, and OUT_CLAMP is set. Which arrays' bits of
it is open, because no array made the output: a free choice of one or more (04 R110, R129, R130; log 32). -/
def Dev.outClamped (d : Dev) (f n : Nat) : Dev :=
  if n == 0 then d
  else
    let (d, v) := (d.bump (cFrd f 2) n).draw
    let m := v.toNat % 15 + 1
    (List.range 4).foldl (fun d q => if m.testBit q then d.setArr f q 8 else d) d

/-- ARR_CTRL in force (04 R127). -/
def Dev.arrCtrl (d : Dev) (f : Nat) : Word := d.inF (0x02000000 + 4 * f)

/-! ### TOP (05 R155) -/

structure TopF where
  mask : Nat
  mode : Nat
  fa : Nat
  fb : Nat
  srcA : Bool
  srcB : Bool
  k : Nat
  a : Nat
  b : Nat
  bstep : Nat
  mrow : Nat
  mcol : Nat
  deriving DecidableEq, Repr

def topF (b : BitVec 128) : TopF :=
  { mask := fld b 8 4, mode := fld b 12 3, fa := fld b 15 4, fb := fld b 19 4, srcA := fld b 23 1 == 1
    srcB := fld b 24 1 == 1, k := cnt (fld b 25 16) 65536, a := fld b 41 19, b := fld b 60 19, bstep := fld b 79 19
    mrow := fld b 98 6, mcol := fld b 104 6 }

/-- FORMAT for a mode and its two formats (04 R104, R116); reserved codes are ENCODING's. -/
def badFormats (mode fa fb : Nat) : Bool :=
  let l1ok (f : Nat) : Bool := f == 0 || f == 1 || f == 10 || f == 11 || f == 8 || f == 9
  if mode == 0 then fa == 13 || fb == 13 || fmtInt fa != fmtInt fb
  else if mode ≤ 4 then !(l1ok fa) || fa != fb
  else !(fa == 9 && fb == 9)

def osLimit : Nat := 393216

def topCodes (x : Frond) (t : TopF) : List (Bool × Nat) :=
  let bcount := (maskArrays t.mask).length
  let out (g fmt : Nat) : Bool := decide (osLimit < g + tileGrans fmt t.k)
  [(t.mask == 0 || decide (6 ≤ t.mode) || decide (14 ≤ t.fa) || decide (14 ≤ t.fb) || (t.srcA && t.srcB) ||
      (t.srcB && decide (1 < bcount)), 1),
    (badFormats t.mode t.fa t.fb || (fmtMx t.fa && t.k % 32 != 0) || (fmtMx t.fb && t.k % 32 != 0) ||
      ((t.srcA || t.srcB) && t.k % 64 != 0) ||
      (maskArrays t.mask).any (fun e => (x.arr e.2).int != fmtInt t.fa), 2),
    (out t.a t.fa || (maskArrays t.mask).any (fun e => out (t.b + e.1 * t.bstep) t.fb), 3)]

/-- Element i of step k of a TOP stream, from the operand store or through the turn unit. -/
def streamElem (x : Frond) (t : TileRef) (turned : Bool) (k i : Nat) : Nat × Nat × Bool :=
  if turned then turnElem x.os x.osP t (k / 64) (k % 64) i else tileElem x.os x.osP t k i

/-- One cell's steps in ascending k: the word, flags, poison and NaNs produced. -/
def runCell (x : Frond) (t : TopF) (wrap : Bool) (ta tb : TileRef) (i j : Nat) (c : Word) (p : Bool) :
    Word × CellFlags × Bool × Nat :=
  (List.range t.k).foldl (fun s k =>
    let (w, fl, p, n) := s
    let ea := streamElem x ta t.srcA k i
    let eb := streamElem x tb t.srcB k j
    let (w', g) := if fmtInt t.fa then
        cellInt t.mode wrap w (twos (fmtBits t.fa) ea.1) (twos (fmtBits t.fb) eb.1) ea.1 eb.1
      else cellFloat t.mode w (codeVal t.fa ea) (codeVal t.fb eb)
    (w', fl ||| g, p || ea.2.2 || eb.2.2, if g.getLsbD 0 then n + 1 else n)) (c, 0#3, p, 0)

/-- The tile operation on one array. -/
def Dev.topArray (d : Dev) (f : Nat) (t : TopF) (rank q : Nat) : Dev :=
  let x := d.frond f
  let wrap := (d.arrCtrl f).getLsbD 3
  let ta : TileRef := ⟨t.a, t.k, t.fa⟩
  let tb : TileRef := ⟨t.b + rank * t.bstep, t.k, t.fb⟩
  let cells := (List.range (t.mrow + 1)).flatMap (fun i => (List.range (t.mcol + 1)).map (fun j => (i, j)))
  let (a, fl, n) := cells.foldl (fun s e =>
    let (a, fl, n) := s
    let (w, g, p, m) := runCell x t wrap ta tb e.1 e.2 (a.cell e.1 e.2) (a.cellPois e.1 e.2)
    (a.setCell e.1 e.2 w p, fl ||| g, n + m)) (x.arr q, 0#3, 0)
  let a := { a with int := fmtInt t.fa || t.mode == 5 }
  let d := (d.modFrond f (fun x => { x with arrs := x.arrs.put q a })).bump (cFrd f 3) n
  d.setArr f q fl.toNat

/-- TOP's effect: every array of the mask, its steps counted as active cycles (04 R98, R99, R130). -/
def Dev.runTop (d : Dev) (f : Nat) (b : BitVec 128) : Dev :=
  let t := topF b
  let d := (d.inc (cFrd f 1)).bump (cFrd f 0) ((8 * t.k + rate8 t.fa t.fb - 1) / rate8 t.fa t.fb)
  (maskArrays t.mask).foldl (fun d e => d.topArray f t e.1 e.2) d

/-! ### TZERO (04 R118) -/

def Dev.runTzero (d : Dev) (f : Nat) (b : BitVec 128) : Dev :=
  let fill := fld b 12 2
  let int := fld b 14 1 == 1
  let w : Word := match fill with
    | 0 => 0#32
    | 1 => if int then 0x7FFFFFFF#32 else 0x7F800000#32
    | _ => if int then 0x80000000#32 else 0xFF800000#32
  (maskArrays (fld b 8 4)).foldl (fun d e =>
    d.modFrond f (fun x => { x with arrs := x.arrs.put e.2 { x.arr e.2 with fill := w, cells := [], pois := [], int := int } })) d

/-! ### TMOVI, TMOVO (05 R157) -/

/-- A value read by a move in, widened exactly (04 R109): a NaN keeps its sign and payload. -/
def widen (fmt code : Nat) : Word :=
  if fmt ≥ 12 then BitVec.ofNat 32 code
  else if fmt == 10 then BitVec.ofNat 32 (code * 2 ^ 16)
  else if (elemVal fmt code).isNan then BitVec.ofNat 32 (code / 2 ^ 15 * 2 ^ 31 + 0x7F800000 + code % 2 ^ 10 * 2 ^ 13)
  else toF32 (elemVal fmt code)

def Dev.runTmovi (d : Dev) (f : Nat) (b : BitVec 128) : Dev :=
  let fmt := fld b 12 4
  (maskArrays (fld b 8 4)).foldl (fun d e =>
    let x := d.frond f
    let t : TileRef := ⟨fld b 16 19 + e.1 * fld b 35 19, 64, fmt⟩
    let a := (List.range 4096).foldl (fun a n =>
      let (c, _, p) := tileElem x.os x.osP t (n % 64) (n / 64)
      a.setCell (n / 64) (n % 64) (widen fmt c) p) (x.arr e.2)
    d.modFrond f (fun x => { x with arrs := x.arrs.put e.2 { a with int := fmt == 13 } })) d

/-- One draw of 16 bits (04 R115): the value and the generator after it. -/
def srDraw (g : Word) : Nat × Word :=
  (List.range 16).foldl (fun s n =>
    let out := s.2.getLsbD 0
    let g := s.2 >>> 1
    (s.1 + (if out then 2 ^ n else 0), if out then g ^^^ 0x80200003#32 else g)) (0, g)

/-- The load value of a column's generator (04 R115). -/
def srLoad (seed : Word) (f q j : Nat) : Word :=
  let g := seed ^^^ BitVec.ofNat 32 (f * 256 + q * 64 + j)
  if g == 0#32 then 1#32 else g

/-- The draws of column j for rows 0 to 63, and the generator after them. -/
def srColumn (g : Word) : List Nat × Word :=
  (List.range 64).foldl (fun s _ => let (r, g) := srDraw s.2; (s.1 ++ [r], g)) ([], g)

/-- The codes of a tile moved out, as 64 steps of 64; the scale rows; elements clamped (04 R110-R112, 05 R157). -/
def moveOutCodes (fmt sh : Nat) (c : OutCfg) (cell : Nat → Nat → Word) (r : Nat → Nat → Option Nat) :
    List (List Nat) × List (List Nat) × Nat :=
  let idx := List.range 64
  if fmtMx fmt then
    let blk (i h : Nat) : Nat × List Nat × Nat :=
      mxBlock fmt c ((List.range 32).map (fun n => (f32 (cell i (32 * h + n)), r i (32 * h + n))))
    let lo := idx.map (fun i => blk i 0)
    let hi := idx.map (fun i => blk i 1)
    let codes := idx.map (fun j => idx.map (fun i =>
      if j < 32 then (lo.getD i (0, [], 0)).2.1.getD j 0 else (hi.getD i (0, [], 0)).2.1.getD (j - 32) 0))
    (codes, [lo.map (·.1), hi.map (·.1)], (lo ++ hi).foldl (fun a e => a + e.2.2) 0)
  else
    let one (i j : Nat) : Nat × Bool :=
      if fmt == 8 || fmt == 9 then outInt fmt sh (r i j) (cell i j)
      else if fmt ≥ 12 then (outCopy (cell i j), false)
      else outPlain fmt c (r i j) (f32 (cell i j))
    let all := idx.map (fun j => idx.map (fun i => one i j))
    (all.map (fun l => l.map (·.1)), [], all.foldl (fun a l => a + (l.filter (·.2)).length) 0)

/-- Whether granule n of a moved-out tile holds a poisoned cell, or a scale chosen from one (04 R123). -/
def moveOutPois (fmt : Nat) (p : Nat → Nat → Bool) (n : Nat) : Bool :=
  let eg := stepBytes fmt
  if n < eg then
    -- elements whose bits overlap granule n
    (List.range 4096).any (fun e =>
      let o := e * fmtBits fmt
      o < 512 * (n + 1) && 512 * n < o + fmtBits fmt && p (e % 64) (e / 64))
  else (List.range 64).any (fun i => (List.range 32).any (fun k => p i (32 * (n - eg) + k)))

/-- TMOVO of one array. -/
def Dev.movo (d : Dev) (f : Nat) (b : BitVec 128) (rank q : Nat) : Dev :=
  let x := d.frond f
  let a := x.arr q
  let fmt := fld b 12 4
  let ctrl := d.arrCtrl f
  let sr := fld b 16 1 == 1 && ctrl.getLsbD 0
  let draws := if sr then (List.range 64).map (fun j => srColumn (a.gen.get j (srLoad x.seed f q j))) else []
  let r (i j : Nat) : Option Nat := if sr then some ((draws.getD j ([], 0#32)).1.getD i 0) else none
  let (codes, scales, clamped) := moveOutCodes fmt (fld b 17 5) (outCfg ctrl) a.cell r
  let g0 := fld b 22 19 + rank * fld b 41 19
  let eg := stepBytes fmt
  let n := tileGrans fmt 64
  let gran (k : Nat) : Gran := if k < eg then packGran fmt codes k
    else gOfBytes ((scales.getD (k - eg) []).map (BitVec.ofNat 8))
  let pois (k : Nat) : Bool := moveOutPois fmt a.cellPois k
  let d := d.modFrond f (fun x => (List.range n).foldl (fun x k => x.setOs (g0 + k) (gran k) (pois k)) x)
  let d := if sr then d.modFrond f (fun x =>
      { x with arrs := x.arrs.put q { a with gen := (List.range 64).map (fun j => (j, (draws.getD j ([], 0#32)).2)) } }) else d
  let pn := ((List.range n).filter pois).length
  let d := (d.bump (cFrd f 2) clamped).bump (cFrd f 4) pn
  d.setArr f q ((if 0 < clamped then 8 else 0) + (if 0 < pn then 16 else 0))

def Dev.runTmovo (d : Dev) (f : Nat) (b : BitVec 128) : Dev :=
  (maskArrays (fld b 8 4)).foldl (fun d e => d.movo f b e.1 e.2) d

def tmoviCodes (b : BitVec 128) : List (Bool × Nat) :=
  let fmt := fld b 12 4
  [(fld b 8 4 == 0 || decide (14 ≤ fmt), 1), (!(fmt == 12 || fmt == 10 || fmt == 11 || fmt == 13), 2),
    ((maskArrays (fld b 8 4)).any (fun e => decide (osLimit < fld b 16 19 + e.1 * fld b 35 19 + tileGrans fmt 64)), 3)]

def tmovoCodes (x : Frond) (b : BitVec 128) : List (Bool × Nat) :=
  let fmt := fld b 12 4
  [(fld b 8 4 == 0 || decide (14 ≤ fmt) || (fld b 17 5 != 0 && fmt != 8 && fmt != 9), 1),
    ((maskArrays (fld b 8 4)).any (fun e => (x.arr e.2).int != fmtInt fmt), 2),
    ((maskArrays (fld b 8 4)).any (fun e => decide (osLimit < fld b 22 19 + e.1 * fld b 41 19 + tileGrans fmt 64)), 3)]

/-! ### Top-k lists (04 R119, 05 R158) -/

/-- Side memory: a 64-bit entry at a byte address, with its granule's poison. -/
def Frond.sideEntry (x : Frond) (byte : Nat) : Nat × Bool :=
  (bitsAt (x.side.get (byte / 64) 0#512).toNat (byte % 64 * 8) 64, (x.sideP.find (byte / 64)).isSome)

def Frond.setSideEntry (x : Frond) (byte v : Nat) (p : Bool) : Frond :=
  let g := byte / 64
  { x with side := x.side.put g (setField (x.side.get g 0#512) (byte % 64 * 8) 64 v)
           sideP := if p then x.sideP.put g () else x.sideP }

/-- An unfilled entry: index 0xFFFF_FFFF with the worst value for the order (05 R158). -/
def emptyEntry (large int : Bool) : Nat :=
  0xFFFFFFFF * 2 ^ 32 + (if !int then 0x7FC00000 else if large then 0x80000000 else 0x7FFFFFFF)

/-- Entry a ranks before entry b (04 R119). DESIGN CHOICE (log 71): of two NaN entries the one with the lower index goes first. -/
def entryBefore (large int : Bool) (a b : Nat) : Bool :=
  let va := BitVec.ofNat 32 (a % 2 ^ 32)
  let vb := BitVec.ofNat 32 (b % 2 ^ 32)
  let ia := a / 2 ^ 32
  let ib := b / 2 ^ 32
  if int then
    if va == vb then decide (ia < ib) else if large then vb.slt va else va.slt vb
  else
    let x := f32 va
    let y := f32 vb
    if x.isNan && y.isNan then decide (ia < ib)
    else if x.isNan then false
    else if y.isNan then true
    else if x.eqv y then decide (ia < ib)
    else if large then y.lt x else x.lt y

/-- An entry is inserted in a best-first list of at most k. -/
def insertEntry (large int : Bool) (k : Nat) (l : List (Nat × Bool)) (e : Nat × Bool) : List (Nat × Bool) :=
  let l := l.takeWhile (fun x => !(entryBefore large int e.1 x.1)) ++ [e] ++
    l.dropWhile (fun x => !(entryBefore large int e.1 x.1))
  l.take k

def tmovrSlots (k : Nat) : Nat := (k + 1) / 2

/-- TMOVR of every array in the mask into the list set at SLOT. -/
def Dev.runTmovr (d : Dev) (f : Nat) (b : BitVec 128) (idx : DWord) : Dev :=
  let x := d.frond f
  let qs := maskArrays (fld b 8 4)
  let k := fld b 12 6 + 1
  let large := fld b 18 1 == 1
  let slot := fld b 19 11
  let merge := fld b 36 1 == 1
  let int := qs.any (fun e => (x.arr e.2).int)
  let old := x.lists.find? (fun s => s.slot == slot)
  let filled (i : Nat) : Nat := if merge then (match old with
    | some s => s.filled.get i 0
    | none => 0) else 0
  let at' (n i : Nat) : Nat := 1024 * slot + 8 * (64 * n + i)
  let row (i : Nat) : List (Nat × Bool) :=
    let l0 := (List.range (filled i)).map (fun n => x.sideEntry (at' n i))
    (qs.flatMap (fun e => (List.range 64).map (fun j =>
      (((idx.toNat + 64 * e.1 + j) % 2 ^ 32) * 2 ^ 32 + ((x.arr e.2).cell i j).toNat, (x.arr e.2).cellPois i j)))).foldl
      (insertEntry large int k) l0
  let rows := (List.range 64).map (fun i => (i, row i))
  -- the poison of a row's entries is the poison of their granules
  let clean (x : Frond) : Frond :=
    { x with sideP := x.sideP.filter (fun e => !(16 * slot ≤ e.1 && e.1 < 16 * slot + 8 * k)) }
  d.modFrond f (fun x =>
    let x := rows.foldl (fun x r => (List.range k).foldl (fun x n =>
      let (v, p) := r.2.getD n (emptyEntry large int, false)
      x.setSideEntry (at' n r.1) v p) x) (clean x)
    { x with lists := { slot := slot, k := k, large := large, int := int
                        filled := rows.map (fun r => (r.1, r.2.length)) } :: x.lists.filter (fun s => s.slot != slot) })

/-- FORMAT of a merge whose TK, ORD or class differs from the list set's (05 R158). DESIGN CHOICE (log 73): so too of a merge
into a slot where no list set was made. -/
def tmovrCodes (x : Frond) (b : BitVec 128) : List (Bool × Nat) :=
  let qs := maskArrays (fld b 8 4)
  let k := fld b 12 6 + 1
  let cls := qs.map (fun e => (x.arr e.2).int)
  let mixed := cls.any id && cls.any (!·)
  let bad := fld b 36 1 == 1 && (match x.lists.find? (fun s => s.slot == fld b 19 11) with
    | some s => s.k != k || s.large != (fld b 18 1 == 1) || s.int != cls.any id
    | none => true)
  [(fld b 8 4 == 0, 1), (mixed || bad, 2), (decide (2048 < fld b 19 11 + tmovrSlots k), 4)]

/-- TOPKR copies a list set to the operand store (05 R158). -/
def Dev.runTopkr (d : Dev) (f : Nat) (b : BitVec 128) : Dev :=
  let slot := fld b 8 11
  let k := fld b 19 6 + 1
  let dst := fld b 25 19
  d.modFrond f (fun x => (List.range (8 * k)).foldl (fun y n =>
    y.setOs (dst + n) (x.side.get (16 * slot + n) 0#512) (x.sideP.find (16 * slot + n)).isSome) x)

def topkrCodes (b : BitVec 128) : List (Bool × Nat) :=
  let k := fld b 19 6 + 1
  [(decide (osLimit < fld b 25 19 + 8 * k), 3), (decide (2048 < fld b 8 11 + tmovrSlots k), 4)]

/-! ### TURN (05 R159, 07 R225) -/

def turnCodes (b : BitVec 128) : List (Bool × Nat) :=
  let fmt := fld b 8 4
  let src := fld b 12 19
  let dst := fld b 31 19
  let n := cnt (fld b 50 16) 65536 * tileGrans fmt 64
  [(decide (14 ≤ fmt), 1), (fmt == 13, 2),
    (decide (osLimit < src + n) || decide (osLimit < dst + n) || (decide (src < dst + n) && decide (dst < src + n)), 3)]

/-- One tile is transposed. -/
def turnTile (x : Frond) (fmt src dst : Nat) : Frond :=
  let t : TileRef := ⟨src, 64, fmt⟩
  let idx := List.range 64
  let es := idx.map (fun j => idx.map (fun k => turnElem x.os x.osP t 0 j k))
  let codes := es.map (fun l => l.map (·.1))
  let eg := stepBytes fmt
  let scaleRow (h : Nat) : List Byte := (es.getD (32 * h) []).map (fun e => BitVec.ofNat 8 e.2.1)
  let p (k j : Nat) : Bool := ((es.getD j []).getD k (0, 0, false)).2.2
  (List.range (tileGrans fmt 64)).foldl (fun y n =>
    y.setOs (dst + n) (if n < eg then packGran fmt codes n else gOfBytes (scaleRow (n - eg)))
      (moveOutPois fmt p n)) x

def Dev.runTurn (d : Dev) (f : Nat) (b : BitVec 128) : Dev :=
  let fmt := fld b 8 4
  let t := tileGrans fmt 64
  d.modFrond f (fun x => (List.range (cnt (fld b 50 16) 65536)).foldl (fun x n =>
    turnTile x fmt (fld b 12 19 + n * t) (fld b 31 19 + n * t)) x)

end Sys2Proof.Machine
end

