-- ==== Sys2Proof/Machine/Row.lean ====
section
/-! DEFINITION. The row engine (05 R160-R162, 07 R226, R227). -/

namespace Sys2Proof.Machine

structure RowF where
  func : Nat
  fin : Nat
  fout : Nat
  src1 : Nat
  src2 : Nat
  prm : Nat
  dst : Nat
  l : Nat
  stat : Nat
  sv : Bool
  deriving DecidableEq, Repr

/-- SRC1, SRC2, PRM and DST in granules (05 R144). -/
def rowF (b : BitVec 128) : RowF :=
  { func := fld b 8 6, fin := fld b 14 4, fout := fld b 18 4, src1 := 4 * fld b 22 17, src2 := 4 * fld b 39 17
    prm := 4 * fld b 56 17, dst := 4 * fld b 73 17, l := cnt (fld b 90 16) 65536, stat := fld b 106 11
    sv := fld b 117 1 == 1 }

def rowTwoSrc (n : Nat) : Bool := n == 6 || n == 7 || n == 8 || decide (16 ≤ n)
def rowGain (n : Nat) : Bool := n == 0 || n == 1 || n == 17 || n == 18
def rowKnown (n : Nat) : Bool := decide (n ≤ 9) || (decide (16 ≤ n) && decide (n ≤ 21))

/-- Granules of the parameter vector (05 R160, R161). -/
def rowPrmGrans (r : RowF) : Nat :=
  if r.func == 21 then tileGrans r.fin r.l
  else if r.func == 1 then (4 * r.l + 63) / 64
  else if rowGain r.func then (2 * r.l + 63) / 64 else 0

/-- Granules written from DST. -/
def rowDstGrans (r : RowF) : Nat := tileGrans r.fout r.l * (if r.func == 21 then 2 else 1)

def rowCodes (b : BitVec 128) : List (Bool × Nat) :=
  let r := rowF b
  let n := tileGrans r.fin r.l
  let m := rowDstGrans r
  let clash (s k : Nat) : Bool := s != r.dst && decide (r.dst < s + k) && decide (s < r.dst + m)
  let prm := rowPrmGrans r
  [(!rowKnown r.func || decide (14 ≤ r.fin) || decide (14 ≤ r.fout) || (decide (16 ≤ r.func) && r.sv), 1),
    (fmtInt r.fin || fmtInt r.fout || (fmtMx r.fin && r.l % 32 != 0) || (fmtMx r.fout && r.l % 32 != 0), 2),
    (decide (osLimit < r.src1 + n) || (rowTwoSrc r.func && decide (osLimit < r.src2 + n)) || decide (osLimit < r.dst + m) ||
      decide (osLimit < r.prm + prm) || clash r.src1 n || (rowTwoSrc r.func && clash r.src2 n) ||
      (0 < prm && decide (r.dst < r.prm + prm) && decide (r.prm < r.dst + m)), 3)]

/-! ### Formulas: every step one FP32 operation rounded to nearest even (05 R162) -/

def wOne : Word := 0x3F800000#32
def wHalf : Word := 0x3F000000#32
/-- 0.79788456, 0.044715 and 0.134145 as FP32. -/
def wGeluA : Word := 0x3F4C422A#32
def wGeluB : Word := 0x3D372713#32
def wGeluC : Word := 0x3E095D4F#32

def f32Div (a b : Word) : Word := toF32 ((f32 a).div (f32 b))
def wNat (n : Nat) : Word := toF32 (.num false n 0)
def wMean (s : Word) (l : Nat) : Word := f32Div s (wNat l)
def wSum (l : List Word) : Word := l.foldl f32Add 0#32
def isInfW (w : Word) : Bool := (f32 w).isInf
def isNanW (w : Word) : Bool := (f32 w).isNan

def wSilu (x : Word) : Word := f32Mul x (fSigmoid x)

def wGeluU (x : Word) : Word :=
  f32Mul wGeluA (f32Add x (f32Mul wGeluB (f32Mul (f32Mul x x) x)))

def wGelu (x : Word) : Word := f32Mul (f32Mul wHalf x) (f32Add wOne (fTanh (wGeluU x)))

def wSiluBwd (x dy : Word) : Word :=
  let s := fSigmoid x
  f32Mul (f32Mul dy s) (f32Add wOne (f32Mul x (f32Sub wOne s)))

def wGeluBwd (x dy : Word) : Word :=
  let t := fTanh (wGeluU x)
  let a := f32Mul wHalf (f32Add wOne t)
  let b := f32Mul (f32Mul (f32Mul (f32Mul wHalf x) (f32Sub wOne (f32Mul t t))) wGeluA)
    (f32Add wOne (f32Mul wGeluC (f32Mul x x)))
  f32Mul dy (f32Add a b)

/-- The running maximum and sum of the first pass of SOFTMAX (05 R162). -/
def softmaxPass (xs : List Word) : Word × Word :=
  match xs with
  | [] => (0xFF800000#32, 0#32)
  | x0 :: xs => xs.foldl (fun s x =>
    let (m, z) := s
    if (f32 m).lt (f32 x) then (x, f32Add (f32Mul z (fExp (f32Sub m x))) wOne)
    else (m, f32Add z (fExp (f32Sub x m)))) (x0, wOne)

/-- The online mean and sum of squared deviations of LAYERNORM (05 R162). -/
def welford (xs : List Word) : Word × Word :=
  let r := xs.foldl (fun (s : Word × Word × Nat) x =>
    let (m, v, n) := s
    let dl := f32Sub x m
    let m' := f32Add m (f32Div dl (wNat (n + 1)))
    (m', f32Add v (f32Mul dl (f32Sub x m')), n + 1)) (0#32, 0#32, 0)
  (r.1, r.2.1)

/-- One row: outputs, second outputs (GATE_SILU_BWD's du), and the statistics words saved. `st`: the saved words read. -/
def rowRun (func l : Nat) (eps : Word) (xs ys gs bs : List Word) (st : Nat → Word) : List Word × List Word × List Word :=
  let zip3 := (xs.zip ys).zip gs
  match func with
  | 0 =>
    let s := wSum (xs.map (fun x => f32Mul x x))
    let ms := wMean s l
    let r := fRsqrt (f32Add ms eps)
    (if isInfW s then xs.map (fun _ => canonNan) else (xs.zip gs).map (fun e => f32Mul (f32Mul e.1 r) e.2), [], [ms, r])
  | 1 =>
    let (m, v) := welford xs
    let var := wMean v l
    let r := fRsqrt (f32Add var eps)
    (if isInfW v || isInfW m then xs.map (fun _ => canonNan)
      else ((xs.zip gs).zip bs).map (fun e => f32Add (f32Mul (f32Mul (f32Sub e.1.1 m) r) e.1.2) e.2), [], [m, r, var])
  | 2 =>
    let (m, z) := softmaxPass xs
    let r := fRecip z
    (if isInfW z then xs.map (fun _ => canonNan) else xs.map (fun x => f32Mul (fExp (f32Sub x m)) r), [], [m, z])
  | 3 => (xs.map wSilu, [], [])
  | 4 => (xs.map wGelu, [], [])
  | 5 => (xs.map fSigmoid, [], [])
  | 6 => ((xs.zip ys).map (fun e => f32Mul (wSilu e.1) e.2), [], [])
  | 7 => ((xs.zip ys).map (fun e => f32Add e.1 e.2), [], [])
  | 8 => ((xs.zip ys).map (fun e => f32Mul e.1 e.2), [], [])
  | 9 => (xs, [], [])
  | 16 =>
    let c := wSum ((xs.zip ys).map (fun e => f32Mul e.1 e.2))
    (if isNanW (st 0) || isInfW c then xs.map (fun _ => canonNan)
      else (xs.zip ys).map (fun e => f32Mul e.1 (f32Sub e.2 c)), [], [])
  | 17 =>
    let r := st 1
    let s := wSum (zip3.map (fun e => f32Mul (f32Mul e.2 e.1.2) e.1.1))
    let c := wMean s l
    let r3 := f32Mul (f32Mul r r) r
    (if isInfW s then xs.map (fun _ => canonNan)
      else zip3.map (fun e => f32Sub (f32Mul r (f32Mul e.2 e.1.2)) (f32Mul (f32Mul r3 c) e.1.1)), [], [])
  | 18 =>
    let m := st 0
    let r := st 1
    let xh := xs.map (fun x => f32Mul (f32Sub x m) r)
    let a := (gs.zip ys).map (fun e => f32Mul e.1 e.2)
    let s1 := wSum a
    let s2 := wSum ((a.zip xh).map (fun e => f32Mul e.1 e.2))
    let c1 := wMean s1 l
    let c2 := wMean s2 l
    (if isInfW s1 || isInfW s2 then xs.map (fun _ => canonNan)
      else (a.zip xh).map (fun e => f32Mul r (f32Sub (f32Sub e.1 c1) (f32Mul e.2 c2))), [], [])
  | 19 => ((xs.zip ys).map (fun e => wSiluBwd e.1 e.2), [], [])
  | 20 => ((xs.zip ys).map (fun e => wGeluBwd e.1 e.2), [], [])
  | _ =>
    -- g in xs, u in ys, dy in gs
    (zip3.map (fun e => wSiluBwd e.1.1 (f32Mul e.2 e.1.2)),
      zip3.map (fun e => f32Mul (f32Mul e.2 e.1.1) (fSigmoid e.1.1)), [])

/-! ### The instruction -/

/-- Element k of row i of a tile, as FP32, and its poison (05 R160). -/
def rowElem (x : Frond) (t : TileRef) (k i : Nat) : Word × Bool :=
  let e := tileElem x.os x.osP t k i
  (if t.fmt == 12 then BitVec.ofNat 32 e.1 else toF32 (codeVal t.fmt e), e.2.2)

/-- n bits are stored at bit offset o from granule g0, keeping the granule's poison. -/
def Frond.putBits (x : Frond) (g0 o n v : Nat) : Frond :=
  let g := g0 + o / 512
  let r := o % 512
  if r + n ≤ 512 then { x with os := x.os.put g (setField (x.os.get g 0#512) r n v) }
  else
    let lo := 512 - r
    { x with os := (x.os.put g (setField (x.os.get g 0#512) r lo (v % 2 ^ lo))).put (g + 1)
               (setField (x.os.get (g + 1) 0#512) 0 (n - lo) (v / 2 ^ lo)) }

/-- The statistics word w of row i at slot STAT (05 R161). -/
def Frond.statWord (x : Frond) (stat w i : Nat) : Word × Bool :=
  let o := 1024 * stat + 256 * w + 4 * i
  (gWord (x.side.get (o / 64) 0#512) (o % 64 / 4), (x.sideP.find (o / 64)).isSome)

def Frond.setStat (x : Frond) (stat w i : Nat) (v : Word) (p : Bool) : Frond :=
  let o := 1024 * stat + 256 * w + 4 * i
  let g := o / 64
  { x with side := x.side.put g (gSetWord (x.side.get g 0#512) (o % 64 / 4) v)
           sideP := if p then x.sideP.put g () else x.sideP }

/-- One output tile at granule g: rows as (row, values, poison); rows not listed keep their bytes (05 R160). Answers the
store and the clamped elements. -/
def putRows (x : Frond) (cfg : OutCfg) (fmt g l : Nat) (rows : List (Nat × List Word × Bool)) : Frond × Nat :=
  let bits := fmtBits fmt
  let sb := stepBytes fmt * 8
  let grans := tileGrans fmt l
  -- the highest row with an element or scale in granule n of the tile; one that is wholly rewritten loses its poison first
  let top (n : Nat) : Nat :=
    if decide (l * stepBytes fmt ≤ 64 * n) || bits ≤ 8 then 63 else if bits == 16 then n % 2 * 32 + 31 else n % 4 * 16 + 15
  let x := { x with osP := x.osP.filter (fun e => !(g ≤ e.1 && e.1 < g + grans && top (e.1 - g) < rows.length)) }
  let mark (x : Frond) (o n : Nat) : Frond :=
    { x with osP := (x.osP.put (g + o / 512) ()).put (g + (o + n - 1) / 512) () }
  rows.foldl (fun s r =>
    let (i, vs, p) := r
    let (codes, scales, n) :=
      if fmtMx fmt then
        let bl := (List.range (l / 32)).map (fun b =>
          mxBlock fmt cfg (((vs.drop (32 * b)).take 32).map (fun w => (f32 w, none))))
        (bl.flatMap (·.2.1), bl.map (·.1), bl.foldl (fun a e => a + e.2.2) 0)
      else if fmt == 12 then (vs.map outCopy, [], 0)
      else
        let os := vs.map (fun w => outPlain fmt cfg none (f32 w))
        (os.map (·.1), [], (os.filter (·.2)).length)
    let x := ((List.range l).zip codes).foldl (fun x e =>
      let o := e.1 * sb + i * bits
      let x := x.putBits g o bits e.2
      if p then mark x o bits else x) s.1
    let x := ((List.range scales.length).zip scales).foldl (fun x e =>
      let o := l * sb + e.1 * 512 + i * 8
      let x := x.putBits g o 8 e.2
      if p then mark x o 8 else x) x
    (x, s.2 + n)) (x, 0)

/-- ROW's effect on a frond's stores. -/
def Dev.runRow (d : Dev) (f : Nat) (b : BitVec 128) : Dev :=
  let r := rowF b
  let x := d.frond f
  let cfg := outCfg (d.arrCtrl f)
  let ks := List.range r.l
  let t1 : TileRef := ⟨r.src1, r.l, r.fin⟩
  let t2 : TileRef := ⟨r.src2, r.l, r.fin⟩
  let t3 : TileRef := ⟨r.prm, r.l, r.fin⟩
  let vec (o : Nat) : List (Word × Bool) := ks.map (fun k =>
    let (c, p) := osBits x.os x.osP r.prm (o + 16 * k) 16
    (toF32 (ffBf16.decode c), p))
  let gain := if rowGain r.func then vec 0 else []
  let bias := if r.func == 1 then vec (16 * r.l) else []
  let usesStat := r.func == 16 || r.func == 17 || r.func == 18
  let outs := (List.range (x.mrow + 1)).map (fun i =>
    let xs := ks.map (fun k => rowElem x t1 k i)
    let ys := if rowTwoSrc r.func then ks.map (fun k => rowElem x t2 k i) else []
    let gs := if r.func == 21 then ks.map (fun k => rowElem x t3 k i) else gain
    let sp := usesStat && ((x.statWord r.stat 0 i).2 || (x.statWord r.stat 1 i).2)
    let p := (xs ++ ys ++ gs ++ bias).any (·.2) || sp
    let (o1, o2, st) := rowRun r.func r.l x.eps (xs.map (·.1)) (ys.map (·.1)) (gs.map (·.1)) (bias.map (·.1))
      (fun w => (x.statWord r.stat w i).1)
    let nanStat := (r.func == 17 && isNanW (x.statWord r.stat 1 i).1) ||
      (r.func == 18 && (isNanW (x.statWord r.stat 0 i).1 || isNanW (x.statWord r.stat 1 i).1))
    (i, (if nanStat then o1.map (fun _ => canonNan) else o1, o2, st, p)))
  let (x, n1) := putRows x cfg r.fout r.dst r.l (outs.map (fun e => (e.1, e.2.1, e.2.2.2.2)))
  let (x, n2) := if r.func == 21 then
      putRows x cfg r.fout (r.dst + tileGrans r.fout r.l) r.l (outs.map (fun e => (e.1, e.2.2.1, e.2.2.2.2)))
    else (x, 0)
  let x := if r.sv then
      -- a granule of the slot holds 16 rows; one that is wholly rewritten loses its poison
      let x := { x with sideP := x.sideP.filter (fun e =>
        !(16 * r.stat ≤ e.1 && e.1 < 16 * r.stat + 16 && e.1 % 4 * 16 + 15 ≤ x.mrow)) }
      outs.foldl (fun x e => (List.range 4).foldl (fun x w =>
        x.setStat r.stat w e.1 (e.2.2.2.1.getD w 0#32) e.2.2.2.2) x) x
    else x
  (d.setFrond f x).outClamped f (n1 + n2)

/-! ### The compute queue (05 R136, R137) -/

/-- What a compute-queue instruction uses: arrays, operand-store ranges read and written, side-memory slots, units
(1 arrays' stream, 2 turn unit, 4 row engine). -/
structure Uses where
  arrays : Nat := 0
  reads : List (Nat × Nat) := []
  writes : List (Nat × Nat) := []
  slots : List (Nat × Nat) := []
  units : Nat := 0
  deriving DecidableEq, Repr

def cqUses (b : BitVec 128) : Uses :=
  let m := fld b 8 4
  match opOf b with
  | 0x30 =>
    let t := topF b
    { arrays := m, units := 1 + (if t.srcA || t.srcB then 2 else 0)
      reads := (t.a, tileGrans t.fa t.k) :: (maskArrays m).map (fun e => (t.b + e.1 * t.bstep, tileGrans t.fb t.k)) }
  | 0x31 => { arrays := m }
  | 0x32 => { arrays := m, reads := (maskArrays m).map (fun e => (fld b 16 19 + e.1 * fld b 35 19, tileGrans (fld b 12 4) 64)) }
  | 0x33 => { arrays := m, writes := (maskArrays m).map (fun e => (fld b 22 19 + e.1 * fld b 41 19, tileGrans (fld b 12 4) 64)) }
  | 0x34 => { arrays := m, slots := [(fld b 19 11, tmovrSlots (fld b 12 6 + 1))], units := 4 }
  | 0x38 =>
    let n := cnt (fld b 50 16) 65536 * tileGrans (fld b 8 4) 64
    { reads := [(fld b 12 19, n)], writes := [(fld b 31 19, n)], units := 2 }
  | 0x40 =>
    let r := rowF b
    let n := tileGrans r.fin r.l
    { reads := [(r.src1, n), (r.src2, if rowTwoSrc r.func then n else 0), (r.prm, rowPrmGrans r)]
      writes := [(r.dst, rowDstGrans r)], slots := [(r.stat, 1)], units := 4 }
  | 0x41 => { writes := [(fld b 25 19, 8 * (fld b 19 6 + 1))], slots := [(fld b 8 11, tmovrSlots (fld b 19 6 + 1))], units := 4 }
  | _ => { units := 4 }

def rangesMeet (a b : List (Nat × Nat)) : Bool :=
  a.any (fun r => b.any (fun s => decide (r.1 < s.1 + s.2) && decide (s.1 < r.1 + r.2)))

/-- A later instruction must wait for an earlier one (04 R99, R121, 05 R137). -/
def usesClash (a b : Uses) : Bool :=
  (a.arrays &&& b.arrays) != 0 || (a.units &&& b.units) != 0 || rangesMeet a.writes (b.reads ++ b.writes) ||
  rangesMeet a.reads b.writes || rangesMeet a.slots b.slots

/-- The effect of a compute-queue instruction as it starts. -/
def Dev.cqRun (d : Dev) (f : Nat) (e : CQ) : Dev :=
  match opOf e.bits with
  | 0x30 => d.runTop f e.bits
  | 0x31 => d.runTzero f e.bits
  | 0x32 => d.runTmovi f e.bits
  | 0x33 => d.runTmovo f e.bits
  | 0x34 => d.runTmovr f e.bits e.idx
  | 0x38 => d.runTurn f e.bits
  | 0x40 => d.runRow f e.bits
  | 0x41 => d.runTopkr f e.bits
  | _ => d.modFrond f (fun x => { x with eps := BitVec.ofNat 32 (fld e.bits 8 32), mrow := fld e.bits 40 6 })

/-- Waiting instructions start in program order while nothing earlier stands in their way (05 R136, R137). -/
def Dev.cqPump (d : Dev) (f : Nat) : Nat → Dev
  | 0 => d
  | n + 1 =>
    let q := (d.frond f).cq
    match q.find? (fun e => !e.started) with
    | none => d
    | some e =>
      let run := q.filter (fun r => r.started)
      if run.any (fun r => usesClash (cqUses r.bits) (cqUses e.bits)) then d
      else
        let d := d.modFrond f (fun x => { x with cq := x.cq.map (fun y => if y.n == e.n then { y with started := true } else y) })
        (d.cqRun f e).cqPump f n

/-- A compute instruction that passed its checks takes an entry; a full queue stalls issue (05 R136). -/
def Dev.cqIssue (d : Dev) (f : Nat) (b : BitVec 128) (idx : DWord) : Dev :=
  let x := d.frond f
  if 8 ≤ (x.cq.filter (fun e => !e.started)).length then d.bumpFree (cFrd f 7)
  else
    let d := d.modFrond f (fun x => { x with cq := x.cq ++ [{ n := x.order, ip := x.pc, bits := b, idx := idx }] })
    (d.advance f).cqPump f 9

/-- The checks on a compute-queue instruction's formats see the class its arrays will have once the entries before it
have run (04 R156). -/
def Frond.classAhead (x : Frond) : Frond :=
  (x.cq.filter (fun e => !e.started)).foldl (fun x e =>
    let set (int : Bool) : Frond := (maskArrays (fld e.bits 8 4)).foldl (fun x q =>
      { x with arrs := x.arrs.put q.2 { x.arr q.2 with int := int } }) x
    match opOf e.bits with
    | 0x30 => set (fmtInt (topF e.bits).fa)
    | 0x31 => set (fld e.bits 14 1 == 1)
    | 0x32 => set (fld e.bits 12 4 == 13)
    | 0x34 => { x with lists := { slot := fld e.bits 19 11, k := fld e.bits 12 6 + 1, large := fld e.bits 18 1 == 1
                                  int := (maskArrays (fld e.bits 8 4)).any (fun q => (x.arr q.2).int) } ::
                                x.lists.filter (fun s => s.slot != fld e.bits 19 11) }
    | _ => x) x

/-- COMPUTE_INSTRUCTION_END: instruction n of the queue ends; FE adds 1 to its flag, and waiting ones start. -/
def Dev.cqEnd (d : Dev) (f n : Nat) : Dev :=
  match (d.frond f).cq.find? (fun e => e.n == n && e.started) with
  | none => d
  | some e =>
    let d := d.modFrond f (fun x => { x with cq := x.cq.filter (fun y => y.n != n) })
    let fe : Option Nat := match opOf e.bits with
      | 0x30 => feOf (fld e.bits 110 1) (fld e.bits 111 4)
      | 0x31 => feOf (fld e.bits 15 1) (fld e.bits 16 4)
      | 0x32 => feOf (fld e.bits 54 1) (fld e.bits 55 4)
      | 0x33 => feOf (fld e.bits 60 1) (fld e.bits 61 4)
      | 0x34 => feOf (fld e.bits 37 1) (fld e.bits 38 4)
      | 0x38 => feOf (fld e.bits 66 1) (fld e.bits 67 4)
      | 0x40 => feOf (fld e.bits 118 1) (fld e.bits 119 4)
      | 0x41 => feOf (fld e.bits 44 1) (fld e.bits 45 4)
      | _ => none
    let d := match fe with
      | some k => d.addFlag f k e.ip e.n false
      | none => d
    -- once issue has stopped, what has not started is discarded (05 R165)
    if (d.unit (d.frond f).unit).any (fun u => u.phase == 1) then d.cqPump f 9 else d

end Sys2Proof.Machine
end

