-- ==== Sys2Proof/Machine/Sync.lean ====
section
/-! DEFINITION. One access of a master, whole: what the attention sequencer, the launch of a program and the evidence
buffer read and write (06 R201, 05 R132). -/

namespace Sys2Proof.Machine

/-- The piece of a new one-piece transfer is performed at once, on its own path, with the window check of kind k: status
and data (log 12). -/
def Dev.syncKind (d : Dev) (k : AccK) (x : Xfer) : Dev × Nat × Gran :=
  let at0 := x.addr 0
  if !d.allowedAt x.wset k at0 then
    (d.freeze x.mid k.code x.wset at0 x.ctx false, 5, 0#512)
  else
    let id := d.nextX
    let x := { x with id := id, n := 1, limit := 1 }
    let d := { d with nextX := id + 1, xfers := d.xfers ++ [x] }
    let w := at0 / 64
    let h := d.home (partOf at0)
    let a := d.hacc x 0
    let direct := d.viaRhizoid x 0
    let d := if x.kind.isRead then d else d.markTouch x.unit x.base
    let d := d.begin id
    let d :=
      if direct then
        let st := d.partStatus (partOf at0)
        if st != 0 then d.finishGr id 0 st 0#512
        else if x.kind.isRead then
          let (d, tr) := d.anyRead
          (((d.turnRhz x.mid false).bump (cFrd x.mid 9) x.size).directRead a .rhizoid tr).settleFor id h (w / 4)
        else
          let (d, tr) := d.anyWrite
          (((d.turnRhz x.mid true).bump (cFrd x.mid 10) x.size).directWrite a (some false) tr).settleFor id h (w / 4)
      else (d.countCache x).homeWhole a
    d.takeGr id

def Dev.syncAcc (d : Dev) (x : Xfer) : Dev × Nat × Gran := d.syncKind x.kind.acc x

/-- An access of its frond issued earlier that has not been performed holds an access: one of the same granule on the same
path, and an outstanding atomic of the granule (05 R152). -/
def Dev.accHeld (d : Dev) (x : Xfer) : Bool :=
  d.xfers.any (fun y => y.mid == x.mid && y.order < x.order && y.remote.isNone && y.kind != .waitm &&
    let same (i : Nat) : Bool := y.word i == x.word 0 && (y.kind.isAtomic || d.viaRhizoid y i == d.viaRhizoid x 0)
    y.gr.any (fun g => same g.i) || (List.range (y.limit - y.next)).any (fun k => same (y.next + k)))

/-- What an access of an item waits for: 0 nothing, 1 an earlier access or a gemma's claim, 2 + h a half-layer that is being
switched on (05 R152, 10 R328, 13 R441). -/
def Dev.accWait (d : Dev) (x : Xfer) : Nat :=
  let a := x.addr 0
  let h := d.home (partOf a)
  if d.accHeld x then 1
  else if d.viaRhizoid x 0 then
    (if d.claimHolds (x.word 0) x.kind.isRead (x.kind.isRead && d.unstableRead (d.hacc x 0)) then 1 else 0)
  else if d.targetStatus x.mid a == 0 && d.halfHeld h then 2 + h
  else 0

/-- A frond's own synchronous read of the granule at a word-aligned address. `home`: over the cache path. -/
def frondAcc (f : Nat) (u : WUnit) (ip : Nat) (k : XKind) (a : Nat) (g : Gran) (m : BitVec 64) (p : Bool) : Xfer :=
  { id := 0, mid := f, kind := k, base := a, n := 1, limit := 1, mask := m, data := [(0, g)], pois := if p then [0] else []
    afmt := 2, ip := ip, wset := u.wset, unit := u.key }

end Sys2Proof.Machine
end

