-- ==== Sys2Proof/Machine/Gemma.lean ====
section
/-! DEFINITION. The core of a gemma (10 R311-R316, R322, R331-R334): fetch, checks, exceptions, SRAM, base instructions
and CSRs. -/

namespace Sys2Proof.Machine

/-! ### Registers and SRAM -/

def Gemma.rx (g : Gemma) (n : Nat) : Word := if n == 0 then 0#32 else g.x.get n 0#32
def Gemma.px (g : Gemma) (n : Nat) : Bool := n != 0 && (g.xP.find n).isSome
def Gemma.setX (g : Gemma) (n : Nat) (w : Word) (p : Bool) : Gemma :=
  if n == 0 then g else { g with x := g.x.put n w, xP := if p then g.xP.put n () else g.xP.drop n }
def Gemma.rf (g : Gemma) (n : Nat) : Word := g.f.get n 0#32
def Gemma.pf (g : Gemma) (n : Nat) : Bool := (g.fP.find n).isSome
def Gemma.setF (g : Gemma) (n : Nat) (w : Word) (p : Bool) : Gemma :=
  { g with f := g.f.put n w, fP := if p then g.fP.put n () else g.fP.drop n }
def Gemma.vec (g : Gemma) (n : Nat) : VReg := g.v.get n {}
def Gemma.c (g : Gemma) (n : Nat) : Word := g.csr.get n 0#32
/-- The vector length in elements (10 R313). -/
def Gemma.vl (g : Gemma) : Nat := 32 * (g.c 0x803).toNat

/-- n bytes at an SRAM address as a number, with the marks of the granules they lie in. -/
def Gemma.bytes (g : Gemma) (a n : Nat) : Nat × Bool := osBits g.sram g.sramP 0 (8 * a) (8 * n)

/-- n bytes are written at an SRAM address. A poisoned write marks its granules; a clean one that covers a whole granule
clears its mark where `clear` (10 R331). -/
def Gemma.putBytes (g : Gemma) (a n v : Nat) (p clear : Bool) : Gemma :=
  if n == 0 then g
  else (List.range ((a + n - 1) / 64 - a / 64 + 1)).foldl (fun g i =>
    let k := a / 64 + i
    let lo := max a (64 * k)
    let hi := min (a + n) (64 * k + 64)
    let part := bitsAt v (8 * (lo - a)) (8 * (hi - lo))
    let new : Gran := BitVec.ofNat 512 (part * 2 ^ (8 * (lo - 64 * k)))
    { g with sram := g.sram.put k (gMerge (g.sram.get k 0#512) new (byteMask (lo - 64 * k) (hi - lo)))
             sramP := if p then g.sramP.put k () else if clear && hi - lo == 64 then g.sramP.drop k else g.sramP }) g

/-- A whole granule is written by a transfer. -/
def Gemma.putGran (g : Gemma) (k : Nat) (v : Gran) (p : Bool) : Gemma :=
  { g with sram := g.sram.put k v, sramP := if p then g.sramP.put k () else g.sramP.drop k }

/-! ### Endings (10 R333, R334) -/

/-- An exception ends the unit FAULTED after its drain, and raises PROG_EXCEPTION. -/
def Dev.gemExc (d : Dev) (g code ip st : Nat) : Dev :=
  let k := d.unitKey (gemmaMid g)
  let aux := code + ip % 2 ^ 16 * 2 ^ 8 + g % 8 * 2 ^ 24 + st * 2 ^ 27
  let d := d.raise (g / 512) { cls := 0, kind := 2, src := g, code := 0x0301, detail := aux, unit := k }
  d.stopUnit k 8 aux

def Dev.gemPoison (d : Dev) (g : Nat) : Dev :=
  d.stopUnit (d.unitKey (gemmaMid g)) 9 ((d.gemma g).pc % 2 ^ 16 * 2 ^ 8 + g % 8 * 2 ^ 24)

/-- READ_FAILED is detected when the transfer ends, and ends the unit while it still issues. -/
def Dev.gemLate (d : Dev) (g ip st : Nat) : Dev :=
  match d.unitOn (gemmaMid g) with
  | some u => if u.phase == 1 then d.gemExc g 10 ip st else d
  | none => d

/-! ### Issue -/

/-- The unit a gemma issues for. -/
def Dev.gemIssuing (d : Dev) (g : Nat) : Option WUnit :=
  match d.unitOn (gemmaMid g) with
  | some u =>
    let x := d.gemma g
    if u.phase == 1 && u.kind == 1 && x.running && !x.suspended && x.barrier.isNone && !d.isFrozen (gemmaMid g) then some u
    else none
  | none => none

/-- The instruction has issued; the next is at `next`. -/
def Dev.gemNext (d : Dev) (g next : Nat) : Dev :=
  (d.inc (cGem g 0)).modGemma g (fun x =>
    { x with ip := x.pc, pc := next % 2 ^ 32, waiting := false, order := x.order + 1, instret := x.instret + 1#64 })

def Dev.gemStep (d : Dev) (g : Nat) (i : RvI) : Dev := d.gemNext g ((d.gemma g).pc + i.size)

def Dev.gemWait (d : Dev) (g : Nat) : Dev := d.modGemma g (fun x => { x with waiting := true })

/-- What the fetch at pc gives (10 R312, R331): FETCH_END, a marked granule, or an instruction. -/
inductive Fetched where
  | past
  | poison
  | word (i : Option RvI)
  deriving DecidableEq, Repr

def Gemma.fetch (g : Gemma) : Fetched :=
  if g.len < g.pc + 2 then .past
  else
    let (h, p) := g.bytes g.pc 2
    if p then .poison
    else if h % 4 != 3 then .word (rvDecode16 h)
    else if g.len < g.pc + 4 then .past
    else
      let (w, p) := g.bytes g.pc 4
      if p then .poison else .word (some (rvDecode32 w))

/-- The core meets the instruction at pc for a command of its kind; an instruction of another kind leaves the gemma as it
is (log 1). -/
def Dev.gemGo (d : Dev) (g : Nat) (mine : RvI → GKind → Bool) (body : Dev → WUnit → RvI → Dev) : Dev :=
  match d.gemIssuing g with
  | none => d
  | some u =>
    let x := d.gemma g
    match x.fetch with
    | .past => d.gemExc g 5 x.pc 0
    | .poison => d.gemPoison g
    | .word none => d.gemExc g 1 x.pc 0
    | .word (some i) =>
      let k := i.kind (x.fcsr / 32)
      if k == .illegal then d.gemExc g 1 x.pc 0
      else if mine i k then body d u i else d

/-- The outcome of the checks (10 R333), and the instruction where they pass. -/
def Dev.gemChecked (d : Dev) (g : Nat) (c : Chk) (go : Dev → Dev) : Dev :=
  match c with
  | .ok => go d
  | .exc code => d.gemExc g code (d.gemma g).pc 0
  | .poison => d.gemPoison g
  | .stall => d

/-! ### Staging interlocks (10 R323) -/

/-- The granules of SRAM a transfer of the gemma has not finished with, among lo to hi. -/
def Xfer.holds (x : Xfer) (lo hi : Nat) : Bool :=
  (List.range x.limit).any (fun i =>
    let k := x.loc + i
    decide (lo ≤ k) && decide (k ≤ hi) &&
    (decide (x.next ≤ i) || x.gr.any (fun g => g.i == i && (x.kind.isRead || g.stage == 0)) || x.sent.any (fun s => s.2 == i)))

/-- An instruction that reads (wr = false) or writes bytes a to a + n - 1 stalls. -/
def Dev.gemStall (d : Dev) (g a n : Nat) (wr : Bool) : Bool :=
  n != 0 && d.xfers.any (fun x => x.mid == gemmaMid g &&
    (if wr then x.kind == .gSt || x.kind == .gCwr || x.kind == .gAtom else x.kind == .gLd || x.kind == .gCrd) &&
    x.holds (a / 64) ((a + n - 1) / 64))

/-! ### Base instructions -/

/-- A load's value from its bytes. -/
def rvLoad (f3 v : Nat) : Word :=
  if f3 == 0 then BitVec.ofInt 32 (sxN 8 v) else if f3 == 1 then BitVec.ofInt 32 (sxN 16 v) else BitVec.ofNat 32 v

/-- The checks of a base load or store of n bytes. -/
def memChk (x : Gemma) (rs1 a n : Nat) (st : Bool) : Chk :=
  checks [] st (x.px rs1) [(a % n != 0, 3), (decide (0x20000 < a + n), 4)]

def Dev.gemLoad (d : Dev) (g : Nat) (i : RvI) (fl : Bool) : Dev :=
  let x := d.gemma g
  let a := (x.rx i.rs1 + BitVec.ofInt 32 i.imm).toNat
  let n := 2 ^ (i.f3 % 4)
  d.gemChecked g (match memChk x i.rs1 a n false with
    | .ok => if d.gemStall g a n false then .stall else .ok
    | c => c) (fun d =>
    let (v, p) := x.bytes a n
    (d.modGemma g (fun x => if fl then x.setF i.rd (BitVec.ofNat 32 v) p else x.setX i.rd (rvLoad i.f3 v) p)).gemStep g i)

def Dev.gemStore (d : Dev) (g : Nat) (i : RvI) (fl : Bool) : Dev :=
  let x := d.gemma g
  let a := (x.rx i.rs1 + BitVec.ofInt 32 i.imm).toNat
  let n := 2 ^ (i.f3 % 4)
  d.gemChecked g (match memChk x i.rs1 a n false with
    | .ok => if d.gemStall g a n true then .stall else .ok
    | c => c) (fun d =>
    let (v, p) := if fl then (x.rf i.rs2, x.pf i.rs2) else (x.rx i.rs2, x.px i.rs2)
    (d.modGemma g (fun x => x.putBytes a n v.toNat p false)).gemStep g i)

/-- An FP32 operation: result, flags, and whether it goes to an x register. -/
def rvFp (i : RvI) (rm : Nat) (a b c : Word) (xa : Word) : Word × Nat × Bool :=
  let f (r : Word × Nat) : Word × Nat × Bool := (r.1, r.2, false)
  let x (r : Word × Nat) : Word × Nat × Bool := (r.1, r.2, true)
  match i.op with
  | 0x43 => f (rvFma rm false false a b c)
  | 0x47 => f (rvFma rm false true a b c)
  | 0x4B => f (rvFma rm true false a b c)
  | 0x4F => f (rvFma rm true true a b c)
  | _ =>
    match i.f7 with
    | 0x00 => f (rvFin rm [a, b] (rvAdd rm (f32 a) (f32 b)) 0)
    | 0x04 => f (rvFin rm [a, b] (rvAdd rm (f32 a) (f32 b).neg) 0)
    | 0x08 => f (rvFin rm [a, b] ((f32 a).mul (f32 b)) 0)
    | 0x0C => f (rvFin rm [a, b] ((f32 a).div (f32 b))
        (if (f32 b).isZero && !(f32 a).isZero && !(f32 a).isInf && !(f32 a).isNan then 8 else 0))
    | 0x2C => f (rvFin rm [a] (f32 a).sqrt 0)
    | 0x10 => (rvSgn i.f3 a b, 0, false)
    | 0x14 => f (rvMinMax (i.f3 == 1) a b)
    | 0x50 => x (rvCmp i.f3 a b)
    | 0x60 => x (rvToInt rm (i.rs2 == 1) a)
    | 0x68 => f (rvRound rm (Val.ofInt (if i.rs2 == 1 then (xa.toNat : Int) else xa.toInt)))
    | 0x70 => (if i.f3 == 1 then rvClass a else a, 0, true)
    | _ => (xa, 0, false)

/-- An FP instruction: its result is poisoned by any operand it used (10 R331). -/
def Dev.gemFp (d : Dev) (g : Nat) (i : RvI) : Dev :=
  let x := d.gemma g
  let rs3 := i.f7 / 4
  let rm := if i.f3 == 7 then x.fcsr / 32 % 8 else i.f3
  let fma := i.op != 0x53
  let two := fma || i.f7 ≤ 0x14 || i.f7 == 0x50
  let fromX := !fma && (i.f7 == 0x68 || i.f7 == 0x78)
  let p := if fromX then x.px i.rs1 else x.pf i.rs1 || (two && x.pf i.rs2) || (fma && x.pf rs3)
  let (w, fl, toX) := rvFp i rm (x.rf i.rs1) (x.rf i.rs2) (x.rf rs3) (x.rx i.rs1)
  (d.modGemma g (fun x =>
    let x := { x with fcsr := x.fcsr ||| fl }
    if toX then x.setX i.rd w p else x.setF i.rd w p)).gemStep g i

/-- A base instruction (10 R311, log 13). A result computed from a poisoned register is poisoned (log 41). -/
def Dev.gemBase (d : Dev) (g : Nat) (i : RvI) : Dev :=
  let x := d.gemma g
  let pc := x.pc
  let a := x.rx i.rs1
  let b := x.rx i.rs2
  let imm : Word := BitVec.ofInt 32 i.imm
  let set (w : Word) (p : Bool) : Dev := (d.modGemma g (fun x => x.setX i.rd w p)).gemStep g i
  let link (d : Dev) : Dev := d.modGemma g (fun x => x.setX i.rd (BitVec.ofNat 32 (pc + i.size)) false)
  match i.op with
  | 0x37 => set imm false
  | 0x17 => set (BitVec.ofNat 32 pc + imm) false
  | 0x6F => (link d).gemNext g (BitVec.ofNat 32 pc + imm).toNat
  | 0x67 => d.gemChecked g (if x.px i.rs1 then .poison else .ok) (fun d =>
      (link d).gemNext g ((a + imm).toNat / 2 * 2))
  | 0x63 => d.gemChecked g (if x.px i.rs1 || x.px i.rs2 then .poison else .ok) (fun d =>
      if rvBranch i.f3 a b then d.gemNext g (BitVec.ofNat 32 pc + imm).toNat else d.gemStep g i)
  | 0x03 => d.gemLoad g i false
  | 0x07 => d.gemLoad g i true
  | 0x23 => d.gemStore g i false
  | 0x27 => d.gemStore g i true
  | 0x13 => set (rvAlu i.f3 (i.f3 == 5 && i.f7 == 32) a imm) (x.px i.rs1)
  | 0x33 => set (if i.f7 == 1 then rvMul i.f3 a b else rvAlu i.f3 (i.f7 == 32) a b) (x.px i.rs1 || x.px i.rs2)
  | 0x0F => d.gemStep g i
  | _ => d.gemFp g i

/-! ### CSRs (10 R322) -/

/-- A CSR's value; cycle counters are free values (log 14). -/
def Dev.gemCsr (d : Dev) (g : Nat) (u : WUnit) (n : Nat) : Word :=
  let x := d.gemma g
  let cyc := Config.freeValue d.free
  if n == 1 then BitVec.ofNat 32 (x.fcsr % 32)
  else if n == 2 then BitVec.ofNat 32 (x.fcsr / 32 % 8)
  else if n == 3 then BitVec.ofNat 32 x.fcsr
  else if n == 0xC00 then cyc.setWidth 32
  else if n == 0xC80 then (cyc >>> 32).setWidth 32
  else if n == 0xC02 then x.instret.setWidth 32
  else if n == 0xC82 then (x.instret >>> 32).setWidth 32
  else if n == 0xCC0 then x.sticky.setWidth 32
  else if n == 0xCC1 then BitVec.ofNat 32 x.commitId
  else if n == 0xCC2 then BitVec.ofNat 32 d.frame
  else if n == 0xCC3 then BitVec.ofNat 32 (u.carried % 256)
  else x.c n

/-- A write of a CSR, by its listed bits. -/
def Gemma.setCsr (x : Gemma) (n : Nat) (w : Word) : Gemma :=
  let put (v : Nat) : Gemma := { x with csr := x.csr.put n (BitVec.ofNat 32 v) }
  let v := w.toNat
  if n == 1 then { x with fcsr := x.fcsr / 32 * 32 + v % 32 }
  else if n == 2 then { x with fcsr := v % 8 * 32 + x.fcsr % 32 }
  else if n == 3 then { x with fcsr := v % 256 }
  else if n == 0x800 then put (v % 2 ^ 8)
  else if n == 0x801 then put (v % 2 ^ 12)
  else if n == 0x802 then put (v % 16)
  else if n == 0x803 then put (if 1 ≤ v % 8 && v % 8 ≤ 4 then v % 8 else 4)
  else if n == 0x804 || n == 0x805 then put (v % 2 ^ 17)
  else if n == 0x806 || n == 0x807 then put v
  else { x with csr := x.csr.put n (x.c n &&& w &&& 0xF#32) }

/-- A Zicsr instruction; a poisoned value written to a CSR ends the unit (10 R331). -/
def Dev.gemCsrOp (d : Dev) (g : Nat) (u : WUnit) (i : RvI) : Dev :=
  let x := d.gemma g
  let n := (i.imm % 4096).toNat
  let useImm := decide (4 ≤ i.f3)
  let src : Word := if useImm then BitVec.ofNat 32 i.rs1 else x.rx i.rs1
  let writes := i.f3 % 4 == 1 || i.rs1 != 0
  d.gemChecked g (if writes && !useImm && x.px i.rs1 then .poison else .ok) (fun d =>
    let old := d.gemCsr g u n
    let d := if n == 0xC00 || n == 0xC80 then { d with free := d.free + 1 } else d
    let new := if i.f3 % 4 == 1 then src else if i.f3 % 4 == 2 then old ||| src else old &&& ~~~ src
    (d.modGemma g (fun x => (if writes then x.setCsr n new else x).setX i.rd old false)).gemStep g i)

end Sys2Proof.Machine
end

