-- ==== Sys2Proof/Machine/GemmaExt.lean ====
section
/-! DEFINITION. The bank extension's transfer and control instructions, commit, ending and the end of transfers (10
R317-R323, R326-R332, R336). -/

namespace Sys2Proof.Machine

/-! ### Operands -/

/-- The linear address of a gemma bank address (10 R317). -/
def gbaLin (g a : Nat) : Nat := g / 8 * 2 ^ 32 + g % 8 / 4 * 2 ^ 31 + g % 4 * 2 ^ 29 + a % 2 ^ 29

/-- The global bank of local bank j of a gemma. -/
def localBank (g j : Nat) : Nat := bankOf (gbaLin g (j * 2 ^ 27))

def sdFirst (w : Word) : Nat := bf w 9 0
def sdCount (w : Word) : Nat := bf w 17 10 + 1
def sdBad (w : Word) : Bool := bf w 31 18 != 0
/-- A transfer operand that leaves staging (10 R312). -/
def sdRange (w : Word) : Bool := decide (1024 < sdFirst w + sdCount w)

/-- A range of n granules at a GBA that is no range of one bank (10 R319). -/
def gbaBad (a n : Nat) : Bool := decide (2 ^ 29 ≤ a) || a % 64 != 0 || decide (2 ^ 27 < a % 2 ^ 27 + 64 * n)

/-- The address of a cache-path instruction. -/
def Gemma.caddr (x : Gemma) (rs1 : Nat) : Nat := (x.c 0x800).toNat * 2 ^ 32 + (x.rx rs1).toNat

/-- The module a REMOTE access goes to; none for the module itself (10 R319). -/
def Dev.gemRemote (d : Dev) (x : Gemma) (remote : Bool) : Option Nat :=
  let m := (x.c 0x801).toNat
  if remote && m != bf (d.reg 0) 11 0 then some m else none

/-- The transfer of a gemma at its instruction. -/
def Dev.gemXfer (d : Dev) (g : Nat) (u : WUnit) (k : XKind) (base n loc : Nat) : Xfer :=
  let x := d.gemma g
  { id := 0, mid := gemmaMid g, kind := k, base := base, n := n, rowG := n, limit := n, loc := loc, ip := x.pc
    order := x.order, wset := u.wset, unit := u.key }

/-- Data and poison of staging granules captured by a transfer. -/
def Xfer.capture (xf : Xfer) (x : Gemma) : Xfer :=
  { xf with data := (List.range xf.n).map (fun i => (i, x.sram.get (xf.loc + i) 0#512))
            pois := (List.range xf.n).filter (fun i => (x.sramP.find (xf.loc + i)).isSome) }

/-! ### Bank instructions (10 R326, R330) -/

def XKind.isBank : XKind → Bool
  | .gLd | .gSt | .gFill => true
  | _ => false

/-- The bank still runs an instruction of the gemma. -/
def Dev.bankBusy (d : Dev) (g a : Nat) : Bool :=
  d.xfers.any (fun x => x.mid == gemmaMid g && x.kind.isBank && bankOf x.base == bankOf a)

/-- An outstanding atomic of the gemma holds later accesses to its granule (10 R323, 05 R152). -/
def Dev.gemAtomHeld (d : Dev) (g a n : Nat) : Bool :=
  d.xfers.any (fun x => x.mid == gemmaMid g && x.kind.isAtomic && x.remote.isNone &&
    (List.range x.limit).any (fun i => decide (a ≤ x.addr i) && decide (x.addr i < a + 64 * n)))

/-- The subarrays of a range are claimed, and their rows opened (10 R326). -/
def Dev.claim (d : Dev) (g a n : Nat) : Dev :=
  let rows := (List.range ((a + 64 * n - 1) / 2 ^ 13 - a / 2 ^ 13 + 1)).map (fun i => (a / 2 ^ 13 + i) * 2 ^ 13)
  let d := rows.foldl (fun d r => d.openRow r none) d
  d.modGemma g (fun x => { x with claims := x.claims ++ rows.map (fun r => (bankOf r, r / 2 ^ 13 % 4)) })

/-- The claims of a bank are released. -/
def Dev.unclaim (d : Dev) (g b : Nat) : Dev :=
  d.modGemma g (fun x => { x with claims := x.claims.filter (fun c => c.1 != b) })

/-- A bank transfer that was issued moves its granules. -/
def Dev.bankRun (d : Dev) (g : Nat) (id : Nat) (rt : List ReadTry) (wt : List WriteTry) : Dev :=
  match d.xfer id with
  | none => d
  | some x =>
    let d := d.claim g x.base x.limit
    (List.range x.limit).foldl (fun d i =>
      let a := d.hacc x i
      let d := d.begin id
      let st := d.partStatus (partOf x.base)
      if st != 0 then d.finishGr id i st 0#512
      else if x.kind == .gLd then (d.inc (cGem g 1)).directRead a .gemma (tryAt rt i)
      else ((d.inc (cGem g 2)).markTouch x.unit (x.addr i)).directWrite a none (wtryAt wt i)) d

/-- A bank instruction issues and runs; a second one for its bank stalls issue (10 R323). -/
def Dev.bankIssue (d : Dev) (g : Nat) (i : RvI) (xf : Xfer) (rt : List ReadTry) (wt : List WriteTry) : Dev :=
  if d.bankBusy g xf.base || d.gemAtomHeld g xf.base xf.n then d
  else
    let id := d.nextX
    ((d.gemStep g i).issue xf (d.gemma g).pc).bankRun g id rt wt

def Dev.doGbLd (d : Dev) (g : Nat) (u : WUnit) (i : RvI) (rt : List ReadTry) : Dev :=
  let x := d.gemma g
  let a := (x.rx i.rs1).toNat
  let sd := x.rx i.rs2
  let n := sdCount sd
  let c := checks [(i.rd != 0 || decide (2 ≤ i.f7), 1)] false (x.px i.rs1 || x.px i.rs2)
    [(sdRange sd, 4), (gbaBad a n || sdBad sd, 6)]
  d.gemChecked g c (fun d =>
    if d.gemStall g (0x10000 + 64 * sdFirst sd) (64 * n) true then d
    else d.bankIssue g i { d.gemXfer g u .gLd (gbaLin g a) n (1024 + sdFirst sd) with lu := i.f7 == 1 } rt [])

def Dev.doGbSt (d : Dev) (g : Nat) (u : WUnit) (i : RvI) (wt : List WriteTry) : Dev :=
  let x := d.gemma g
  let a := (x.rx i.rs1).toNat
  let sd := x.rx i.rs2
  let n := sdCount sd
  let c := checks [(i.rd != 0 || i.f7 != 0, 1)] false (x.px i.rs1 || x.px i.rs2)
    [(sdRange sd, 4), (gbaBad a n || sdBad sd, 6)]
  d.gemChecked g c (fun d =>
    if d.gemStall g (0x10000 + 64 * sdFirst sd) (64 * n) false then d
    else d.bankIssue g i ((d.gemXfer g u .gSt (gbaLin g a) n (1024 + sdFirst sd)).capture x) [] wt)

/-- The pattern of a fill in a granule. -/
def fillGran (w : Word) : Gran := gOfWords (List.replicate 16 w)

def Dev.doGbFill (d : Dev) (g : Nat) (u : WUnit) (i : RvI) (wt : List WriteTry) : Dev :=
  let x := d.gemma g
  let a := (x.rx i.rs1).toNat
  let n := cnt (bf (x.rx i.rs2) 7 0) 256
  let c := checks [(i.rd != 0 || i.f7 != 0, 1)] false (x.px i.rs1 || x.px i.rs2) [(gbaBad a n, 6)]
  d.gemChecked g c (fun d =>
    let xf := d.gemXfer g u .gFill (gbaLin g a) n 0
    d.bankIssue g i { xf with data := (List.range n).map (fun j => (j, fillGran (x.c 0x806))) } [] wt)

/-- Accesses that a claim in a bank held come to it anew. -/
def Dev.unhold (d : Dev) (b : Nat) : Dev :=
  { d with xfers := d.xfers.map (fun x => if bankOf (x.addr x.next) == b then { x with held := false } else x) }

/-- A bank instruction's claim ends; the read of a page for its seal keeps its own (10 R328, R343). -/
def Dev.claimOver (d : Dev) (g b : Nat) : Dev :=
  if d.sealRuns.any (fun r => r.claim && bankOf (r.page * 4096) == b) then d else (d.unclaim g b).unhold b

/-- CLAIM_END: the bank instruction's claim ends (10 R328). -/
def Dev.claimEnd (d : Dev) (g j : Nat) : Dev := d.claimOver g (localBank g j)

/-! ### Cache-path instructions -/

/-- Cache-path transfers outstanding. -/
def Dev.cachePath (d : Dev) (g : Nat) : Nat :=
  (d.xfers.filter (fun x => x.mid == gemmaMid g && !x.kind.isBank && x.kind != .gWaitm)).length

/-- GB.CRD and GB.CWR. -/
def Dev.doGbC (d : Dev) (g : Nat) (u : WUnit) (i : RvI) (wr : Bool) : Dev :=
  let x := d.gemma g
  let a := x.caddr i.rs1
  let sd := x.rx i.rs2
  let n := sdCount sd
  let lu := !wr && i.f7 % 2 == 1
  let h := i.f7 / 2 % 2 == 1
  let rem := i.f7 / 4 % 2 == 1
  let c := checks [(i.rd != 0 || decide (8 ≤ i.f7) || (wr && i.f7 % 2 == 1) || (lu && rem), 1)] false
    (x.px i.rs1 || x.px i.rs2)
    [(a % 64 != 0, 3), (sdRange sd, 4), (sdBad sd, 6), (rem && decide (4095 < (x.c 0x801).toNat), 8)]
  d.gemChecked g c (fun d =>
    if 8 ≤ d.cachePath g || d.gemStall g (0x10000 + 64 * sdFirst sd) (64 * n) (!wr) then d
    else
      let remote := d.gemRemote x rem
      let xf := d.gemXfer g u (if wr then .gCwr else .gCrd) a n (1024 + sdFirst sd)
      let xf := { xf with lu := lu, remote := remote, host := if h then some d.swizzle else none }
      let xf := if wr then xf.capture x else xf
      (d.gemStep g i).issue xf x.pc)

def Dev.doGbAtom (d : Dev) (g : Nat) (u : WUnit) (i : RvI) : Dev :=
  let x := d.gemma g
  let a := x.caddr i.rs1
  let sd := x.rx i.rs2
  let n := sdCount sd
  let aop := i.f7 % 4
  let afmt := i.f7 / 4 % 4
  let rem := i.f7 / 16 % 2 == 1
  let c := checks [(i.rd != 0 || decide (32 ≤ i.f7), 1), (aop == 3 || afmt == 3, 7)] false (x.px i.rs1 || x.px i.rs2)
    [(a % 64 != 0, 3), (sdRange sd, 4), (sdBad sd, 6), (rem && decide (4095 < (x.c 0x801).toNat), 8)]
  d.gemChecked g c (fun d =>
    if 8 ≤ d.cachePath g || d.gemStall g (0x10000 + 64 * sdFirst sd) (64 * n) false then d
    else
      let xf := (d.gemXfer g u .gAtom a n (1024 + sdFirst sd)).capture x
      (d.gemStep g i).issue { xf with aop := aop, afmt := afmt, remote := d.gemRemote x rem } x.pc)

/-- The transfers that GB.WAIT names: local banks by mask, and the cache path. -/
def Dev.gemOutstanding (d : Dev) (g m : Nat) : Bool :=
  d.xfers.any (fun x => x.mid == gemmaMid g &&
    (if x.kind.isBank then m.testBit (x.base / 2 ^ 27 % 4) else m.testBit 4))

def Dev.doGbWait (d : Dev) (g : Nat) (i : RvI) : Dev :=
  d.gemChecked g (checks [(i.rd != 0 || i.rs1 != 0 || i.rs2 != 0 || decide (32 ≤ i.f7), 1)] false false []) (fun d =>
    if d.gemOutstanding g i.f7 then d.gemWait g else d.gemStep g i)

/-! ### Control instructions -/

/-- Every earlier transfer has ended, and every write and atomic has landed. -/
def Dev.gemDone (d : Dev) (g : Nat) : Bool := !d.xfers.any (fun x => x.mid == gemmaMid g)

/-- The ID of the first gemma to reach the barrier of a unit. -/
def Dev.barrierId (d : Dev) (u : WUnit) : Option Nat := u.gemList.findSome? (fun g => (d.gemma g).barrier)

def Dev.doGbCommit (d : Dev) (g : Nat) (u : WUnit) (id : Nat) (clean : Bool) : Dev :=
  let x := d.gemma g
  d.gemChecked g (checks [(id == 0xFFFF || !clean, 1)] false false []) (fun d =>
    if !d.gemDone g then d.gemWait g
    else if x.wrFail != 0 then d.stopUnit u.key 7 0
    else match d.barrierId u with
      | some b => if b != id then d.gemExc g 9 x.pc 0
        else (d.modGemma g (fun x => { x with barrier := some id, ip := x.pc, waiting := true })).gemWait g
      | none => d.modGemma g (fun x => { x with barrier := some id, ip := x.pc, waiting := true }))

/-- GEMMA_COMMIT_BARRIER: every selected gemma has reached the barrier or its frame-end (10 R332, 02 R62, R63). -/
def Dev.gemBarrier (d : Dev) (k : Nat) : Dev :=
  match d.unit k with
  | none => d
  | some u =>
    if u.kind != 1 || u.phase != 1 then d
    else match d.barrierId u with
      | none => d
      | some id =>
        if u.gemList.all (fun g => (d.gemma g).barrier.isSome || (d.gemma g).fend) then
          let d := d.modUnit k (fun u => { u with lastCommit := id, touched := 0#8, touchedOther := false })
          u.gemList.foldl (fun d g =>
            if (d.gemma g).barrier.isSome then
              (d.modGemma g (fun x => { x with barrier := none, commitId := id })).gemNext g ((d.gemma g).pc + 4)
            else d.modGemma g (fun x => { x with commitId := id })) d
        else d

def Dev.doGbFend (d : Dev) (g : Nat) (u : WUnit) (clean : Bool) : Dev :=
  let x := d.gemma g
  d.gemChecked g (checks [(!clean, 1)] false false []) (fun d =>
    if !d.gemDone g then d.gemWait g
    else if x.wrFail != 0 then d.stopUnit u.key 7 0
    else
      let d := (d.inc (cGem g 0)).modGemma g (fun x => { x with fend := true, running := false, ip := x.pc, waiting := true })
      if u.gemList.all (fun g => (d.gemma g).fend) then d.endUnit u.key 0 0 0 else d)

def Dev.doGbSig (d : Dev) (g : Nat) (u : WUnit) (i : RvI) : Dev :=
  let x := d.gemma g
  let a := x.caddr i.rs1
  let rem := i.f7 == 1
  let c := checks [(i.rd != 0 || decide (2 ≤ i.f7), 1)] false (x.px i.rs1)
    [(a % 4 != 0, 3), (rem && decide (4095 < (x.c 0x801).toNat), 8)]
  d.gemChecked g c (fun d =>
    if x.wrFail != 0 then d.stopUnit u.key 7 0
    else if 8 ≤ d.cachePath g then d
    else
      let o := a % 64
      let xf := d.gemXfer g u .gSig a 1 0
      (d.gemStep g i).issue { xf with size := 4, mask := byteMask o 4, afmt := 2, remote := d.gemRemote x rem
                                      data := [(0, BitVec.ofNat 512 ((x.rx i.rs2).toNat * 2 ^ (8 * o)))]
                                      pois := if x.px i.rs2 then [0] else [] } x.pc)

/-- GB.WAITM issues its read; issue stays there until the condition holds. -/
def Dev.doGbWaitm (d : Dev) (g : Nat) (u : WUnit) (i : RvI) : Dev :=
  let x := d.gemma g
  let a := x.caddr i.rs1
  let rem := i.f7 / 8 % 2 == 1
  let c := checks [(i.rd != 0 || decide (16 ≤ i.f7) || decide (6 ≤ i.f7 % 8), 1)] false (x.px i.rs1 || x.px i.rs2)
    [(a % 4 != 0, 3), (rem && decide (4095 < (x.c 0x801).toNat), 8)]
  if d.xfers.any (fun y => y.mid == gemmaMid g && y.kind == .gWaitm) then d.gemWait g
  else d.gemChecked g c (fun d =>
    let xf := d.gemXfer g u .gWaitm a 1 0
    (d.gemWait g).issue { xf with size := 4, mask := byteMask (a % 64) 4, aop := i.f7 % 8, remote := d.gemRemote x rem
                                  data := [(1, (x.rx i.rs2).setWidth 512)] } x.pc)

/-- GB_WAITM_POLL: the interval has expired, and the word is read again. -/
def Dev.gemPoll (d : Dev) (g : Nat) : Dev :=
  match d.gemIssuing g with
  | none => d
  | some _ => match d.xfers.find? (fun x => x.mid == gemmaMid g && x.kind == .gWaitm && x.next == 1 && x.gr.isEmpty && x.sent.isEmpty) with
    | some x => d.modXfer x.id (fun e => { e with next := 0 })
    | none => d

def Dev.doGbInfl (d : Dev) (g : Nat) (i : RvI) : Dev :=
  let x := d.gemma g
  let a := (x.rx i.rs1).toNat
  let n := (x.rx i.rs2).toNat
  let c := checks [(i.rd != 0 || decide (4 ≤ i.f7), 1)] false (x.px i.rs1 || x.px i.rs2)
    [(decide (2 ^ 29 ≤ a) || a % 64 != 0 || n % 64 != 0 || decide (2 ^ 27 < a % 2 ^ 27 + n), 6)]
  d.gemChecked g c (fun d =>
    (d.modGemma g (fun x => { x with infl := if n == 0 then x.infl.drop (i.f7 % 4) else x.infl.put (i.f7 % 4) (gbaLin g a, n) })).gemStep g i)

def Dev.doGbCrc (d : Dev) (g : Nat) (i : RvI) : Dev :=
  let x := d.gemma g
  let a := (x.rx i.rs1).toNat
  let n := (x.rx i.rs2).toNat
  let c := checks [(i.f7 != 0, 1)] false (x.px i.rs1 || x.px i.rs2)
    [(a % 4 != 0, 3), (decide (a < 0x10000) || decide (0x20000 < a + n), 4), (n % 4 != 0 || n == 0 || decide (16384 < n), 6)]
  d.gemChecked g c (fun d =>
    if d.gemStall g a n false then d
    else
      let bs := (List.range n).map (fun j => gByte (x.sram.get ((a + j) / 64) 0#512) ((a + j) % 64))
      let p := (List.range ((a + n - 1) / 64 - a / 64 + 1)).any (fun j => (x.sramP.find (a / 64 + j)).isSome)
      let r := crc32cRaw (x.c 0x807) bs
      (d.modGemma g (fun x => ({ x with csr := x.csr.put 0x807 r }).setX i.rd (~~~ r) p)).gemStep g i)

/-- FEXP2 (10 R324). Between 127 and 128 the manual states no bound: the value is free (log 9). -/
def fExp2 (x : Word) : Word :=
  match f32 x with
  | .nan _ => canonNan
  | .inf s => if s then 0#32 else 0x7F800000#32
  | .num s m e =>
    let v := Val.num s m e
    if !(v.lt (.num false 128 0)) then 0x7F800000#32
    else if (Val.num false 127 0).lt v then Config.elementary 7 x
    else if v.lt (.num true (126 * fxLog2e) (-80)) then 0#32
    else held 7 x (fxExp2 s (fxOf m e)) 10 (if v.lt (.num true 126 0) then .num false 1 (-150) else val0)

def Dev.doFexp2 (d : Dev) (g : Nat) (i : RvI) : Dev :=
  let x := d.gemma g
  d.gemChecked g (checks [(i.rs2 != 0 || i.f7 != 0, 1)] false false []) (fun d =>
    (d.modGemma g (fun y => y.setF i.rd (fExp2 (x.rf i.rs1)) (x.pf i.rs1))).gemStep g i)

def Dev.doGbFence (d : Dev) (g : Nat) (i : RvI) (clean : Bool) : Dev :=
  d.gemChecked g (checks [(!clean, 1)] false false []) (fun d =>
    if d.gemDone g then d.gemStep g i else d.gemWait g)

/-! ### Completion of a gemma's accesses -/

def Dev.gemSticky (d : Dev) (g k st : Nat) : Dev :=
  let m : BitVec 3 := if st == 1 then 1#3 else if st == 2 then 2#3 else if st == 3 then 4#3 else 0#3
  (d.modGemma g (fun x => { x with sticky := x.sticky ||| m })).markSticky k st

/-- A read piece of a gemma is delivered to staging, or its word to GB.WAITM (10 R319, R321, R331). -/
def Dev.gemDeliver (d : Dev) (x : Xfer) (r : XGr) : Dev :=
  let g := x.mid - 0x100
  let fail := decide (4 ≤ r.status)
  let p := r.status == 1
  let d := d.modXfer x.id (fun e => { e with gr := e.gr.filter (fun y => y.i != r.i), done := e.done + 1
                                             worst := if fail && e.worst == 0 then r.status else e.worst })
  let d := d.gemSticky g x.unit r.status
  let v := if fail then 0#512 else r.data
  if x.kind == .gWaitm then
    let w : Word := BitVec.ofNat 32 (bitsAt v.toNat (8 * (x.base % 64)) 32)
    let val : Word := (x.data.get 1 0#512).setWidth 32
    if fail then (d.endXfer x.id).gemLate g x.ip r.status
    else if (d.gemIssuing g).isNone then d.endXfer x.id
    else if p then (d.endXfer x.id).gemPoison g
    else if waitmCond x.aop w val then (d.endXfer x.id).gemNext g ((d.gemma g).pc + 4)
    else d.modXfer x.id (fun e => { e with done := 0 })
  else d.modGemma g (fun y => y.putGran (x.loc + r.i) v p)

/-- A write or atomic piece of a gemma is acknowledged; one that failed ends a FILL (02 R65). -/
def Dev.gemLanded (d : Dev) (x : Xfer) (r : XGr) : Dev :=
  let d := d.modXfer x.id (fun e => { e with gr := e.gr.filter (fun y => y.i != r.i), done := e.done + 1 })
  if 4 ≤ r.status && (d.unit x.unit).any (fun u => u.kind == 3) then d.stopUnit x.unit 7 r.status
  else if 4 ≤ r.status then d.modGemma (x.mid - 0x100) (fun y => { y with wrFail := if y.wrFail == 0 then r.status else y.wrFail })
  else d

/-- A transfer of which nothing is left in flight ends: its interlocks and claims are released, and READ_FAILED is found
(10 R319, R333). -/
def Dev.gemXferDone (d : Dev) (g : Nat) (x : Xfer) : Dev :=
  let d := d.endXfer x.id
  let d := if x.kind.isBank then d.claimOver g (bankOf x.base) else d
  if x.worst != 0 then d.gemLate g x.ip x.worst else d

/-- GEMMA_TRANSFER_END: the pieces that are ready are delivered, and a transfer with none left ends. -/
def Dev.gemXferEnd (d : Dev) (g id : Nat) : Dev :=
  match d.xfer id with
  | none => d
  | some x =>
    if x.mid != gemmaMid g then d
    else
      let d := (x.gr.filter (fun r => r.stage == 1)).foldl (fun d r =>
        if x.kind.isRead then d.gemDeliver x r else d.gemLanded x r) d
      match d.xfer id with
      | none => d
      | some x => if x.next == x.limit && x.gr.isEmpty && x.sent.isEmpty && x.kind != .gWaitm then d.gemXferDone g x else d

end Sys2Proof.Machine
end

