-- ==== Sys2Proof/Machine/GemmaVec.lean ====
section
/-! DEFINITION. The vector instructions of a gemma (10 R313, R320, R324). -/

namespace Sys2Proof.Machine

/-! ### Registers -/

def VReg.at' (v : VReg) (l : Nat) : Word := v.els.getD l 0#32

/-- The first elements of a register are replaced; those beyond keep their values. -/
def VReg.set (v : VReg) (ws : List Word) (int p : Bool) : VReg :=
  { els := ws ++ ((List.range 128).drop ws.length).map v.at', int := int, pois := p }

/-- Sticky flags of gvflags from an update's flags: NAN, OVF, and INT_SAT at bit 3. -/
def gvFlag (fl : CellFlags) (clamp : Bool) : Nat :=
  b2n (fl.getLsbD 0) + 2 * b2n (fl.getLsbD 1) + 4 * b2n clamp + 8 * b2n (fl.getLsbD 2)

def Gemma.flagIn (x : Gemma) (m : Nat) : Gemma := { x with csr := x.csr.put 0x808 (x.c 0x808 ||| BitVec.ofNat 32 m) }

/-! ### Staging operands (10 R320) -/

/-- The format code, and whether it is one of staging operands. -/
def Gemma.gfmt (x : Gemma) : Nat := (x.c 0x802).toNat
def gvBad (f : Nat) : Bool := decide (13 ≤ f)

/-- Bytes of a group, and the address of group q's scale byte. -/
def grpBytes (f : Nat) : Nat := 4 * fmtBits f
def Gemma.scaleAddr (x : Gemma) (a q : Nat) : Int :=
  (x.c 0x805).toNat + ((a + q * grpBytes x.gfmt : Nat) - (x.c 0x804).toNat : Int).fdiv (grpBytes x.gfmt : Int)

/-- The operand, or a scale byte of it, leaves staging. -/
def Gemma.opOut (x : Gemma) (a : Nat) : Bool :=
  let n := (x.c 0x803).toNat
  decide (a < 0x10000) || decide (0x20000 < a + n * grpBytes x.gfmt) ||
  (fmtMx x.gfmt && (List.range n).any (fun q =>
    decide (x.scaleAddr a q < 0x10000) || decide ((0x1FFFF : Int) < x.scaleAddr a q)))

/-- The operand is still being written (or, for a store, read) by a transfer. -/
def Dev.opStall (d : Dev) (g a : Nat) (wr : Bool) : Bool :=
  let x := d.gemma g
  let n := (x.c 0x803).toNat
  d.gemStall g a (n * grpBytes x.gfmt) wr ||
  (fmtMx x.gfmt && (List.range n).any (fun q => d.gemStall g (x.scaleAddr a q).toNat 1 wr))

/-- Element l: its code, scale byte and poison. -/
def Gemma.elem (x : Gemma) (a l : Nat) : Nat × Nat × Bool :=
  let f := x.gfmt
  let (c, p) := osBits x.sram x.sramP 0 (8 * a + l * fmtBits f) (fmtBits f)
  if fmtMx f then
    let (s, ps) := x.bytes (x.scaleAddr a (l / 32)).toNat 1
    (c, s, p || ps)
  else (c, 127, p)

def Gemma.elems (x : Gemma) (a : Nat) : List (Nat × Nat × Bool) := (List.range x.vl).map (x.elem a)

/-- The checks of an instruction with a staging operand: unused fields, format and classes, the address. -/
def Dev.opChk (d : Dev) (g rs1 : Nat) (ill fmt : Bool) (wr : Bool) : Chk :=
  let x := d.gemma g
  let a := (x.rx rs1).toNat
  match checks [(ill, 1), (gvBad x.gfmt || fmt, 7)] false (x.px rs1) [(a % grpBytes x.gfmt != 0, 3), (x.opOut a, 4)] with
  | .ok => if d.opStall g a wr then .stall else .ok
  | c => c

/-- Whether a vector's class differs from the one the format needs. -/
def clsBad (x : Gemma) (v : Nat) (int : Bool) : Bool := (x.vec v).int != int

def hi16 (n : Nat) : Bool := decide (16 ≤ n)

/-- The codes of 32 values in a plain or integer format: codes and whether any was clamped. -/
def gvCodes (f : Nat) (c : OutCfg) (ws : List Word) : List Nat × Bool :=
  let rs := ws.map (fun w => if fmtInt f then outInt f 0 none w else if f == 12 then (w.toNat, false)
    else outPlain f c none (f32 w))
  (rs.map (·.1), rs.any (·.2))

def gvPack (f : Nat) (cs : List Nat) : Nat := cs.foldr (fun c a => a * 2 ^ fmtBits f + c) 0

/-- A vector is stored in staging: the gemma after it, and whether a value was clamped. -/
def Gemma.gvStored (x : Gemma) (a : Nat) (v : VReg) (c : OutCfg) : Gemma × Bool :=
  let f := x.gfmt
  let n := (x.c 0x803).toNat
  let grp (q : Nat) : List Word := (List.range 32).map (fun l => v.at' (32 * q + l))
  if fmtMx f then
    let bl := (List.range n).map (fun q => mxBlock f c ((grp q).map (fun w => (f32 w, (none : Option Nat)))))
    let x := x.putBytes a (n * grpBytes f) (gvPack f (bl.flatMap (·.2.1))) v.pois true
    (((List.range n).zip bl).foldl (fun x e => x.putBytes (x.scaleAddr a e.1).toNat 1 e.2.1 v.pois true) x,
      bl.any (fun b => b.2.2 != 0))
  else
    let (cs, cl) := gvCodes f c ((List.range n).flatMap grp)
    (x.putBytes a (n * grpBytes f) (gvPack f cs) v.pois true, cl)

def Dev.doGvSt (d : Dev) (g : Nat) (i : RvI) : Dev :=
  let x := d.gemma g
  d.gemChecked g (d.opChk g i.rs1 (i.rd != 0 || hi16 i.rs2) (clsBad x i.rs2 (fmtInt x.gfmt)) true) (fun d =>
    let r := x.gvStored (x.rx i.rs1).toNat (x.vec i.rs2) (outCfg (d.arrCtrl (g / 8)))
    ((d.setGemma g r.1).modGemma g (fun y => y.flagIn (gvFlag 0#3 r.2))).gemStep g i)

/-- A value and the exact products of pairs, rounded once; what is no NaN among them sets NAN where it gives one, whatever the
others are (04 R106). -/
def dotSum (c : Val) (l : List (Val × Val)) : Word × CellFlags :=
  let clean := l.filter (fun p => !p.1.isNan && !p.2.isNan)
  let s := clean.foldl (fun (a : Val) (p : Val × Val) => a.add (p.1.mul p.2)) (if c.isNan then val0 else c)
  if c.isNan || l.any (fun p => p.1.isNan || p.2.isNan) then (canonNan, if s.isNan then 1#3 else 0#3) else roundCell s false

/-- GV.DOT (10 R324). -/
def Dev.doGvDot (d : Dev) (g : Nat) (i : RvI) : Dev :=
  let x := d.gemma g
  let f := x.gfmt
  d.gemChecked g (d.opChk g i.rs1 (hi16 i.rs2) (fmtInt f || clsBad x i.rs2 false) false) (fun d =>
    let a := (x.rx i.rs1).toNat
    let v := x.vec i.rs2
    let r := dotSum (f32 (x.rf i.rd)) ((List.range x.vl).map (fun l => (f32 (v.at' l), codeVal f (x.elem a l))))
    let p := v.pois || x.pf i.rd || (x.elems a).any (fun e => e.2.2)
    (d.modGemma g (fun x => (x.setF i.rd r.1 p).flagIn (gvFlag r.2 false))).gemStep g i)

/-- An element-wise update of vd whose class is int: words, flags and poison. -/
def Dev.gvUpdate (d : Dev) (g : Nat) (i : RvI) (int p : Bool) (upd : Nat → Word × CellFlags) : Dev :=
  let x := d.gemma g
  let rs : List (Word × CellFlags) := (List.range x.vl).map upd
  let fl : CellFlags := rs.foldl (fun m r => m ||| r.2) 0#3
  let ws : List Word := rs.map (fun r => r.1)
  (d.modGemma g (fun x => ({ x with v := x.v.put i.rd ((x.vec i.rd).set ws int p) }).flagIn
    (gvFlag fl false))).gemStep g i

/-- An element of a staging operand as a vector's element. -/
def gvLoaded (f : Nat) (e : Nat × Nat × Bool) : Word × CellFlags :=
  if fmtInt f then (BitVec.ofInt 32 (twos (fmtBits f) e.1), 0#3) else roundCell (codeVal f e) (codeVal f e).isNan

/-- GV.LD (10 R324). -/
def Dev.doGvLd (d : Dev) (g : Nat) (i : RvI) : Dev :=
  let x := d.gemma g
  d.gemChecked g (d.opChk g i.rs1 (hi16 i.rd || i.rs2 != 0) false false) (fun d =>
    let a := (x.rx i.rs1).toNat
    d.gvUpdate g i (fmtInt x.gfmt) ((x.elems a).any (fun e => e.2.2)) (fun l => gvLoaded x.gfmt (x.elem a l)))

def Dev.doGvAxpy (d : Dev) (g : Nat) (i : RvI) : Dev :=
  let x := d.gemma g
  let f := x.gfmt
  d.gemChecked g (d.opChk g i.rs1 (hi16 i.rd) (fmtInt f || clsBad x i.rd false) false) (fun d =>
    let a := (x.rx i.rs1).toNat
    let s := f32 (x.rf i.rs2)
    let p := x.pf i.rs2 || (x.vec i.rd).pois || (x.elems a).any (fun e => e.2.2)
    d.gvUpdate g i false p (fun l => cellFloat 0 ((x.vec i.rd).at' l) s (codeVal f (x.elem a l))))

/-- GV.MINADD and GV.MAXADD (04 R117). -/
def Dev.gvMinMax (d : Dev) (g : Nat) (i : RvI) (mode : Nat) : Dev :=
  let x := d.gemma g
  let f := x.gfmt
  let int := fmtInt f
  d.gemChecked g (d.opChk g i.rs1 (hi16 i.rd || hi16 i.rs2) (clsBad x i.rd int || clsBad x i.rs2 int) false) (fun d =>
    let a := (x.rx i.rs1).toNat
    let p := (x.vec i.rs2).pois || (x.vec i.rd).pois || (x.elems a).any (fun e => e.2.2)
    let wrap := (d.arrCtrl (g / 8)).getLsbD 3
    d.gvUpdate g i int p (fun l =>
      let c := (x.vec i.rd).at' l
      let v := (x.vec i.rs2).at' l
      let e := x.elem a l
      if int then cellInt mode wrap c v.toInt (twos (fmtBits f) e.1) 0 0 else cellFloat mode c (f32 v) (codeVal f e)))

def Dev.doGvMinadd (d : Dev) (g : Nat) (i : RvI) : Dev := d.gvMinMax g i 3
def Dev.doGvMaxadd (d : Dev) (g : Nat) (i : RvI) : Dev := d.gvMinMax g i 4

def Dev.doGvMac (d : Dev) (g : Nat) (i : RvI) : Dev :=
  let x := d.gemma g
  let c := checks [(hi16 i.rd || hi16 i.rs1 || hi16 i.rs2, 1),
    (clsBad x i.rd false || clsBad x i.rs1 false || clsBad x i.rs2 false, 7)] false false []
  d.gemChecked g c (fun d =>
    let p := (x.vec i.rd).pois || (x.vec i.rs1).pois || (x.vec i.rs2).pois
    d.gvUpdate g i false p (fun l =>
      cellFloat 0 ((x.vec i.rd).at' l) (f32 ((x.vec i.rs1).at' l)) (f32 ((x.vec i.rs2).at' l))))

def Dev.doGvScal (d : Dev) (g : Nat) (i : RvI) : Dev :=
  let x := d.gemma g
  let c := checks [(hi16 i.rd || hi16 i.rs1, 1), (clsBad x i.rs1 false, 7)] false false []
  d.gemChecked g c (fun d =>
    let s := f32 (x.rf i.rs2)
    d.gvUpdate g i false ((x.vec i.rs1).pois || x.pf i.rs2) (fun l =>
      let a := f32 ((x.vec i.rs1).at' l)
      roundCell (a.mul s) (a.isNan || s.isNan)))

/-- A fill value by code and class (04 R118). -/
def gvFill (code : Nat) (int : Bool) : Word :=
  if code == 0 then 0#32
  else if code == 1 then (if int then 0x7FFFFFFF#32 else 0x7F800000#32)
  else (if int then 0x80000000#32 else 0xFF800000#32)

def Dev.doGvZero (d : Dev) (g : Nat) (i : RvI) : Dev :=
  let c := checks [(hi16 i.rd || decide (3 ≤ i.rs1) || decide (2 ≤ i.rs2), 1)] false false []
  d.gemChecked g c (fun d =>
    d.gvUpdate g i (i.rs2 == 1) false (fun _ => (gvFill i.rs1 (i.rs2 == 1), 0#3)))

/-! ### Reductions -/

def Gemma.lane (x : Gemma) (v : Nat) : List Word := (List.range x.vl).map ((x.vec v).at')

/-- A sum of words, ascending, rounded at each add (10 R324). -/
def gvSum : List Word → Word × CellFlags
  | [] => (0#32, 0#3)
  | a :: l => l.foldl (fun (s : Word × CellFlags) b =>
      let (r, f) := roundCell ((f32 s.1).add (f32 b)) ((f32 s.1).isNan || (f32 b).isNan)
      (r, s.2 ||| f)) ((if (f32 a).isNan then canonNan else a), 0#3)

/-- GV.RSUM. -/
def Dev.doGvRsum (d : Dev) (g : Nat) (i : RvI) : Dev :=
  let x := d.gemma g
  let c := checks [(hi16 i.rs1 || i.rs2 != 0, 1), (clsBad x i.rs1 false, 7)] false false []
  d.gemChecked g c (fun d =>
    let r := gvSum (x.lane i.rs1)
    (d.modGemma g (fun y => (y.setF i.rd r.1 (x.vec i.rs1).pois).flagIn (gvFlag r.2 false))).gemStep g i)

/-- The minimum or maximum of a float list by the rules of 04 R117. -/
def fPick (mx : Bool) (ws : List Word) : Word :=
  let r := ws.foldl (fun (b : Option Word) w =>
    if (f32 w).isNan then b else match b with
      | none => some w
      | some c => if (if mx then (f32 c).lt (f32 w) else (f32 w).lt (f32 c)) then some w else b) none
  r.getD canonNan

def iPick (mx : Bool) (ws : List Word) : Word :=
  match ws with
  | [] => 0#32
  | a :: l => l.foldl (fun b w => if (if mx then b.slt w else w.slt b) then w else b) a

/-- GV.RMIN and GV.RMAX. -/
def Dev.gvExtreme (d : Dev) (g : Nat) (i : RvI) (mx : Bool) : Dev :=
  let x := d.gemma g
  d.gemChecked g (checks [(hi16 i.rs1 || i.rs2 != 0, 1)] false false []) (fun d =>
    let v := x.vec i.rs1
    (d.modGemma g (fun y => if v.int then y.setX i.rd (iPick mx (x.lane i.rs1)) v.pois
      else y.setF i.rd (fPick mx (x.lane i.rs1)) v.pois)).gemStep g i)

def Dev.doGvRmin (d : Dev) (g : Nat) (i : RvI) : Dev := d.gvExtreme g i false
def Dev.doGvRmax (d : Dev) (g : Nat) (i : RvI) : Dev := d.gvExtreme g i true

/-- The index of the extreme: lowest among equals, NaNs never (10 R324). -/
def argPick (mx int : Bool) (ws : List Word) : Word :=
  let better (c w : Word) : Bool :=
    if int then (if mx then c.slt w else w.slt c)
    else
      let a := f32 c
      let b := f32 w
      !(a.isZero && b.isZero) && (if mx then a.lt b else b.lt a)
  let r := ((List.range ws.length).zip ws).foldl (fun (s : Option (Nat × Word)) e =>
    if !int && (f32 e.2).isNan then s else match s with
      | none => some e
      | some c => if better c.2 e.2 then some e else s) none
  match r with
  | some e => BitVec.ofNat 32 e.1
  | none => BitVec.allOnes 32

def Dev.gvArg (d : Dev) (g : Nat) (i : RvI) (mx : Bool) : Dev :=
  let x := d.gemma g
  d.gemChecked g (checks [(hi16 i.rs1 || i.rs2 != 0, 1)] false false []) (fun d =>
    let v := x.vec i.rs1
    (d.modGemma g (fun y => y.setX i.rd (argPick mx v.int (x.lane i.rs1)) v.pois)).gemStep g i)

def Dev.doGvArgmin (d : Dev) (g : Nat) (i : RvI) : Dev := d.gvArg g i false
def Dev.doGvArgmax (d : Dev) (g : Nat) (i : RvI) : Dev := d.gvArg g i true

end Sys2Proof.Machine
end

