-- ==== Sys2Proof/Machine/Seals.lean ====
section
/-! DEFINITION. Sealed pages: the seal commands and the check of a port's read (10 R338-R347). -/

namespace Sys2Proof.Machine

/-- Seal register r (0 ADDR_LO, 4 ADDR_HI, 8 CRC, 12 CMD, 16 RESULT) of port p (10 R347). -/
def sealReg (p r : Nat) : Nat := 0x09000100 + 0x20 * p + r

def Dev.setReg (d : Dev) (a : Nat) (w : Word) : Dev := { d with regs := d.regs.put a w }

def Dev.putSeal (d : Dev) (page : Nat) (e : Seal) : Dev := { d with seals := d.seals.put page e }
def Dev.dropSeal (d : Dev) (page : Nat) : Dev := { d with seals := d.seals.drop page }

/-- Seal entries of a stack. -/
def Dev.sealCount (d : Dev) (s : Nat) : Nat := (d.seals.filter (fun e => e.1 / 2 ^ 26 == s)).length

/-- A command's result: code, and the entry's state and breaker where the page was looked up. -/
def Dev.sealResult (d : Dev) (p code : Nat) (e : Option Seal) : Dev :=
  let st := match e with
    | some s => s.state
    | none => 0
  let br := match e with
    | some s => if s.state == 3 then s.breaker else 0
    | none => 0
  d.setReg (sealReg p 16) (pack [(code, 0), (st, 4), (br, 8), (1, 31)])

def Dev.sealEn (d : Dev) : Bool := (d.reg 0x09000000).getLsbD 3

/-- A gemma is READY (10 R346). -/
def Dev.gemReady (d : Dev) (g : Nat) : Bool :=
  let x := d.gemma g
  x.up && !x.retired && !x.fenced && !d.isFrozen (gemmaMid g) && !(d.frond (g / 8)).retired

/-- The page of a port's seal registers, in linear terms. -/
def Dev.sealPage (d : Dev) (p : Nat) (interleaved : Bool) : Nat :=
  let a := bf (d.reg (sealReg p 4)) 7 0 * 2 ^ 32 + (d.reg (sealReg p 0)).toNat / 4096 * 4096
  (if interleaved then hostToLinear d.swizzle a else a) / 4096

/-- A RESEAL or VERIFY reads in a bank. -/
def Dev.sealBusy (d : Dev) (b : Nat) : Bool := d.sealRuns.any (fun r => r.claim && bankOf (r.page * 4096) == b)

/-- The bank instruction of a RESEAL or VERIFY may start: its bank runs no other (10 R323, R343). -/
def Dev.sealMay (d : Dev) (page : Nat) : Bool :=
  !d.bankBusy (gemmaOf (page * 4096)) (page * 4096) && !d.sealBusy (bankOf (page * 4096))

/-- A seal command starts (10 R342): the window check first, then the enable and the target. -/
def Dev.sealStart (d : Dev) (p cmd : Nat) (interleaved : Bool) : Dev :=
  let page := d.sealPage p interleaved
  let entry := d.seals.find page
  let full := decide (16384 ≤ d.sealCount (page / 2 ^ 26)) && entry.isNone
  let crc := d.reg (sealReg p 8)
  let gem := gemmaOf (page * 4096)
  let run (d : Dev) (re : Bool) : Dev :=
    let bit := match entry with
      | some e => re || e.bit
      | none => re
    let d := if re then d.putSeal page ⟨true, 1, (entry.getD ⟨true, 1, 0#32, 0⟩).crc, 0⟩ else d
    let may := d.sealMay page
    let r : SealRun := { port := p, page := page, reseal := re, saved := entry, bit := bit, claim := may }
    let d := if may then d.claim gem (page * 4096) 64 else d
    let d := { d with sealRuns := d.sealRuns ++ [r] }
    (d.modGemma gem (fun x => { x with suspended := true })).setReg (sealReg p 16) (pack [(1, 0)])
  if cmd == 0 || 6 ≤ cmd then d.sealResult p 11 none
  else if !d.allowedAt (d.portSet p) .write (page * 4096) then d.sealResult p 4 none
  else if !d.sealEn then d.sealResult p 10 none
  else if d.isRetired (partOf (page * 4096)) then d.sealResult p 5 none
  else match cmd with
    | 1 =>
      if full then d.sealResult p 3 none
      else
        let e : Seal := { bit := true, state := 1, crc := crc }
        (d.putSeal page e).sealResult p 0 (some e)
    | 2 =>
      if entry.isNone then d.sealResult p 2 none
      else (d.dropSeal page).sealResult p 0 none
    | 3 =>
      if full then d.sealResult p 3 none
      else if !d.gemReady gem then d.sealResult p 9 entry
      else run d true
    | 4 =>
      if entry.isNone then d.sealResult p 2 none
      else if !d.gemReady gem then d.sealResult p 9 entry
      else run d false
    | _ =>
      match entry with
      | none => d.sealResult p 2 none
      | some e => (d.setReg (sealReg p 8) e.crc).sealResult p 0 entry

/-- A write to SEAL_CMD by its own port: it starts a command, or is held behind the port's running one (10 R342); it reads
back at once (00 R5). -/
def Dev.sealCmd (d : Dev) (p : Nat) (v : Word) : Dev :=
  let d := d.setReg (sealReg p 12) (pack [(bf v 3 0, 0)])
  if d.sealRuns.any (fun r => r.port == p) then { d with sealHeld := d.sealHeld ++ [(p, v)] }
  else d.sealStart p (bf v 2 0) (v.getLsbD 3)

/-- A port's held commands start in order, until one of them keeps running. -/
def Dev.sealNext (d : Dev) (p : Nat) : Nat → Dev
  | 0 => d
  | n + 1 =>
    if d.sealRuns.any (fun r => r.port == p) then d
    else match d.sealHeld.find? (fun h => h.1 == p) with
      | none => d
      | some (_, v) =>
        let d := { d with sealHeld := dropIdx d.sealHeld (d.sealHeld.findIdx (fun (h : Nat × Word) => h.1 == p)) }
        (d.sealStart p (bf v 2 0) (v.getLsbD 3)).sealNext p n

/-- One word of a page as its gemma reads it for a checksum (10 R330, R343): poison, and the data. -/
def Dev.sealWord (d : Dev) (g w : Nat) (tr : ReadTry) : Dev × Bool × Gran :=
  let h := d.home (partOf (w * 64))
  let hf := d.half h
  let redirect := hf.evicts.any (fun e => e.cl.line == w / 4) || (match hf.find (w / 4) with
    | some (_, c) => c.dirtyish (w % 4)
    | none => false)
  if redirect then
    let d := (d.inc (cHalf h 18)).inc (cGem g 4)
    let (d, st, v) := d.stipeAcc { x := 0, i := 0, mid := gemmaMid g, w := w, kind := 0, mask := fullMask }
    (d, st == 1, v)
  else
    let d := if (hf.find (w / 4)).isNone && (hf.ghost (w / 4)).isSome then d.ghostHit h (w / 4) else d
    let (d, v, p) := (d.inc (cGem g 1)).readWord w .gemma tr
    (d, p, v)

/-- The claim of a RESEAL or VERIFY ends. -/
def Dev.sealUnclaim (d : Dev) (g page : Nat) : Dev :=
  let c := (bankOf (page * 4096), page * 4096 / 2 ^ 13 % 4)
  (d.modGemma g (fun x => { x with claims := x.claims.erase c })).unhold c.1

/-- SEAL_CRC_END: the gemma has the page's CRC and resumes its program; the command ends, and a held one starts. While its bank
still runs another instruction it has not read the page (10 R343). -/
def Dev.sealCrcEnd (d : Dev) (p : Nat) (tries : List ReadTry) : Dev :=
  match d.sealRuns.find? (fun r => r.port == p) with
  | none => d
  | some r =>
    let gem := gemmaOf (r.page * 4096)
    if !r.claim && !d.sealMay r.page then d
    else
    let d := if r.claim then d else d.claim gem (r.page * 4096) 64
    let (d, pois, bs) := (List.range 64).foldl (fun (s : Dev × Bool × List Byte) i =>
      let (d, p, v) := s.1.sealWord gem (r.page * 64 + i) (tryAt tries i)
      (d, s.2.1 || p, s.2.2 ++ gBytes v)) (d, false, [])
    let crc := crc32c bs
    let d := Dev.sealUnclaim { d with sealRuns := d.sealRuns.filter (fun x => x.port != p) } gem r.page
    let d := if d.sealRuns.any (fun x => gemmaOf (x.page * 4096) == gem) then d
      else d.modGemma gem (fun x => { x with suspended := false })
    let entry := d.seals.find r.page
    let bitNow := match entry with
      | some e => e.bit
      | none => false
    let d :=
      if r.bit && !bitNow then d.sealResult p 6 entry
      else if pois then
        let d := if r.reseal then (match r.saved with
          | some e => d.putSeal r.page e
          | none => d.dropSeal r.page) else d
        d.sealResult p 8 (d.seals.find r.page)
      else if r.reseal then
        let e : Seal := { bit := true, state := 1, crc := crc }
        (((d.putSeal r.page e).setReg (sealReg p 8) crc).sealResult p 0 (some e)).inc (cMod 26)
      else match entry with
        | none => d.sealResult p 2 none
        | some e => ((d.setReg (sealReg p 8) crc).sealResult p (if e.crc == crc then 0 else 7) entry).inc (cMod 27)
    d.sealNext p d.sealHeld.length

/-- What a port's read of n bytes at linear a, all in one page, gives in the SEAL field (10 R341): 0 NONE to 5 MISMATCH.
`bs`: the bytes delivered; `st`: the access status; `clear`: the seal bit was clear at a line. -/
def Dev.sealCheck (d : Dev) (a st : Nat) (bs : List Byte) (clear : Bool) : Dev × Nat :=
  let page := a / 4096
  match d.seals.find page with
  | none => (d, 0)
  | some e =>
    if !d.sealEn then (d, 0)
    else if clear || !e.bit || e.state != 1 then (d, if e.state == 3 then 4 else 3)
    else if bs.length != 4096 || (st != 0 && st != 3) then (d.inc (cMod 24), 2)
    else if crc32c bs == e.crc then (d, 1)
    else
      let d := d.raise (page / 2 ^ 26) { cls := 1, kind := 7, src := page / 2 ^ 26, code := 0x0901, addr := page * 4096 }
      (d.inc (cMod 23), 5)

/-- A partition becomes RETIRED: its entries are freed (10 R344). -/
def Dev.sealRetire (d : Dev) (f : Nat) : Dev :=
  let n := (d.seals.filter (fun e => e.1 / 2 ^ 20 == f)).length
  ({ d with seals := d.seals.filter (fun e => e.1 / 2 ^ 20 != f) }).bump (cMod 25) n

end Sys2Proof.Machine
end

