-- ==== Sys2Proof/Machine/Attention.lean ====
section
/-! DEFINITION. The attention pipeline (06): set-up, run, items, KV pages, evidence. An item is performed whole at its
end (log 12). -/

namespace Sys2Proof.Machine

/-- The run's frond, unit, instruction index and place in program order. -/
structure ACtx where
  f : Nat
  u : WUnit
  ip : Nat
  ord : Nat
  deriving DecidableEq, Repr

/-! ### Accesses of the pipeline -/

/-- One access of the pipeline. One that must wait holds the item: it is not performed, and the item's command changes
nothing (05 R152). -/
def Dev.attAcc (d : Dev) (c : ACtx) (x : Xfer) : Dev × Nat × Gran :=
  let x := { x with order := c.ord }
  let w := d.accWait x
  if w != 0 then (d.modFrond c.f (fun y => { y with att := { y.att with held := if y.att.held == 0 then w else y.att.held } }), 5, 0#512)
  else d.syncAcc x

/-- A granule is read over the frond's path, or through its home half: data and poison; none where the read failed or was
refused, which ends the unit (06 R213). -/
def Dev.attGran (d : Dev) (c : ACtx) (a : Nat) (home : Bool) : Dev × Option (Gran × Bool) :=
  let (d, st, g) := d.attAcc c (frondAcc c.f c.u c.ip (if home then .waitm else .sld) (a / 64 * 64) 0#512 fullMask false)
  let d := d.frondSticky c.f c.u.key st
  if st == 5 then (d, none)
  else if 4 ≤ st then (d.frondLate c.f 11 c.ip st c.ord false, none)
  else (d, some (g, st == 1))

/-- Words of memory a list of byte ranges lies in. -/
def rangeWords (rs : List (Nat × Nat)) : List Nat :=
  (rs.flatMap (fun r => if r.2 == 0 then [] else (List.range ((r.1 + r.2 - 1) / 64 - r.1 / 64 + 1)).map (r.1 / 64 + ·))).eraseDups

/-- Granules read once each: a map by word number; none where a read failed. -/
def Dev.attFetch (d : Dev) (c : ACtx) : List Nat → SMap (Gran × Bool) → Dev × Option (SMap (Gran × Bool))
  | [], m => (d, some m)
  | w :: ws, m =>
    if (m.find w).isSome then d.attFetch c ws m
    else match d.attGran c (w * 64) false with
      | (d, none) => (d, none)
      | (d, some g) => d.attFetch c ws (m.put w g)

/-- A value that decides control is poison: the unit ends (06 R212). -/
def Dev.attPoison (d : Dev) (c : ACtx) : Dev := d.stopUnit c.u.key 9 (c.ip * 2 ^ 8)

/-- Consecutive words from an address, which decide control. -/
def Dev.attWords (d : Dev) (c : ACtx) (a n : Nat) : Dev × Option (List Word) :=
  match d.attFetch c (rangeWords [(a, 4 * n)]) [] with
  | (d, none) => (d, none)
  | (d, some m) =>
    if m.any (·.2.2) then (d.attPoison c, none)
    else (d, some ((List.range n).map (fun i => gWord (m.get ((a + 4 * i) / 64) (0#512, false)).1 ((a + 4 * i) % 64 / 4))))

/-- One such word. -/
def Dev.attWord (d : Dev) (c : ACtx) (a : Nat) (home : Bool) : Dev × Option Word :=
  match d.attGran c a home with
  | (d, none) => (d, none)
  | (d, some (g, p)) => if p then (d.attPoison c, none) else (d, some (gWord g (a % 64 / 4)))

/-- Masked bytes of a granule are written; a write that does not land counts for R65. `redir`: the spill part's
redirect (07 R237). Answers its status. -/
def Dev.attPutSt (d : Dev) (c : ACtx) (k : XKind) (a : Nat) (g : Gran) (m : BitVec 64) (p : Bool)
    (redir : Option (Nat × Nat × Nat) := none) : Dev × Nat :=
  let (d, st, _) := d.attAcc c { frondAcc c.f c.u c.ip k (a / 64 * 64) g m p with redir := redir }
  (if 4 ≤ st && st != 5 then d.modFrond c.f (fun x => { x with wrFail := if x.wrFail == 0 then st else x.wrFail }) else d, st)

def Dev.attPut (d : Dev) (c : ACtx) (a : Nat) (g : Gran) (m : BitVec 64) (p home : Bool) : Dev :=
  (d.attPutSt c (if home then .gCwr else .sst) a g m p).1

def Dev.attPutWord (d : Dev) (c : ACtx) (a : Nat) (w : Word) : Dev :=
  d.attPut c a (BitVec.ofNat 512 (w.toNat * 2 ^ (a % 64 * 8))) (byteMask (a % 64) 4) false false

/-- A whole granule of a page is written; LEN waits for every such write to land (06 R186, R201). -/
def Dev.attPutPage (d : Dev) (c : ACtx) (a : Nat) (g : Gran) (p : Bool) : Dev :=
  let (d, st) := d.attPutSt c .sst a g fullMask p
  if 4 ≤ st then d.modFrond c.f (fun x => { x with att := { x.att with lost := true } }) else d.bump (cFrd c.f 32) 64

/-- An indivisible INT32 add at the home half, answering the old value (06 R191). -/
def Dev.attFetchAdd (d : Dev) (c : ACtx) (a : Nat) (n : Word) : Dev × Option Word :=
  match d.attWord c a true with
  | (d, none) => (d, none)
  | (d, some w) =>
    let x := frondAcc c.f c.u c.ip .sig (a / 64 * 64) (BitVec.ofNat 512 (n.toNat * 2 ^ (a % 64 * 8))) (byteMask (a % 64) 4) false
    let (d, _, _) := d.attAcc c x
    (d, some w)

/-! ### The descriptor (06 R198-R200) -/

structure ADesc where
  w : List Word
  deriving DecidableEq, Repr

def ADesc.f (x : ADesc) (i hi lo : Nat) : Nat := bf (x.w.getD i 0#32) hi lo
def ADesc.mode (x : ADesc) : Nat := x.f 0 2 0
def ADesc.dim (x : ADesc) : Nat := 32 * (x.f 0 5 3 + 1)
def ADesc.kvfmt (x : ADesc) : Nat := x.f 0 9 6
def ADesc.qfmt (x : ADesc) : Nat := x.f 0 13 10
def ADesc.ofmt (x : ADesc) : Nat := x.f 0 17 14
def ADesc.causal (x : ADesc) : Bool := x.f 0 18 18 == 1
def ADesc.evidence (x : ADesc) : Bool := x.f 0 19 19 == 1
def ADesc.app (x : ADesc) : Bool := x.f 0 20 20 == 1
def ADesc.adv (x : ADesc) : Bool := x.f 0 21 21 == 1
def ADesc.partialOut (x : ADesc) : Bool := x.f 0 22 22 == 1
def ADesc.lse (x : ADesc) : Bool := x.f 0 23 23 == 1
def ADesc.layer (x : ADesc) : Nat := x.f 0 31 24
def ADesc.group (x : ADesc) : Nat := x.f 1 6 0
def ADesc.kvFirst (x : ADesc) : Nat := x.f 1 15 8
def ADesc.kvCount (x : ADesc) : Nat := x.f 1 23 16
def ADesc.kvTotal (x : ADesc) : Nat := x.f 1 31 24
def ADesc.seqCount (x : ADesc) : Nat := x.f 3 9 0
def ADesc.arena (x : ADesc) : Nat := x.f 3 13 10
def ADesc.nl (x : ADesc) : Nat := cnt (x.f 3 23 16) 256
def ADesc.seqTable (x : ADesc) : Nat := x.f 4 31 0 + x.f 5 7 0 * 2 ^ 32
def ADesc.list (x : ADesc) : Nat := x.f 6 18 0
def ADesc.q (x : ADesc) : Nat := x.f 7 18 0
def ADesc.newkv (x : ADesc) : Nat := x.f 8 18 0
def ADesc.out (x : ADesc) : Nat := x.f 9 18 0
def ADesc.status (x : ADesc) : Nat := x.f 10 18 0
def ADesc.aux (x : ADesc) : Nat := x.f 11 18 0
def ADesc.nq (x : ADesc) : Nat := cnt (x.f 12 16 0) 65536
def ADesc.mparts (x : ADesc) : Nat := x.f 13 4 0
def ADesc.keyFirst (x : ADesc) : Nat := x.f 14 23 0
def ADesc.keyLast (x : ADesc) : Nat := x.f 15 23 0
def ADesc.heads (x : ADesc) : Nat := x.group * x.kvCount

/-- Bytes of a position, K or V elements and their scales (06 R185). -/
def ADesc.elemB (x : ADesc) : Nat := x.dim * fmtBits x.kvfmt / 8
def ADesc.scaleB (x : ADesc) : Nat := x.dim / 32
def ADesc.pageBytes (x : ADesc) : Nat := 256 * 2 * (x.elemB + x.scaleB)

/-- Granules of a query or output vector (06 R199). -/
def vecGrans (fmt d : Nat) : Nat := ((if fmt ≤ 3 then d + d / 32 else if fmt == 12 then 4 * d else 2 * d) + 63) / 64
def ADesc.recGrans (x : ADesc) : Nat := (16 + 4 * x.dim + 63) / 64
def ADesc.kvGrans (x : ADesc) : Nat := x.dim / 16

/-- Vectors of a run per area. -/
def ADesc.rows (x : ADesc) : Nat :=
  match x.mode with
  | 0 => x.nq * x.heads
  | 1 => x.seqCount * x.heads
  | 2 => x.seqCount * 32 * x.heads
  | 4 => x.nq
  | _ => 0

/-- The operand-store areas of R199 that lie beyond the store. -/
def ADesc.areasBad (x : ADesc) : Bool :=
  let n := x.rows
  let past (g k : Nat) : Bool := decide (osLimit < g + k)
  let kvn := if x.mode == 0 then x.nq * x.kvCount else if x.mode == 1 then x.seqCount * x.kvCount else x.seqCount * 32 * x.kvCount
  let att := decide (x.mode ≤ 2)
  past x.list ((x.seqCount * 4 + 63) / 64) || past x.status ((x.seqCount * 4 + 63) / 64) ||
  (att && past x.q (n * vecGrans x.qfmt x.dim)) ||
  (att && (x.app || x.mode == 2) && past x.newkv (kvn * x.kvGrans)) ||
  ((att || x.mode == 4) && past x.out (n * (if x.partialOut then x.recGrans else vecGrans x.ofmt x.dim))) ||
  (x.mode == 2 && past x.aux (x.seqCount * 2)) || (x.mode == 3 && past x.aux ((x.seqCount + 63) / 64)) ||
  (x.mode == 4 && past x.aux (x.nq * x.mparts * x.recGrans))

/-- A reserved bit of the descriptor is set (06 R198). -/
def ADesc.reserved (x : ADesc) : Bool :=
  let hi (i lo : Nat) : Bool := (x.w.getD i 0#32).toNat / 2 ^ lo != 0
  (x.f 1 7 7 != 0) || x.f 3 15 14 != 0 || x.f 3 31 24 != 0 || hi 5 8 || hi 6 19 || hi 7 19 || hi 8 19 || hi 9 19 ||
  hi 10 19 || hi 11 19 || hi 12 17 || hi 13 5 || hi 14 24 || hi 15 24 || (x.w.drop 16).any (· != 0#32)

/-- ATTN_DESC (06 R200). -/
def ADesc.bad (x : ADesc) (arena : List Word) (fresh : Bool) : Bool :=
  let inR (v lo hi : Nat) : Bool := decide (lo ≤ v) && decide (v ≤ hi)
  let fmtsBad := !(inR x.kvfmt 2 6) || !(x.qfmt == 2 || x.qfmt == 3 || x.qfmt == 10) ||
    !(x.ofmt == 2 || x.ofmt == 3 || inR x.ofmt 10 12)
  let ar (i : Nat) : Word := arena.getD i 0#32
  !fresh || x.reserved || decide (5 ≤ x.mode) || fmtsBad || !(inR x.group 1 64) || !(inR x.kvCount 1 64) ||
  !(inR x.kvTotal 1 64) || decide (x.kvTotal < x.kvFirst + x.kvCount) || decide (256 < x.group * x.kvTotal) ||
  !(inR x.seqCount 1 512) || (x.mode == 0 && x.seqCount != 1) || decide (x.keyLast < x.keyFirst) ||
  (x.mode == 4 && !(inR x.mparts 2 16)) || (decide (65536 < x.f 12 16 0)) || x.areasBad ||
  ((x.app || x.mode == 3) && (!(ar 7).getLsbD 0 || decide (bf (ar 1) 31 16 * 64 < x.pageBytes)))

/-! ### ATT (05 R163) -/

/-- What a command of the pipeline leaves: where an access of it must wait, the state before it, with a half-layer that it
waits for asked to switch on. -/
def Dev.heldOr (d d0 : Dev) (f : Nat) : Dev :=
  match (d.frond f).att.held with
  | 0 => d
  | 1 => d0
  | n => d0.askDom (halfDom (n - 2))

/-- ATT SUB 0 reads a descriptor, and the arena record where the mode needs one. -/
def Dev.doAttSetup (d : Dev) (f : Nat) (u : WUnit) (b : BitVec 128) : Dev :=
  let x := d.frond f
  let sa := fld b 15 6
  let base : Int := (x.r sa).toNat + sfld b 21 32
  d.checked f (checks [(decide (2 ≤ fld b 8 2), 1)] (d.pendingReg f sa) (x.pois sa)
      [(base % 64 != 0, 5), (decide (base < 0) || decide ((2 ^ 40 : Int) < base + 256), 6)]) (fun d =>
    -- one set-up may wait behind a run
    if x.att.running && x.att.fresh && x.att.desc != x.att.rdesc then d
    else
      let c : ACtx := ⟨f, u, x.pc, x.order⟩
      let d0 := d
      match d.attWords c base.toNat 64 with
      | (d, none) => d.heldOr d0 f
      | (d, some ws) =>
        let ad : ADesc := ⟨ws⟩
        let (d, ar) := if ad.app || ad.mode == 3 then d.attWords c (d.poolBase + 32 * ad.arena) 8 else (d, some [])
        match ar with
        | none => d.heldOr d0 f
        | some ar =>
          let d := d.modFrond f (fun x => { x with att := { x.att with desc := ws, arena := ar, fresh := true } })
          let d := d.advance f
          match feOf (fld b 10 1) (fld b 11 4) with
          | some n => d.addFlag f n x.pc x.order false
          | none => d)

/-- A status word is written (06 R202). -/
def setStatus (x : Frond) (g s : Nat) (w : Word) : Frond :=
  { x with os := x.os.put (g + s / 16) (gSetWord (x.os.get (g + s / 16) 0#512) (s % 16) w) }

def Dev.doAttRun (d : Dev) (f : Nat) (b : BitVec 128) : Dev :=
  let x := d.frond f
  if x.att.running then d
  else
    let ad : ADesc := ⟨x.att.desc⟩
    d.checked f (checks [(decide (2 ≤ fld b 8 2), 1), (ad.bad x.att.arena x.att.fresh, 13)] false false []) (fun d =>
      let d := d.modFrond f (fun x =>
        let x := (List.range ad.seqCount).foldl (fun x s => setStatus x ad.status s 1#32) x
        { x with att := { x.att with running := true, rdesc := x.att.desc, slot := 0, layer := 0, kv := 0, tile := 0
                                     flag := feOf (fld b 10 1) (fld b 11 4), ip := x.pc, order := x.order, code := 0, keys := 0
                                     srec := [], lost := false, early := [] } })
      ((d.bump (cFrd f 42) ad.seqCount).inc (cFrd f 28)).advance f)

/-! ### One row's arithmetic (06 R178-R184) -/

/-- A key: position, K and V values, poison. -/
structure AKey where
  pos : Nat
  k : List Val
  v : List Val
  p : Bool
  block : Nat
  deriving DecidableEq, Repr

/-- The running state of a row. -/
structure ARow where
  m : Option Int := none
  l : Val := .num false 0 0
  o : List Word := []
  bad : Bool := false
  p : Bool := false
  n : Nat := 0
  top : List (Word × Nat × Val) := []
  deriving DecidableEq, Repr

/-- SCALE × log2 e, rounded once (06 R178). -/
def scaleLog2e (s : Word) : Word := toF32 ((f32 s).mul (.num false fxLog2e (-80)))

/-- ceil of a finite value. -/
def Val.ceil (v : Val) : Int :=
  match v with
  | .num s m e =>
    if 0 ≤ e then (if s then -(m * 2 ^ e.toNat : Nat) else (m * 2 ^ e.toNat : Nat))
    else
      let q := m / 2 ^ (-e).toNat
      let r := m % 2 ^ (-e).toNat
      if s then -(q : Int) else if r == 0 then (q : Int) else (q : Int) + 1
  | _ => 0

/-- 2^y for y ≤ 0: 2 to the fraction is free within its bound, and the integer part scales it exactly (06 R180; log 9). -/
def pExp2 (y : Val) : Word :=
  -- -126 * log2 e in fixed point
  if y.lt (.num true (126 * fxLog2e) (-80)) then 0#32
  else match y with
    | .num s m e =>
      let n := -(Val.num (!s) m e).ceil
      let fr := (Val.num s m e).sub (Val.ofInt n)
      toF32 ((f32 (held 6 (toF32 fr) (exp2Val fr) 10 val0)).scale n)
    | v => toF32 (exp2Val v)

/-- Rounded to BF16, to nearest even. -/
def toBf16 (v : Val) : Val :=
  match v with
  | .num s m e => let (r, q) := ffBf16.roundMag none s m e; .num s r q
  | v => v

/-- A running sum as the pipeline holds it: within 2^-22 of the exact one (06 R181; log 9). -/
def sumWord (l : Val) : Word := if l.isZero then 0#32 else held 5 (toF32 l) l 22 val0

/-- t for a key (06 R178). -/
def scoreT (q : List Val) (c : Word) (k : AKey) : Word :=
  let s := (q.zip k.k).foldl (fun s e => toF32 ((f32 s).add (e.1.mul e.2))) 0#32
  f32Mul s c

/-- The best eight keys as (rank, position, P), best first; between equal values the lower position (06 R216). -/
def insertTop (l : List (Word × Nat × Val)) (e : Word × Nat × Val) : List (Word × Nat × Val) :=
  let before (a b : Word × Nat × Val) : Bool :=
    if (f32 a.1).eqv (f32 b.1) then decide (a.2.1 < b.2.1) else (f32 b.1).lt (f32 a.1)
  (l.takeWhile (fun x => !before e x) ++ [e] ++ l.dropWhile (fun x => !before e x)).take 8

/-- A row attends one block of keys (06 R179-R181). A kept P is relative to the row's reference and is rescaled with it.
`nan`: where a key whose score is NaN ranks, by its position, which the spec leaves open (log 33). -/
def ARow.block (r : ARow) (q : List Val) (c : Word) (nan : Nat → Word) (ks : List AKey) : ARow :=
  let ts := ks.map (fun k => (scoreT q c k, k))
  let bad := r.bad || ts.any (fun e => (f32 e.1).isNan || (f32 e.1).isInf || !((f32 e.1).abs.lt (.num false (2 ^ 30) 0)))
  let p := r.p || ks.any (·.p)
  let r := { r with bad := bad, p := p, n := r.n + ks.length }
  if bad || ts.isEmpty then
    { r with top := ts.foldl (fun l e => insertTop l (if (f32 e.1).isNan then nan e.2.pos else e.1, e.2.pos, val0)) r.top }
  else
    let bmax := ts.foldl (fun a e => if (f32 a).lt (f32 e.1) then e.1 else a) ((ts.headD (0#32, ⟨0, [], [], false, 0⟩)).1)
    let up := match r.m with
      | none => true
      | some m => (Val.ofInt m).lt (f32 bmax)
    let m' := if up then (f32 bmax).ceil else r.m.getD 0
    let sh : Int := match r.m with
      | none => 0
      | some m => m - m'
    let o := if r.m.isSome then r.o.map (fun w => toF32 ((f32 w).scale sh)) else r.o
    let l := r.l.scale sh
    ts.foldl (fun r e =>
      let pj := toBf16 (f32 (pExp2 ((f32 e.1).sub (Val.ofInt m'))))
      { r with l := r.l.add pj, o := (r.o.zip e.2.v).map (fun x => toF32 ((f32 x.1).add (pj.mul x.2)))
               top := insertTop r.top (e.1, e.2.pos, pj) })
      { r with m := some m', o := o, l := l, top := r.top.map (fun e => (e.1, e.2.1, e.2.2.scale sh)) }

/-- Keys grouped in their blocks, in order. -/
def groupBlocks : List AKey → List (List AKey)
  | [] => []
  | k :: ks => match groupBlocks ks with
    | [] => [[k]]
    | [] :: gs => [k] :: gs
    | (j :: g) :: gs => if j.block == k.block then (k :: j :: g) :: gs else [k] :: (j :: g) :: gs

def attRow (d : Nat) (q : List Val) (qp : Bool) (c : Word) (nan : Nat → Word) (ks : List AKey) : ARow :=
  (groupBlocks ks).foldl (fun r b => r.block q c nan b) { o := List.replicate d 0#32, p := qp }

/-! ### Vectors in the operand store -/

/-- A query or other vector of format fmt at a granule: values and poison. -/
def osVec (x : Frond) (fmt d g : Nat) : List Val × Bool :=
  let es := (List.range d).map (fun i =>
    let (c, p) := osBits x.os x.osP g (i * fmtBits fmt) (fmtBits fmt)
    if fmtMx fmt then
      let (s, ps) := osBits x.os x.osP g (d * fmtBits fmt + i / 32 * 8) 8
      (scaled (elemVal fmt c) s, p || ps)
    else (elemVal fmt c, p))
  (es.map (·.1), es.any (·.2))

/-- Granules of bytes packed from a number. -/
def numGrans (v n : Nat) : List Gran := (List.range n).map (fun i => BitVec.ofNat 512 (bitsAt v (512 * i) 512))

def packCodes (bits : Nat) (cs : List Nat) : Nat := cs.foldr (fun c a => a * 2 ^ bits + c) 0

/-- An output vector's granules, and how many of its elements were clamped (04 R110, 06 R182, R199). -/
def outGrans (cfg : OutCfg) (fmt d : Nat) (ws : List Word) : List Gran × Nat :=
  let n := vecGrans fmt d
  if fmtMx fmt then
    let bl := (List.range (d / 32)).map (fun b => mxBlock fmt cfg (((ws.drop (32 * b)).take 32).map (fun w => (f32 w, none))))
    (numGrans (packCodes 8 (bl.flatMap (·.2.1)) + packCodes 8 (bl.map (·.1)) * 2 ^ (8 * d)) n, (bl.map (·.2.2)).sum)
  else
    let es := ws.map (fun w => if fmt == 12 then (w.toNat, false) else outPlain fmt cfg none (f32 w))
    (numGrans (packCodes (fmtBits fmt) (es.map (·.1))) n, (es.filter (·.2)).length)

def putGrans (x : Frond) (g : Nat) (gs : List Gran) (p : Bool) : Frond :=
  ((List.range gs.length).zip gs).foldl (fun x e => x.setOs (g + e.1) e.2 p) x

/-! ### Keys in pages (06 R185-R188) -/

/-- New K and V of a vector, quantised (06 R195): codes and scales of K and V, and poison. -/
structure NewKV where
  kc : List Nat
  ks : List Nat
  vc : List Nat
  vs : List Nat
  p : Bool
  deriving DecidableEq, Repr

def quantise (x : Frond) (ad : ADesc) (idx : Nat) : NewKV :=
  let g := ad.newkv + idx * ad.kvGrans
  let (vals, p) := osVec x 10 (2 * ad.dim) g
  let half (l : List Val) : List Nat × List Nat :=
    let bl := (List.range (ad.dim / 32)).map (fun b =>
      mxBlock ad.kvfmt { noclamp := true } (((l.drop (32 * b)).take 32).map (fun v => (v, none))))
    (bl.flatMap (·.2.1), bl.map (·.1))
  let (kc, ks) := half (vals.take ad.dim)
  let (vc, vs) := half (vals.drop ad.dim)
  ⟨kc, ks, vc, vs, p⟩

def codesVals (fmt : Nat) (cs ss : List Nat) : List Val :=
  ((List.range cs.length).zip cs).map (fun e => scaled (elemVal fmt e.2) (ss.getD (e.1 / 32) 127))

def NewKV.key (n : NewKV) (fmt pos block : Nat) : AKey := ⟨pos, codesVals fmt n.kc n.ks, codesVals fmt n.vc n.vs, n.p, block⟩

/-- Offsets of a position's four pieces in a block of `cap` positions whose sections are rounded up to `al` bytes:
(bytes into the block, bytes). -/
def ADesc.pieces (x : ADesc) (cap al n : Nat) : List (Nat × Nat) :=
  let r (b : Nat) : Nat := (b + al - 1) / al * al
  let e := r (cap * x.elemB)
  let s := r (cap * x.scaleB)
  [(n * x.elemB, x.elemB), (e + n * x.scaleB, x.scaleB), (e + s + n * x.elemB, x.elemB), (2 * e + s + n * x.scaleB, x.scaleB)]

/-- n bytes at an address, from fetched granules: a number and the poison. -/
def mapBytes (m : SMap (Gran × Bool)) (a n : Nat) : Nat × Bool :=
  let bs := (List.range n).map (fun i =>
    let (g, p) := m.get ((a + i) / 64) (0#512, false)
    ((gByte g ((a + i) % 64)).toNat, p))
  (packCodes 8 (bs.map (·.1)), bs.any (·.2))

def splitCodes (v bits n : Nat) : List Nat := (List.range n).map (fun i => bitsAt v (bits * i) bits)

/-- The stored position of a block at an address. -/
def storedKV (ad : ADesc) (m : SMap (Gran × Bool)) (a cap al n : Nat) : NewKV :=
  let ps := (ad.pieces cap al n).map (fun e => mapBytes m (a + e.1) e.2)
  let at' (i : Nat) : Nat × Bool := ps.getD i (0, false)
  ⟨splitCodes (at' 0).1 (fmtBits ad.kvfmt) ad.dim, splitCodes (at' 1).1 8 ad.scaleB,
    splitCodes (at' 2).1 (fmtBits ad.kvfmt) ad.dim, splitCodes (at' 3).1 8 ad.scaleB, ps.any (·.2)⟩

/-- The page-table entry's address (06 R188). -/
def ADesc.ptAddr (x : ADesc) (srec : List Word) (layer kv n : Nat) : Nat :=
  let w (i : Nat) : Word := srec.getD i 0#32
  let base := (w 1).toNat + bf (w 2) 7 0 * 2 ^ 32
  base + 4 * ((layer * x.kvTotal + kv) * cnt (bf (w 2) 31 16) 65536 + n)

/-- Where a page named by an entry lies: its arena's BASE + index × PAGE_UNITS × 64 (06 R188). -/
def Dev.attPage (d : Dev) (c : ACtx) (entry : Word) : Dev × Option Nat :=
  match d.attWords c (d.poolBase + 32 * bf entry 31 28) 2 with
  | (d, none) => (d, none)
  | (d, some ws) =>
    let w (i : Nat) : Word := ws.getD i 0#32
    (d, some ((w 0).toNat + bf (w 1) 7 0 * 2 ^ 32 + bf entry 27 0 * bf (w 1) 31 16 * 64))

/-- Entries of pages lo to hi: addresses, or the fact that one is not allocated. -/
def Dev.attPages (d : Dev) (c : ACtx) (ad : ADesc) (srec : List Word) (layer kv lo : Nat) :
    Nat → Dev × Option (Option (SMap Nat))
  | 0 => (d, some (some []))
  | n + 1 =>
    match d.attWord c (ad.ptAddr srec layer kv (lo + n)) false with
    | (d, none) => (d, none)
    | (d, some e) =>
      if e == 0xFFFFFFFF#32 then (d, some none)
      else match d.attPage c e with
        | (d, none) => (d, none)
        | (d, some a) => match d.attPages c ad srec layer kv lo n with
          | (d, some (some m)) => (d, some (some (m.put (lo + n) a)))
          | r => r

/-- What became of a need for a page. -/
inductive PageGot where
  | ok (a : Nat)
  | empty
  | failed
  deriving DecidableEq, Repr

/-- A page is taken from the arena (06 R191). -/
def Dev.takePage (d : Dev) (c : ACtx) (ad : ADesc) : Dev × PageGot × Word :=
  let ar := d.poolBase + 32 * ad.arena
  match d.attFetchAdd c (ar + 24) 1#32 with
  | (d, none) => (d, .failed, 0#32)
  | (d, some v) => match d.attWords c ar 6 with
    | (d, none) => (d, .failed, 0#32)
    | (d, some ws) =>
      let w (i : Nat) : Word := ws.getD i 0#32
      if (w 5).toNat ≤ v.toNat || d.poolCount ≤ (w 4).toNat + v.toNat then (d, .empty, 0#32)
      else match d.attWord c (d.poolBase + 0x400 + 4 * ((w 4).toNat + v.toNat)) false with
        | (d, none) => (d, .failed, 0#32)
        | (d, some idx) =>
          let i := bf idx 27 0
          let refc := (w 2).toNat + bf (w 3) 7 0 * 2 ^ 32 + 2 * i
          let d := d.attPut c refc (BitVec.ofNat 512 (2 ^ (refc % 64 * 8))) (byteMask (refc % 64) 2) false true
          (d.inc (cFrd c.f 33), .ok ((w 0).toNat + bf (w 1) 7 0 * 2 ^ 32 + i * bf (w 1) 31 16 * 64),
            BitVec.ofNat 32 (ad.arena * 2 ^ 28 + i))

/-- The page an entry names: its address and that of its reference count (06 R188, R189). -/
def Dev.attPageRef (d : Dev) (c : ACtx) (e : Word) : Dev × Option (Nat × Nat) :=
  match d.attWords c (d.poolBase + 32 * bf e 31 28) 4 with
  | (d, none) => (d, none)
  | (d, some ws) =>
    let w (i : Nat) : Word := ws.getD i 0#32
    (d, some ((w 0).toNat + bf (w 1) 7 0 * 2 ^ 32 + bf e 27 0 * bf (w 1) 31 16 * 64,
      (w 2).toNat + bf (w 3) 7 0 * 2 ^ 32 + 2 * bf e 27 0))

/-- A reference count is read at the home half (06 R192). -/
def Dev.attCount (d : Dev) (c : ACtx) (refc : Nat) : Dev × Option Nat :=
  match d.attWord c (refc / 4 * 4) true with
  | (d, none) => (d, none)
  | (d, some w) => (d, some (bitsAt w.toNat (refc % 4 * 8) 16))

/-- A page joins the released list at REL_NEXT, or is lost (06 R193). -/
def Dev.releasePage (d : Dev) (c : ACtx) (entry : Word) : Dev :=
  match d.attFetchAdd c (d.poolBase + 0x20C) 1#32 with
  | (d, none) => d
  | (d, some v) => match d.attWords c (d.poolBase + 0x200) 3 with
    | (d, none) => d
    | (d, some ws) =>
      let w (i : Nat) : Word := ws.getD i 0#32
      if (w 2).toNat ≤ v.toNat then d.inc (cFrd c.f 36)
      else d.attPutWord c ((w 0).toNat + bf (w 1) 7 0 * 2 ^ 32 + 4 * v.toNat) entry

/-- A reference count is decremented, indivisibly; at 0 the page is released, and below 0 it stays 0 (06 R192, R193). -/
def Dev.dropRef (d : Dev) (c : ACtx) (entry : Word) (refc : Nat) : Dev :=
  match d.attCount c refc with
  | (d, none) => d
  | (d, some count) =>
    if count == 0 then
      (d.inc (cFrd c.f 35)).raise (d.stk c.f) { cls := 0, kind := 1, src := c.f, code := 0x0401, addr := refc }
    else
      let n := count - 1
      let d := d.attPut c refc (BitVec.ofNat 512 (n * 2 ^ (refc % 64 * 8))) (byteMask (refc % 64) 2) false true
      if n == 0 then d.releasePage c entry else d

/-- The page that position pos of a sequence is appended to: taken where none is allocated, copied where it is shared
(06 R191, R192). The count is the one read when the item started, where one was. -/
def Dev.appendPage (d : Dev) (c : ACtx) (ad : ADesc) (srec : List Word) (len layer kv n : Nat) : Dev × PageGot :=
  let pa := ad.ptAddr srec layer kv n
  match d.attWord c pa false with
  | (d, none) => (d, .failed)
  | (d, some e) =>
    if e == 0xFFFFFFFF#32 then
      match d.takePage c ad with
      | (d, .ok a, e') => (d.attPutWord c pa e', .ok a)
      | (d, g, _) => (d, g)
    else
      match d.attPageRef c e with
      | (d, none) => (d, .failed)
      | (d, some (old, refc)) =>
        let (d, count) := match (d.frond c.f).att.early.find refc with
          | some k => (d, some k)
          | none => d.attCount c refc
        match count with
        | none => (d, .failed)
        | some count =>
          if count ≤ 1 then (d, .ok old)
          else match d.takePage c ad with
            | (d, .ok a, e') =>
              let held := (List.range (min 256 (len - 256 * n))).flatMap (fun i => (ad.pieces 256 1 i).map (fun r => (r.1 + old, r.2)))
              match d.attFetch c (rangeWords held) [] with
              | (d, none) => (d, .failed)
              | (d, some m) =>
                let d := d.bump (cFrd c.f 31) (64 * m.length)
                let d := m.foldl (fun d g => d.attPutPage c (g.1 * 64 - old + a) g.2.1 g.2.2) d
                let d := (d.attPutWord c pa e').inc (cFrd c.f 34)
                (d.dropRef c e refc, .ok a)
            | (d, g, _) => (d, g)

/-- The pages of an append, in order, up to the first that cannot be had: by page number, and what ended it. -/
def Dev.appendPages (d : Dev) (c : ACtx) (ad : ADesc) (srec : List Word) (len layer kv : Nat) :
    List Nat → SMap Nat → Dev × SMap Nat × PageGot
  | [], m => (d, m, .ok 0)
  | n :: ns, m => match d.appendPage c ad srec len layer kv n with
    | (d, .ok a) => d.appendPages c ad srec len layer kv ns (m.put n a)
    | (d, g) => (d, m, g)

/-- The counts of the pages the next item appends to are read ahead: the page-table entries are, and a count may be, because an
append reads it at any moment before its first write (06 R177, R192). -/
def Dev.earlyCounts (d : Dev) (c : ACtx) (ad : ADesc) (srec : List Word) (layer kv : Nat) : List Nat → Dev
  | [] => d
  | n :: ns => match d.attWord c (ad.ptAddr srec layer kv n) false with
    | (d, none) => d
    | (d, some e) =>
      if e == 0xFFFFFFFF#32 then d.earlyCounts c ad srec layer kv ns
      else match d.attPageRef c e with
        | (d, none) => d
        | (d, some (_, refc)) => match d.attCount c refc with
          | (d, none) => d
          | (d, some k) =>
            (d.modFrond c.f (fun x => { x with att := { x.att with early := x.att.early.put refc k } })).earlyCounts c ad srec layer kv ns

/-! ### New positions in a block (06 R186) -/

/-- Bytes that new positions put into a block at an address: (address, bytes, value, poison). -/
def ADesc.chunks (ad : ADesc) (a cap al : Nat) (es : List (Nat × NewKV)) : List (Nat × Nat × Nat × Bool) :=
  es.flatMap (fun e =>
    let vals := [packCodes (fmtBits ad.kvfmt) e.2.kc, packCodes 8 e.2.ks, packCodes (fmtBits ad.kvfmt) e.2.vc, packCodes 8 e.2.vs]
    ((ad.pieces cap al e.1).zip vals).map (fun p => (a + p.1.1, p.1.2, p.2, e.2.p)))

/-- The granules that new positions of a block lie in. -/
def ADesc.newWords (ad : ADesc) (a cap al : Nat) (es : List (Nat × NewKV)) : List Nat :=
  rangeWords ((ad.chunks a cap al es).map (fun e => (e.1, e.2.1)))

/-- A granule holds a position of the block that lies below LEN: `below` of them do. No other granule is read. -/
def ADesc.holdsOld (ad : ADesc) (a cap al below w : Nat) : Bool :=
  (ad.pieces cap al 0).any (fun e => decide (a + e.1 < w * 64 + 64) && decide (w * 64 < a + e.1 + below * e.2))

/-- The bytes of a chunk in a granule replace the granule's. -/
def mergeChunk (w : Nat) (g : Gran × Bool) (e : Nat × Nat × Nat × Bool) : Gran × Bool :=
  let (a, len, v, p) := e
  let bytes := (List.range 64).filter (fun i => a ≤ w * 64 + i && w * 64 + i < a + len)
  if bytes.isEmpty then g
  else
    let new : Gran := BitVec.ofNat 512 (bytes.foldl (fun x i => x + bitsAt v (8 * (w * 64 + i - a)) 8 * 2 ^ (8 * i)) 0)
    let m : BitVec 64 := BitVec.ofNat 64 (bytes.foldl (fun x i => x + 2 ^ i) 0)
    (gMerge g.1 new m, g.2 || p)

/-- New positions are written in a block: each granule once, merged with what positions below LEN hold in it, its later
bytes zero. -/
def Dev.appendBlock (d : Dev) (c : ACtx) (ad : ADesc) (a cap al below : Nat) (es : List (Nat × NewKV))
    (m : SMap (Gran × Bool)) : Dev :=
  (ad.newWords a cap al es).foldl (fun d w =>
    let base := if ad.holdsOld a cap al below w then m.get w (0#512, false) else (0#512, false)
    let g := (ad.chunks a cap al es).foldl (mergeChunk w) base
    d.attPutPage c (w * 64) g.1 g.2) d

/-- New positions of a sequence, by page: (page, its address, its positions below LEN, its new slots). -/
def appendGroups (len : Nat) (pgs : SMap Nat) (es : List (Nat × NewKV)) : List (Nat × Nat × List (Nat × NewKV)) :=
  pgs.map (fun g => (g.2, min 256 (len - 256 * g.1), (es.filter (fun e => e.1 / 256 == g.1)).map (fun e => (e.1 % 256, e.2))))

/-- The granules that an append to pages must read for merging. -/
def ADesc.oldWords (ad : ADesc) (gs : List (Nat × Nat × List (Nat × NewKV))) : List Nat :=
  gs.flatMap (fun g => (ad.newWords g.1 256 1 g.2.2).filter (ad.holdsOld g.1 256 1 g.2.1))

/-- The append itself. -/
def Dev.appendGroupsGo (d : Dev) (c : ACtx) (ad : ADesc) (gs : List (Nat × Nat × List (Nat × NewKV))) (m : SMap (Gran × Bool)) : Dev :=
  gs.foldl (fun d g => d.appendBlock c ad g.1 256 1 g.2.1 g.2.2 m) d

/-! ### Items -/

/-- The run stops: KV_POOL_EMPTY with R211's AUX. -/
def Dev.poolEmpty (d : Dev) (c : ACtx) (ad : ADesc) (a : AttRun) (layer : Nat) : Dev :=
  let d := (d.inc (cFrd c.f 29)).inc (cFrd c.f 44)
  let d := d.modFrond c.f (fun x => { setStatus x ad.status a.slot 3#32 with att := { x.att with running := false } })
  d.stopUnit c.u.key 10 (a.slot + (ad.kvFirst + a.kv) * 2 ^ 10 + ad.arena * 2 ^ 16 + layer * 2 ^ 20)

/-- A sorus is written or dropped (06 R214-R217). -/
def Dev.sorus (d : Dev) (c : ACtx) (ws : List Word) : Dev :=
  let f := c.f
  let ctrl := d.inF (0x04000000 + 4 * f)
  let cap := bf (d.inF (0x04000C00 + 4 * f)) 15 0 * 1024
  let x := d.frond f
  if !ctrl.getLsbD 0 then d
  else if cap == 0 || (ctrl.getLsbD 1 && (x.evHead + 2 ^ 32 - x.evAck) % 2 ^ 32 == cap) then d.inc (cFrd f 40)
  else
    let base := addrOf (d.inF (0x04000400 + 4 * f) &&& 0xFFFF0000#32) (d.inF (0x04000800 + 4 * f))
    let (d, st) := d.attPutSt c .sst (base + 64 * (x.evNext % cap)) (gOfWords ws) fullMask false
    let d := if st < 4 && cap ≤ x.evNext && !ctrl.getLsbD 1 then d.inc (cFrd f 39) else d
    -- HEAD counts an unbroken prefix of soruses that have landed
    let next (x : Frond) : Nat := if st < 4 && x.evNext % 2 ^ 32 == x.evHead then (x.evHead + 1) % 2 ^ 32 else x.evHead
    (if st < 4 then d.inc (cFrd f 38) else d).modFrond f (fun x => { x with evNext := x.evNext + 1, evHead := next x })

/-- What a row leaves: M as an integer and as FP32, L, and recip(L). The values that the spec leaves open are free: M of
a row that attended no key, M and L of a NANROW (log 33); M is an integer all the same (R207). `base`: the row's first free
value; a row has `rowStride` of them. -/
structure ARowEnd where
  mi : Word
  mw : Word
  lw : Word
  rw : Word
  deriving DecidableEq, Repr

def rowFree (base i : Nat) : Word := (Config.freeValue (base + i)).setWidth 32

def rowStride : Nat := 2 ^ 25

/-- Where a key with a NaN score ranks: a free number. -/
def nanRank (base pos : Nat) : Word := let w := rowFree base (16 + pos); if (f32 w).isNan then 0#32 else w

def ARow.ending (r : ARow) (base : Nat) : ARowEnd :=
  let lw := if r.bad then rowFree base 1 else if r.n == 0 then 0#32 else sumWord r.l
  let noM := r.bad || r.m.isNone
  let mi := if noM then rowFree base 0 else BitVec.ofInt 32 (r.m.getD 0)
  ⟨mi, toF32 (Val.ofInt mi.toInt), lw, fRecip lw⟩

/-- The words of a row's sorus (06 R215, R216). -/
def sorusWords (d : Dev) (c : ACtx) (ad : ADesc) (seqId : Word) (r : ARow) (qpos head : Nat) (cand : Bool) (base : Nat) : List Word :=
  let e := r.ending base
  let es := if r.p then [] else r.top
  let weight (i : Nat) (p : Val) : Nat :=
    if r.bad then (rowFree base (2 + i)).toNat % 256 else (outPlain 0 {} none (p.mul (f32 e.rw))).1
  [pack [(qpos % 2 ^ 24, 0), (head, 24)], seqId,
    pack [(ad.layer, 0), (if r.p then 0 else min 8 r.n, 8), (b2n ad.partialOut, 12), (b2n cand, 13), (b2n r.p, 14),
      (b2n r.bad, 15), (c.u.uid, 16)],
    BitVec.ofNat 32 d.frame, e.mi, e.lw, BitVec.ofNat 32 (min r.n 0xFFFFFF), 0#32] ++
  (List.range 8).map (fun i => match es[i]? with
    | some x => pack [(x.2.1 % 2 ^ 24, 0), (weight i x.2.2, 24)]
    | none => 0#32)

/-- A row's results: the output vector or partial record, and the sorus (06 R182, R207, R214). -/
def Dev.rowOut (d : Dev) (c : ACtx) (ad : ADesc) (seqId : Word) (r : ARow) (vec qpos head : Nat) (cand : Bool) (base : Nat) : Dev :=
  let e := r.ending base
  let o := if r.bad then r.o.map (fun _ => canonNan) else if r.n == 0 then r.o.map (fun _ => 0#32) else r.o
  let d := if r.bad then d.inc (cFrd c.f 37) else d
  let d :=
    if ad.partialOut then
      let hd := [e.mw, e.lw, pack [(qpos % 2 ^ 24, 0), (head, 24)], pack [(b2n (r.n == 0), 0), (b2n r.bad, 1)]]
      d.modFrond c.f (fun x => putGrans x (ad.out + vec * ad.recGrans) (numGrans (packCodes 32 ((hd ++ o).map (·.toNat))) ad.recGrans) r.p)
    else
      let vs := if r.bad || r.n == 0 then o else o.map (fun w => f32Mul w e.rw)
      let (gs, n) := outGrans (outCfg (d.arrCtrl c.f)) ad.ofmt ad.dim vs
      (d.modFrond c.f (fun x => putGrans x (ad.out + vec * vecGrans ad.ofmt ad.dim) gs r.p)).outClamped c.f n
  if ad.evidence && ad.mode ≤ 2 then d.sorus c (sorusWords d c ad seqId r qpos head cand base) else d

/-- The stash records (M, r, poison) of an item; a granule that holds a poisoned row's is poison (02 R71, 07 R228, R238, R239,
R241). The flag says that the run goes on. -/
def Dev.stashRecords (d : Dev) (c : ACtx) (recs : List (Word × Word × Bool)) : Dev × Bool :=
  if recs.isEmpty then (d, true)
  else if !d.sthOn c.f then (d.inc (cFrd c.f 55), true)
  else
    let (w0, _, _) := d.sthWin c.f
    match d.attWord c (w0 + 64) false with
    | (d, none) => (d, false)
    | (d, some nx) =>
      let o := nx.toNat / 64 * 64
      let n := (recs.length * 8 + 63) / 64
      let addrs := (List.range n).map (fun i => w0 + o + 64 * i)
      let gs := numGrans (packCodes 32 (recs.flatMap (fun e => [e.1.toNat, e.2.1.toNat]))) n
      let pois (i : Nat) : Bool := ((recs.drop (8 * i)).take 8).any (·.2.2)
      let putAll (d : Dev) (redir : Option (Nat × Nat × Nat)) : Dev :=
        ((List.range n).zip (addrs.zip gs)).foldl (fun d e =>
          let (d, st) := d.attPutSt c .sst e.2.1 e.2.2 fullMask (pois e.1) redir
          if st < 4 then d.stashCount c.f true e.2.1 else d) d
      let next (d : Dev) : Dev := d.attPutWord c (w0 + 64) (BitVec.ofNat 32 (o + 64 * n))
      match d.stashDo c.f c.u addrs with
      | .plain => (next (putAll d none), true)
      | .redirect lo hi dst first =>
        let d := if c.u.stashSpilled then d else (d.writeSthHeader c.f c.u 1 first).modFrond c.f (fun x => { x with sthState := 1 })
        let d := d.modUnit c.u.key (fun u => { u with stashSpilled := true })
        (next (putAll d (some (lo, hi, dst))), true)
      | .skip off => (next (d.stashSwitch c.f c.u off false), true)
      | .full off k => (d.stashFull c.f c.u off k, false)

/-- Ancestry mask checks (06 R204): the number of candidates, or none for BAD_TREE. -/
def treeOk (m : List Word) : Option Nat :=
  let nc := (m.takeWhile (· != 0#32)).length
  let w (i : Nat) : Word := m.getD i 0#32
  let ok := decide (1 ≤ nc) && (m.drop nc).all (· == 0#32) &&
    (List.range nc).all (fun c => (w c).getLsbD c && decide ((w c).toNat < 2 ^ (c + 1)) &&
      (List.range 32).all (fun a => !(w c).getLsbD a || (w a &&& ~~~ (w c)) == 0#32))
  if ok then some nc else none

def popcount (w : Word) : Nat := ((List.range 32).filter (fun i => w.getLsbD i)).length

/-- Word j of the 32-bit words at a granule of the operand store, with its poison. -/
def Frond.osWord (x : Frond) (g j : Nat) : Word × Bool :=
  (gWord (x.os.get (g + j / 16) 0#512) (j % 16), (x.osP.find (g + j / 16)).isSome)

/-- The last item of a sequence: LEN where ADVANCE raises it, once every page write of the sequence has landed (06 R201). -/
def Dev.seqLen (d : Dev) (c : ACtx) (code addLen sa : Nat) : Dev :=
  if 0 < addLen && (code == 0 || code == 7) && !(d.frond c.f).att.lost then (d.attFetchAdd c sa (BitVec.ofNat 32 addLen)).1 else d

/-- Its final status word, which is counted (06 R202, R221). -/
def Dev.seqEnd (d : Dev) (c : ACtx) (ad : ADesc) (a : AttRun) (code keys : Nat) : Dev :=
  let d := d.modFrond c.f (fun x => setStatus x ad.status a.slot (pack [(code, 0), (min keys 0xFFFFFF, 8)]))
  d.inc (cFrd c.f (41 + code))

/-- The run has done its last item (05 R163). -/
def Dev.runEnd (d : Dev) (c : ACtx) (a : AttRun) : Dev :=
  let d := d.modFrond c.f (fun x => { x with att := { x.att with running := false } })
  match a.flag with
  | some n => d.addFlag c.f n a.ip a.order false
  | none => d

/-- The next item after (slot, layer, kv, tile): tiles, then KV heads, then layers, then sequences (06 R201). -/
def nextItem (a : AttRun) (tiles kvs layers : Nat) : AttRun × Bool :=
  if a.tile + 1 < tiles then ({ a with tile := a.tile + 1 }, false)
  else if a.kv + 1 < kvs then ({ a with tile := 0, kv := a.kv + 1 }, false)
  else if a.layer + 1 < layers then ({ a with tile := 0, kv := 0, layer := a.layer + 1 }, false)
  else ({ a with tile := 0, kv := 0, layer := 0, slot := a.slot + 1, srec := [], code := 0, keys := 0 }, true)

/-- The rows of an item as (vector index, query position, member g, candidate). -/
structure ARowId where
  vec : Nat
  qpos : Nat
  g : Nat
  cand : Nat
  deriving DecidableEq, Repr

/-- The rows of an item leave their results: the stash records first, because an item whose records have no place
writes nothing (07 R239), then outputs and soruses in row order. `base`: the item's first free value. The flag says that the
run goes on. -/
def Dev.itemRows (d : Dev) (c : ACtx) (ad : ADesc) (seqId : Word) (k base : Nat) (rs : List (ARowId × ARow)) : Dev × Bool :=
  let ix := (List.range rs.length).zip rs
  let (d, go) := if ad.lse then d.stashRecords c (ix.map (fun e =>
      let x := e.2.2.ending (base + rowStride * e.1)
      (x.mw, x.rw, e.2.2.p))) else (d, true)
  if !go then (d, false)
  else (ix.foldl (fun d e => d.rowOut c ad seqId e.2.2 e.2.1.vec e.2.1.qpos (k * ad.group + e.2.1.g) (ad.mode == 2)
    (base + rowStride * e.1)) d, true)

/-- Candidate n's position (06 R204). -/
def candPos (len : Nat) (mask : List Word) (n : Nat) : Nat := len + popcount (mask.getD n 0#32) - 1

/-- Rows of one KV head of a sequence, and new positions it appends; `nc`: VERIFY's candidates (06 R201, R203, R204). -/
def ADesc.headRows (x : ADesc) (nc : Nat) : Nat := x.group * (if x.mode == 0 then x.nq else if x.mode == 1 then 1 else nc)
def ADesc.newCount (x : ADesc) (nc : Nat) : Nat := if x.mode == 0 then x.nq else if x.mode == 1 then 1 else nc

/-- LEN of a sequence record, and the positions its page table can hold (06 R187, R188). -/
def recLen (srec : List Word) : Nat := bf (srec.getD 0 0#32) 24 0
def recCap (srec : List Word) : Nat := cnt (bf (srec.getD 2 0#32) 31 16) 65536 * 256

/-- A last position beyond what a sequence can hold (06 R202). -/
def seqFull (srec : List Word) (lastPos : Nat) : Bool := decide (16777215 < lastPos) || decide (recCap srec - 1 < lastPos)

/-- The pages of positions LEN to lastPos. -/
def pagesFrom (len lastPos : Nat) : List Nat := (List.range (lastPos / 256 - len / 256 + 1)).map (len / 256 + ·)

/-- The rows of an item (06 R199, R201). -/
def ADesc.itemIds (ad : ADesc) (a : AttRun) (mask : List Word) (nc : Nat) : List ARowId :=
  let len := recLen a.srec
  ((List.range (ad.headRows nc)).drop (64 * a.tile)).take 64 |>.map (fun r =>
    let g := r % ad.group
    let n := r / ad.group
    let hh := a.kv * ad.group + g
    match ad.mode with
    | 0 => ⟨n * ad.heads + hh, len + n, g, n⟩
    | 1 => ⟨a.slot * ad.heads + hh, len, g, 0⟩
    | _ => ⟨(a.slot * 32 + n) * ad.heads + hh, candPos len mask n, g, n⟩)

/-- The pending block of VERIFY: its header at the first KV head, and the slot block of a KV head (06 R204). -/
def Dev.writePending (d : Dev) (c : ACtx) (ad : ADesc) (a : AttRun) (mask : List Word) (nc : Nat) (news : List (Nat × NewKV)) : Dev :=
  let w (i : Nat) : Word := a.srec.getD i 0#32
  let pend := (w 4).toNat + bf (w 5) 7 0 * 2 ^ 32
  let hdr := mask ++ [pack [(nc, 0), (1, 31)], BitVec.ofNat 32 (recLen a.srec)]
  let d := if a.kv == 0 then (List.range 4).foldl (fun d i =>
      d.attPut c (pend + 64 * i) (gOfWords ((hdr.drop (16 * i)).take 16)) fullMask false false) d else d
  d.appendBlock c ad (pend + 256 + (ad.layer * ad.kvTotal + (ad.kvFirst + a.kv)) * bf (w 5) 31 16 * 64) 32 64 0 news []

/-- An attending item (TILE, SWEEP, VERIFY) of KV head k of a sequence whose record is read; `mask`, `nc`: VERIFY's tree.
Answers the state and whether the run goes on, with the sequence's status so far. -/
def Dev.attendItem (d : Dev) (c : ACtx) (ad : ADesc) (a : AttRun) (mask : List Word) (nc : Nat) : Dev × Bool × Nat × Nat :=
  let x := d.frond c.f
  let k := ad.kvFirst + a.kv
  let len := recLen a.srec
  let seqId := a.srec.getD 3 0#32
  let tiles := (ad.headRows nc + 63) / 64
  let rows := ad.itemIds a mask nc
  let base := d.free
  let d := { d with free := base + rowStride * rows.length }
  -- FULL and BAD_PT: outputs +0, nothing appended (06 R202)
  let zero (d : Dev) (code : Nat) : Dev × Bool × Nat × Nat :=
    let (d, go) := d.itemRows c ad seqId k base (rows.map (fun r => (r, { o := List.replicate ad.dim 0#32 })))
    (d, go, if go then code else 0, 0)
  let lastPos := len + ad.newCount nc - 1
  let grows := ad.app && ad.mode != 2
  if grows && seqFull a.srec lastPos then zero d 2
  else
    let hi := min ad.keyLast (len - 1)
    let some' := decide (0 < len) && decide (ad.keyFirst ≤ hi)
    let (d, pgs) := if some' then d.attPages c ad a.srec ad.layer k (ad.keyFirst / 256) (hi / 256 - ad.keyFirst / 256 + 1)
      else (d, some (some []))
    match pgs with
    | none => (d, false, 0, 0)
    | some none => zero d 4
    | some (some pgs) =>
      -- pages of the appended positions are taken and copied before the item attends
      match d.appendPages c ad a.srec len ad.layer k (if grows then pagesFrom len lastPos else []) [] with
      | (d, _, .failed) => (d, false, 0, 0)
      | (d, _, .empty) => (d.poolEmpty c ad a ad.layer, false, 3, 0)
      | (d, got, .ok _) =>
        let pgs := got.foldl (fun m g => if (pgs.find g.1).isSome then m.put g.1 g.2 else m) pgs
        let poss := if some' then (List.range (hi - ad.keyFirst + 1)).map (ad.keyFirst + ·) else []
        let ranges := poss.flatMap (fun p => (ad.pieces 256 1 (p % 256)).map (fun e => (pgs.get (p / 256) 0 + e.1, e.2)))
        let idx (n : Nat) : Nat := match ad.mode with
          | 0 => n * ad.kvCount + a.kv
          | 1 => a.slot * ad.kvCount + a.kv
          | _ => (a.slot * 32 + n) * ad.kvCount + a.kv
        let news := if ad.app || ad.mode == 2 then (List.range (ad.newCount nc)).map (fun n => (n, quantise x ad (idx n))) else []
        let writes := ad.app && a.tile + 1 == tiles
        let gs := if writes && grows then appendGroups len got (news.map (fun e => (len + e.1, e.2))) else []
        match d.attFetch c (rangeWords ranges ++ ad.oldWords gs) [] with
        | (d, none) => (d, false, 0, 0)
        | (d, some m) =>
          let d := d.bump (cFrd c.f 31) (64 * m.length)
          let old := poss.map (fun p => (storedKV ad m (pgs.get (p / 256) 0) 256 1 (p % 256)).key ad.kvfmt p (p / 64))
          let newPos (n : Nat) : Nat := if ad.mode == 2 then candPos len mask n else len + n
          let newKeys := news.map (fun e => (e.1, e.2.key ad.kvfmt (newPos e.1) (2 ^ 20 + e.1 / 64)))
          let sc := scaleLog2e (ad.w.getD 2 0#32)
          let rs := ((List.range rows.length).zip rows).map (fun (ir : Nat × ARowId) =>
            let r := ir.2
            let (q, qp) := osVec x ad.qfmt ad.dim (ad.q + r.vec * vecGrans ad.qfmt ad.dim)
            let keep (p : Nat) : Bool := !(ad.mode == 0 && ad.causal) || decide (p ≤ r.qpos)
            let nk := if ad.mode == 2 then newKeys.filter (fun e => (mask.getD r.cand 0#32).getLsbD e.1)
              else newKeys.filter (fun e => keep e.2.pos)
            (r, attRow ad.dim q qp sc (nanRank (base + rowStride * ir.1)) (old.filter (fun e => keep e.pos) ++ nk.map (·.2))))
          let pois := rs.any (·.2.p)
          let keys := ((rs.getLast?).map (·.2.n)).getD 0
          let (d, go) := d.itemRows c ad seqId k base rs
          if !go then (d, false, 0, 0)
          else
            let d := if !writes then d else if ad.mode == 2 then d.writePending c ad a mask nc news else d.appendGroupsGo c ad gs m
            (d, true, if pois then 7 else 0, keys)

/-- The positions an accept word's candidates are committed to: LEN plus each one's depth in the stored mask (06 R205). -/
def acceptPos (len : Nat) (mask : List Word) (word : Word) : List (Nat × Nat) :=
  ((List.range 32).filter (fun i => word.getLsbD i)).map (fun i => (i, candPos len mask i))

def acceptPages (len : Nat) (mask : List Word) (word : Word) : List Nat :=
  ((acceptPos len mask word).map (fun e => e.2 / 256)).eraseDups

/-- An ACCEPT item: the accepted candidates' slots are copied to their positions, in pages taken and copied first (06 R201,
R205). -/
def Dev.acceptItem (d : Dev) (c : ACtx) (ad : ADesc) (a : AttRun) (mask : List Word) (word : Word) : Dev × Bool :=
  let len := recLen a.srec
  let layer := ad.layer + a.layer
  let k := ad.kvFirst + a.kv
  let w (i : Nat) : Word := a.srec.getD i 0#32
  let pend := (w 4).toNat + bf (w 5) 7 0 * 2 ^ 32
  let sb := pend + 256 + (layer * ad.kvTotal + k) * bf (w 5) 31 16 * 64
  let cs := acceptPos len mask word
  match d.appendPages c ad a.srec len layer k (acceptPages len mask word) [] with
  | (d, _, .failed) => (d, false)
  | (d, _, .empty) => (d.poolEmpty c ad a layer, false)
  | (d, got, .ok _) =>
    let slots := rangeWords (cs.flatMap (fun e => (ad.pieces 32 64 e.1).map (fun r => (sb + r.1, r.2))))
    match d.attFetch c slots [] with
    | (d, none) => (d, false)
    | (d, some m) =>
      let gs := appendGroups len got (cs.map (fun e => (e.2, storedKV ad m sb 32 64 e.1)))
      match d.attFetch c (ad.oldWords gs) m with
      | (d, none) => (d, false)
      | (d, some m) => ((d.bump (cFrd c.f 31) (64 * m.length)).appendGroupsGo c ad gs m, true)

/-- What a MERGE row gives (06 R206): M, L, the unnormalised vector, and whether it is EMPTY, NANROW and poison. -/
structure MRow where
  mw : Word
  lw : Word
  rw : Word
  o : List Word
  hd : Word
  empty : Bool
  nan : Bool
  p : Bool
  deriving DecidableEq, Repr

def mergeCalc (x : Frond) (ad : ADesc) (row base : Nat) : MRow :=
  let recAt (p : Nat) : List Word × Bool :=
    let g := ad.aux + (row * ad.mparts + p) * ad.recGrans
    let es := (List.range (4 + ad.dim)).map (fun j => x.osWord g j)
    (es.map (·.1), es.any (·.2))
  let parts := (List.range ad.mparts).map recAt
  let wd (r : List Word) (j : Nat) : Word := r.getD j 0#32
  let live := parts.filter (fun r => !(wd r.1 3).getLsbD 0)
  let nan := live.any (fun r => (wd r.1 3).getLsbD 1)
  let mx := live.foldl (fun a r => if (f32 a).lt (f32 (wd r.1 0)) then wd r.1 0 else a) (wd (live.headD ([], false)).1 0)
  let fk (r : List Word) : Val :=
    match (f32 (wd r 0)).sub (f32 mx) with
    | .num s m e =>
      let t := (Val.num s m e).trunc
      if ((Val.num s m e).sub (Val.ofInt t)).isZero then (Val.num false 1 0).scale t else f32 (pExp2 (.num s m e))
    | v => f32 (pExp2 v)
  let l := live.foldl (fun s r => s.add ((fk r.1).mul (f32 (wd r.1 1)))) val0
  let o := live.foldl (fun o r => (o.zip (r.1.drop 4)).map (fun e => toF32 ((f32 e.1).add ((fk r.1).mul (f32 e.2)))))
    (List.replicate ad.dim 0#32)
  let lw := if live.isEmpty then 0#32 else sumWord l
  { mw := if live.isEmpty then toF32 (Val.ofInt (rowFree base 0).toInt) else mx, lw := lw, rw := fRecip lw
    o := if nan then o.map (fun _ => canonNan) else o, hd := wd (parts.headD ([], false)).1 2, empty := live.isEmpty
    nan := nan, p := parts.any (·.2) }

/-- A MERGE row's output (06 R206). -/
def Dev.mergeRow (d : Dev) (c : ACtx) (ad : ADesc) (row : Nat) (r : MRow) : Dev :=
  if ad.partialOut then
    d.modFrond c.f (fun x => putGrans x (ad.out + row * ad.recGrans) (numGrans (packCodes 32 (([r.mw, r.lw, r.hd,
      pack [(b2n r.empty, 0), (b2n r.nan, 1)]] ++ r.o).map (·.toNat))) ad.recGrans) r.p)
  else
    let vs := if r.empty then r.o.map (fun _ => 0#32) else if r.nan then r.o else r.o.map (fun w => f32Mul w r.rw)
    let (gs, n) := outGrans (outCfg (d.arrCtrl c.f)) ad.ofmt ad.dim vs
    (d.modFrond c.f (fun x => putGrans x (ad.out + row * vecGrans ad.ofmt ad.dim) gs r.p)).outClamped c.f n

def Dev.setAtt (d : Dev) (f : Nat) (a : AttRun) : Dev :=
  d.modFrond f (fun x => { x with att := { a with desc := x.att.desc, arena := x.att.arena, fresh := x.att.fresh
                                                  running := x.att.running, lost := !a.srec.isEmpty && x.att.lost
                                                  early := [], held := x.att.held } })

/-- The records and outputs of the 64 rows of a MERGE item; the flag says that the run goes on (06 R201, R206, R209). -/
def Dev.mergeItem (d : Dev) (c : ACtx) (ad : ADesc) (tile : Nat) : Dev × Bool × Bool :=
  let rows := ((List.range ad.nq).drop (64 * tile)).take 64
  let base := d.free
  let d := { d with free := base + rowStride * rows.length }
  let x := d.frond c.f
  let rs := ((List.range rows.length).zip rows).map (fun (e : Nat × Nat) => (e.2, mergeCalc x ad e.2 (base + rowStride * e.1)))
  let (d, go) := if ad.lse then d.stashRecords c (rs.map (fun e => (e.2.mw, e.2.rw, e.2.p))) else (d, true)
  if !go then (d, false, false)
  else (rs.foldl (fun d e => d.mergeRow c ad e.1 e.2) d, true, rs.any (·.2.p))

/-- The pages that the item in progress will append to, as far as the sequence record and the pending block tell. -/
def ADesc.nextPages (ad : ADesc) (a : AttRun) (pages : List Nat) : List Nat :=
  if a.srec.isEmpty then []
  else if ad.mode == 3 then pages
  else if ad.app && ad.mode != 2 && !seqFull a.srec (recLen a.srec + ad.newCount 1 - 1) then
    pagesFrom (recLen a.srec) (recLen a.srec + ad.newCount 1 - 1)
  else []

/-- An item of a sequence has been done: its status so far, the next item, and the end of the sequence and of the run
(06 R201, R202). `pages`: what an ACCEPT appends to. -/
def Dev.itemDone (d : Dev) (c : ACtx) (ad : ADesc) (a : AttRun) (code keys tiles layers addLen sa : Nat) (pages : List Nat) : Dev :=
  let a := { a with code := if a.code == 0 || code == 7 then max a.code code else a.code, keys := keys }
  let (n, last) := nextItem a tiles ad.kvCount layers
  let d := if last then d.seqLen c a.code addLen sa else d
  if (d.issuing c.f).isNone then d
  else
    let d := (if last then d.seqEnd c ad a a.code a.keys else d).setAtt c.f n
    if last && ad.seqCount ≤ n.slot then d.runEnd c a
    else
      let (d, v) := d.draw
      if v.getLsbD 0 then d.earlyCounts c ad n.srec (ad.layer + n.layer) (ad.kvFirst + n.kv) (ad.nextPages n pages) else d

/-- An ACCEPT item of a sequence at address `sa` (06 R205). `first`: its first. -/
def Dev.acceptGo (d : Dev) (c : ACtx) (ad : ADesc) (a : AttRun) (first : Bool) (sa : Nat) : Dev :=
  let x := d.frond c.f
  let len := recLen a.srec
  let ab := gByte (x.os.get (ad.aux + a.slot / 64) 0#512) (a.slot % 64)
  let pend := (a.srec.getD 4 0#32).toNat + bf (a.srec.getD 5 0#32) 7 0 * 2 ^ 32
  if (x.osP.find (ad.aux + a.slot / 64)).isSome then d.attPoison c
  else
    let clear (d : Dev) (w : Word) : Dev := d.attPutWord c (pend + 128) (w &&& 0x7FFFFFFF#32)
    match d.attWords c pend 34 with
    | (d, none) => d
    | (d, some pb) =>
      let ctl := pb.getD 32 0#32
      -- the sequence ends with this item
      let done (d : Dev) (code : Nat) : Dev :=
        d.itemDone c ad { a with kv := ad.kvCount - 1, layer := ad.nl - 1, tile := 0 } code 0 1 ad.nl 0 sa []
      if ab == 0xFF#8 then done (clear d ctl) 0
      else if first && (!ctl.getLsbD 31 || bf (pb.getD 33 0#32) 24 0 != len || decide (bf ctl 5 0 ≤ ab.toNat)) then done d 6
      else
        let word := pb.getD ab.toNat 0#32
        if seqFull a.srec (len + popcount word - 1) then done d 2
        else match d.acceptItem c ad a (pb.take 32) word with
          | (d, false) => d
          | (d, true) =>
            let lastItem := a.kv + 1 == ad.kvCount && a.layer + 1 == ad.nl && !(d.frond c.f).att.lost
            (if lastItem then clear d ctl else d).itemDone c ad a 0 0 1 ad.nl (popcount word) sa (acceptPages len (pb.take 32) word)

/-- The item in progress of a run (06 R201). -/
def Dev.attItem (d : Dev) (c : ACtx) : Dev :=
  let x := d.frond c.f
  let a := x.att
  let ad : ADesc := ⟨a.rdesc⟩
  if ad.mode == 4 then
    match d.mergeItem c ad a.tile with
    | (d, false, _) => d
    | (d, true, pois) =>
      let code := if pois || a.code == 7 then 7 else 0
      if 64 * (a.tile + 1) < ad.nq then d.setAtt c.f { a with tile := a.tile + 1, code := code }
      else
        let d := d.modFrond c.f (fun x =>
          (List.range ad.seqCount).foldl (fun x s => setStatus x ad.status s (BitVec.ofNat 32 code)) x)
        (d.bump (cFrd c.f (41 + code)) ad.seqCount).runEnd c a
  else
    -- the sequence record, at the first item of each sequence
    let (si, sp) := x.osWord ad.list a.slot
    let sa := ad.seqTable + 64 * si.toNat
    let (d, srec) := if a.srec.isEmpty then (if sp then (d.attPoison c, none) else d.attWords c sa 16) else (d, some a.srec)
    match srec with
    | none => d
    | some srec =>
      let first := a.srec.isEmpty
      let a := { a with srec := srec }
      if ad.mode == 3 then d.acceptGo c ad a first sa
      else
        let mw := if ad.mode == 2 then (List.range 32).map (fun j => x.osWord (ad.aux + 2 * a.slot) j) else []
        if mw.any (·.2) then d.attPoison c
        else
          let mask := mw.map (·.1)
          match (if ad.mode == 2 then treeOk mask else some 1) with
          | none => d.itemDone c ad { a with kv := ad.kvCount - 1 } 5 0 1 1 0 sa []
          | some nc =>
            match d.attendItem c ad a mask nc with
            | (d, false, _, _) => d
            | (d, true, code, keys) => d.itemDone c ad a code keys ((ad.headRows nc + 63) / 64) 1
                (if ad.adv && ad.app && ad.mode != 2 then ad.newCount nc else 0) sa []

/-- An item that a stop has cut off leaves no output, no status word and no sorus that counts (06 R210, log 33). -/
def Dev.abandon (d d0 : Dev) (f : Nat) : Dev :=
  let x0 := d0.frond f
  d.modFrond f (fun x => { x with os := x0.os, osP := x0.osP, evNext := x0.evNext, evHead := x0.evHead })

/-- ATT_ITEM_END: the item in progress of a running run ends with its effects (06 R201), or is cut off by a stop that arises in
it (06 R210, R211). -/
def Dev.attItemEnd (d : Dev) (f : Nat) : Dev :=
  match d.issuing f with
  | none => d
  | some u =>
    let a := (d.frond f).att
    if !a.running then d
    else
      let d1 := ((d.bumpFree (cFrd f 30)).modFrond f (fun x => { x with att := { x.att with held := 0 } })).attItem ⟨f, u, a.ip, a.order⟩
      let b := (d1.frond f).att
      let cut := (d1.issuing f).isNone && b.running && b.slot == a.slot && b.layer == a.layer && b.kv == a.kv && b.tile == a.tile
      (if cut then d1.abandon d f else d1).heldOr d f

end Sys2Proof.Machine
end

