-- ==== Sys2Proof/Machine/Plan.lean ====
section
/-! DEFINITION. Plans: slots and commit words, the check, taking a plan, dispatch and launch, COPY and FILL, the end of
units (02 R44-R65, R558, R559, 05 R132-R134, 10 R315, R316, R335). -/

namespace Sys2Proof.Machine

/-! ### Slots and commit words (02 R45-R49) -/

/-- Base of plan slot i in force (02 R74). -/
def Dev.slotBase (d : Dev) (i : Nat) : Nat := addrOf (d.inF (0x01000010 + 8 * i)) (d.inF (0x01000014 + 8 * i)) / 2 ^ 20 * 2 ^ 20

def Dev.slot (d : Dev) (i : Nat) : PlanSlot := d.frm.slots.get i {}
def Dev.setSlot (d : Dev) (i : Nat) (x : PlanSlot) : Dev := { d with frm := { d.frm with slots := d.frm.slots.put i x } }

/-- A 16-record granule of the module's view: word j of the granule at address a, with the read's status. -/
def Dev.stipeGran (d : Dev) (a : Nat) : Dev × Nat × Gran := d.stipeRead (a / 64)

/-- FRM_SLOT_POISON naming an address (02 R49, R50). -/
def Dev.slotPoison (d : Dev) (a : Nat) : Dev := d.raise 0 { cls := 1, kind := 0, code := 0x0102, addr := a }

def readBad (st : Nat) : Bool := st == 1 || notPerformed st

/-- The commit word of a slot as sampled; none where it counts as EMPTY for want of a good read (02 R49). -/
def Dev.sampleCommit (d : Dev) (i : Nat) : Dev × Option Word :=
  let a := d.slotBase i
  let (d, st, g) := d.stipeGran a
  if readBad st then
    let s := d.slot i
    if s.reported then (d, none) else ((d.setSlot i { s with reported := true }).slotPoison a, none)
  else (d, some (gWord g 0))

def cwSeq (w : Word) : Nat := bf w 23 0
def cwState (w : Word) : Nat := bf w 25 24

/-- Stipe 0 writes a slot's commit word (02 R46). -/
def Dev.writeCommit (d : Dev) (i seq state code : Nat) : Dev :=
  d.stipeWords (d.slotBase i) [pack [(seq, 0), (state, 24), (code, 26)]]

/-- Stipe 0 writes a slot's header granule as zero, with good parity (02 R49). -/
def Dev.zeroHeader (d : Dev) (i : Nat) : Dev :=
  (d.stipeWords (d.slotBase i) (List.replicate 16 0#32)).setSlot i {}

/-- FRM_STATUS (02 R74). -/
def frmStatus : Nat := 0x0100000C
def Dev.nextSeq (d : Dev) : Nat := bf (d.reg frmStatus) 23 0
def seqSucc (n : Nat) : Nat := if n == 0xFFFFFE then 0 else n + 1

def Dev.setStatus (d : Dev) (next slot rej : Nat) : Dev := d.setReg frmStatus (pack [(next, 0), (slot, 24), (rej, 25)])

/-- A plan is rejected with a code (02 R50). -/
def Dev.rejectPlan (d : Dev) (i seq code : Nat) : Dev :=
  let w := d.reg frmStatus
  let d := (d.writeCommit i seq 3 code).setStatus (bf w 23 0) (bf w 24 24) code
  let d := { d with frm := { d.frm with reject := some code } }
  (d.setSlot i { d.slot i with st := 0, plan := none }).inc (cMod 2)

/-! ### The check (02 R50-R53) -/

/-- n bytes from an address as granules: the granules, or the address of the first read that was poisoned or failed. -/
def Dev.readArea (d : Dev) (a n : Nat) : Dev × Except Nat (List Gran) :=
  let (d, r) := (List.range ((n + 63) / 64)).foldl (fun (s : Dev × Except Nat (List Gran)) i =>
    match s.2 with
    | .error _ => s
    | .ok l =>
      let (d, st, g) := s.1.stipeGran (a + 64 * i)
      if readBad st then (d, .error (a + 64 * i)) else (d, .ok (g :: l))) (d, .ok [])
  (d, match r with
    | .ok l => .ok l.reverse
    | .error e => .error e)

/-- A descriptor is in range by itself (02 R52). DESIGN CHOICE (log 63): a COPY whose source or destination range passes
2^40 is out of range (code 5). -/
def descOk (d : Dev) (g : Gran) (regTotal : Nat) : Bool :=
  let w (i : Nat) : Word := gWord g i
  let kind := bf (w 0) 17 16
  let copyish := kind == 2 || kind == 3
  let len := addrOf (w 8) (w 9)
  bf (w 0) 15 0 != 0xFFFF && bf (w 0) 20 19 != 3 && bf (w 0) 23 21 == 0 &&
  bf (w 1) 31 28 == 0 && decide (bf (w 1) 27 24 ≤ 8) && d.win.installed.contains (bf (w 1) 23 16) &&
  (kind != 1 || bf (w 1) 15 8 != 0) && (kind != 2 || bf (w 1) 7 4 == 0) &&
  bf (w 3) 15 13 == 0 && bf (w 3) 23 18 == 0 && bf (w 3) 17 16 != 3 &&
  (bf (w 1) 27 24 == 0 || decide (bf (w 3) 12 0 + bf (w 1) 27 24 ≤ regTotal)) &&
  bf (w 5) 31 8 == 0 && bf (w 7) 31 8 == 0 && bf (w 9) 31 8 == 0 &&
  (if copyish then len % 64 == 0 else len == 0) &&
  (kind != 3 || ((addrOf (w 4) (w 5)) % 64 == 0 && addrOf (w 6) (w 7) == 0 &&
    addrOf (w 4) (w 5) / 2 ^ 32 == bf (w 1) 7 0 && decide (addrOf (w 4) (w 5) + len ≤ (bf (w 1) 7 0 + 1) * 2 ^ 32))) &&
  (kind != 2 || (decide (addrOf (w 4) (w 5) + len ≤ 2 ^ 40) && decide (addrOf (w 6) (w 7) + len ≤ 2 ^ 40))) &&
  (List.range 5).all (fun i => w (11 + i) == 0#32)

/-- Whether the dependencies have no cycle: units whose predecessors have all been set aside are set aside in turn. -/
def acyclic : Nat → List (Nat × Nat × Nat) → Bool
  | 0, l => l.isEmpty
  | n + 1, l =>
    let rest := l.filter (fun e => l.any (fun f => f.1 == e.2.1 || f.1 == e.2.2))
    if rest.isEmpty then true else if rest.length == l.length then false else acyclic n rest

/-- A unit of a plan from its descriptor and the region table. -/
def unitOf (g : Gran) (regs : List (Nat × Nat)) (seq index dflt : Nat) : WUnit :=
  let w (i : Nat) : Word := gWord g i
  let ovr := bf (w 0) 20 19
  let batch := (w 0).getLsbD 18
  let cb := bf (w 0) 31 24
  let kind := bf (w 0) 17 16
  { key := 0, seq := seq, index := index, uid := bf (w 0) 15 0, kind := kind, batch := batch
    cont := if ovr == 0 then batch else ovr == 2
    budget := if cb == 0 then dflt else cb
    target := if kind == 2 then bf (w 1) 3 0 else bf (w 1) 7 0
    gemMask := BitVec.ofNat 8 (if kind == 3 then 255 else bf (w 1) 15 8), wset := bf (w 1) 23 16
    regions := (regs.drop (bf (w 3) 12 0)).take (bf (w 1) 27 24)
    dep0 := bf (w 2) 15 0, dep1 := bf (w 2) 31 16, stash := bf (w 3) 17 16, lender := bf (w 3) 31 24
    addrA := addrOf (w 4) (w 5), addrB := addrOf (w 6) (w 7), length := addrOf (w 8) (w 9), pattern := w 10 }

/-- FRM_CTRL.DEFAULT_CARRY; 0 is stored as 8. DESIGN CHOICE (log 65): a unit with CARRY_BUDGET 0 takes the value at the end
of its plan's check. -/
def Dev.dfltCarry (d : Dev) : Nat := let n := bf (d.reg 0x01000008) 7 0; if n == 0 then 8 else n

/-- The check of a slot: the plan, or the code of the first check that fails, with the address of a bad read (02 R50). -/
def Dev.checkPlan (d : Dev) (i : Nat) : Dev × Except (Nat × Nat) Plan :=
  let a := d.slotBase i
  let (d, hd) := d.readArea a 64
  match hd with
  | .error e => (d, .error (7, e))
  | .ok hs =>
    let h := hs.headD 0#512
    let w (j : Nat) : Word := gWord h j
    let n := bf (w 1) 12 0
    let rt := bf (w 4) 13 0
    if 4096 < n || 8192 < rt then (d, .error (3, 0))
    else
      let (d, ds) := d.readArea (a + 0x1000) (64 * n)
      match ds with
      | .error e => (d, .error (7, e))
      | .ok ds =>
        let (d, rs) := d.readArea (a + 0x41000) (16 * rt)
        match rs with
        | .error e => (d, .error (7, e))
        | .ok rs =>
          let rbytes := (rs.flatMap gBytes).take (16 * rt)
          if crc32c (ds.flatMap gBytes ++ rbytes) != w 2 then (d, .error (2, 0))
          else if 5 ≤ bf (w 1) 15 13 then (d, .error (4, 0))
          else
            let rw (k j : Nat) : Word := gWord (rs.getD (k / 4) 0#512) (k % 4 * 4 + j)
            let regs := (List.range rt).map (fun k => (addrOf (rw k 0) (rw k 1), addrOf (rw k 2) (rw k 3)))
            let regOk := (List.range rt).all (fun k => bf (rw k 1) 31 8 == 0 && bf (rw k 3) 31 8 == 0) &&
              regs.all (fun e => e.1 % 64 == 0 && e.2 % 64 == 0)
            let hdrOk := bf (w 1) 31 20 == 0 && bf (w 3) 31 14 == 0 && bf (w 4) 31 14 == 0 && bf (w 6) 31 8 == 0 &&
              (List.range 8).all (fun j => w (8 + j) == 0#32)
            let ids := ds.map (fun g => bf (gWord g 0) 15 0)
            let deps := ds.map (fun g => (bf (gWord g 0) 15 0, bf (gWord g 2) 15 0, bf (gWord g 2) 31 16))
            let depOk := deps.all (fun e => (e.2.1 == 0xFFFF || ids.contains e.2.1) && (e.2.2 == 0xFFFF || ids.contains e.2.2) &&
              e.2.1 != e.1 && e.2.2 != e.1)
            if !(hdrOk && regOk && ds.all (fun g => descOk d g rt) && ids.eraseDups.length == ids.length && depOk &&
                acyclic (n + 1) deps) then (d, .error (5, 0))
            else
              let seq := bf (w 0) 23 0
              let us := ((List.range n).zip ds).map (fun e => unitOf e.2 regs seq e.1 d.dfltCarry)
              (d, .ok { seq := seq, role := bf (w 1) 15 13, phase := bf (w 1) 19 16, ack := bf (w 3) 13 0
                        poolBase := addrOf (w 5) (w 6), poolCount := (w 7).toNat, units := us })

/-- A plan is taken (02 R48): TAKEN in its slot, NEXT_SEQ advances, its units join those in hand. -/
def Dev.takePlan (d : Dev) (i : Nat) (p : Plan) : Dev :=
  let w := d.reg frmStatus
  let d := (d.writeCommit i p.seq 2 0).setStatus (seqSucc p.seq) i (bf w 28 25)
  let us := ((List.range p.units.length).zip p.units).map (fun e =>
    { e.2 with key := d.nextU + e.1, origin := d.frame, originT := d.lastTick })
  let d := d.setSlot i { d.slot i with st := 0, plan := none }
  { d with units := d.units ++ us, nextU := d.nextU + p.units.length, poolBase := p.poolBase, poolCount := p.poolCount
           bup := { d.bup with lock := true }
           frm := { d.frm with role := p.role, phase := p.phase, taken := some p.seq
                               ackAt := d.frm.records - (d.frm.records + 16384 - p.ack % 16384) % 16384 } }

/-- Whether a sampled commit word is COMMITTED; its SEQ. -/
def committed (w : Option Word) : Option Nat := match w with
  | some w => if cwState w == 1 then some (cwSeq w) else none
  | none => none

/-- What stipe 0 holds of a slot is void: the next COMMITTED word is read and checked anew (02 R48, R49). -/
def Dev.dropSlot (d : Dev) (i : Nat) : Dev := d.setSlot i { d.slot i with st := 0, plan := none }

/-- PLAN_COMMIT: stipe 0 sees a commit word and starts its check, or sees that it is no longer COMMITTED (02 R48). -/
def Dev.planCommit (d : Dev) (i : Nat) : Dev :=
  if d.bup.stage != 7 || (d.slot i).st == 2 then d
  else
    let (d, w) := d.sampleCommit i
    let d := d.dropSlot i
    if (committed w).isSome then d.setSlot i { d.slot i with st := 1 } else d

/-- PLAN_CHECK_END: the plan waits for its tick, a held one is taken as of its tick, a failing one is rejected (02 R48,
R50). -/
def Dev.planCheckEnd (d : Dev) (i : Nat) : Dev :=
  let s := d.slot i
  if s.st != 1 && s.st != 2 then d
  else
    let (d, r) := d.checkPlan i
    match r with
    | .ok p => if s.st == 2 then d.takePlan i p else d.setSlot i { d.slot i with st := 3, plan := some p }
    | .error (code, a) =>
      let (d, _, g) := d.stipeGran (d.slotBase i)
      let d := if code == 7 then d.slotPoison a else d
      -- a frame whose held slot is rejected took none (02 R58)
      let d := if s.st == 2 then d.inc (cMod 3) else d
      d.rejectPlan i (cwSeq (gWord g 0)) code

/-- The commit words at a tick (02 R48): slots are taken, held, rejected with code 1 or 6, or wait. -/
def Dev.sampleSlots (d : Dev) : Dev :=
  let next := d.nextSeq
  let (d, w0) := d.sampleCommit 0
  let (d, w1) := d.sampleCommit 1
  let cs := [(0, committed w0), (1, committed w1)]
  -- a word that turned COMMITTED just before the tick: its check starts now; one that counts as EMPTY: what is held is void
  let d := cs.foldl (fun d e =>
    if (d.slot e.1).st == 2 then d
    else if e.2.isNone then d.dropSlot e.1
    else if (d.slot e.1).st == 0 then d.setSlot e.1 { d.slot e.1 with st := 1 } else d) d
  let due := cs.filter (fun e => e.2 == some next)
  let checked (i : Nat) : Bool := (d.slot i).st == 3
  let bad (q : Nat) : Bool := (q != next && q != seqSucc next) || q == 0xFFFFFF
  let dup := decide (due.length == 2)
  -- code 6, code 1
  let d' := cs.foldl (fun d e => match e.2 with
    | some q =>
      if checked e.1 && dup && q == next then d.rejectPlan e.1 q 6
      else if checked e.1 && bad q then d.rejectPlan e.1 q 1 else d
    | none => d) d
  match due with
  | [(i, _)] =>
    if checked i then (match (d.slot i).plan with
      | some p => d'.takePlan i p
      | none => d')
    else d'.setSlot i { d'.slot i with st := 2 }
  | _ => d'

/-! ### Dispatch (02 R55, 13 R440) -/

/-- The masters a unit occupies. -/
def WUnit.masters (u : WUnit) : List Nat :=
  match u.kind with
  | 0 => [u.target]
  | 2 => [engineMid u.target]
  | _ => u.gemList.map gemmaMid

/-- The state of a unit that a dependency names, in the same plan. -/
def Dev.depState (d : Dev) (u : WUnit) (id : Nat) : Option WUnit :=
  d.units.find? (fun v => v.origin == u.origin && v.seq == u.seq && v.uid == id)

/-- A unit is ready: not started, and both predecessors COMPLETE. -/
def Dev.ready (d : Dev) (u : WUnit) : Bool :=
  let ok (id : Nat) : Bool := id == 0xFFFF || (match d.depState u id with
    | some v => v.phase == 3 && v.state == 0
    | none => true)
  u.phase == 0 && ok u.dep0 && ok u.dep1

/-- Precedence among ready units: carried, then REAL_TIME, then BATCH; then the order of plans and descriptors. -/
def WUnit.rank (u : WUnit) : Nat := if 0 < u.carried then 0 else if u.batch then 2 else 1
def WUnit.before (u v : WUnit) : Bool := decide (u.rank < v.rank) || (u.rank == v.rank && decide (u.key < v.key))

/-- Some other ready unit goes first on one of the unit's masters, or one is busy or still drains. -/
def Dev.mustWait (d : Dev) (u : WUnit) : Bool :=
  let ms := u.masters
  d.units.any (fun v => v.key != u.key && (v.masters.any ms.contains) &&
    (v.phase == 1 || v.phase == 2 || (d.ready v && v.before u))) ||
  ms.any (fun m => d.xfers.any (fun x => x.mid == m))

/-- The frond of a unit's target or partition; none for a copy. -/
def WUnit.frondOf (u : WUnit) : Option Nat := if u.kind == 2 then none else some u.target

/-- A unit has no usable target: RESET (12), MASTER_FROZEN (6), UNIT_UNAVAILABLE (5); 0 where it may start (02 R55, R72,
R73, 10 R335, 13 R440, 14 R469, 15 R496). -/
def Dev.unavailable (d : Dev) (u : WUnit) : Nat :=
  if u.masters.any d.isFrozen then 6
  else match u.frondOf with
    | none =>
      if d.bup.resets.any (fun r => r.level == 2 && r.unit == u.target % 16 / 4) then 12
      else if d.bup.downStacks.contains (u.target % 16 / 4) then 5 else 0
    | some f =>
      let x := d.frond f
      let off (i : Nat) : Bool := (d.dom i).st == 0 && ((d.dom i).req == 2 || (d.dom i).dead) || (d.dom i).st == 5
      if d.bup.resets.any (fun r => (r.level == 0 && r.unit == f) || (r.level == 1 && r.unit == d.home f) || (r.level == 2 && r.unit == d.stk f))
      then 12
      else if 2 ≤ d.thm.ladder then 13
      else if x.retired || x.fenced || !x.up || off (halfDom (d.home f)) || off (d.partDom f) || d.swapping f then 5
      else if u.kind != 0 && u.gemList.any (fun g => !d.gemReady g) then 5
      else 0

/-- The domains a unit waits for: its frond's half-layer and its partition's memory pair. -/
def Dev.domsOf (d : Dev) (u : WUnit) : List Nat := match u.frondOf with
  | some f => [halfDom (d.home f), d.partDom f]
  | none => []

/-! ### Launch -/

/-- A FROND unit is launched (05 R132-R135). DESIGN CHOICE (log 72): a read of the header, the program or the arguments that
completes with status 4 or 6 to 12 ends the unit with READ_FAILED at index 0. -/
def Dev.launchFrond (d : Dev) (u : WUnit) : Dev :=
  let f := u.target
  let x := d.frond f
  let d := d.modFrond f (fun y =>
    { y with store := [], storeP := [], len := 0, sP := [], flags := [], loops := [], mrow := 63, eps := 0#32, sticky := 0#3
             pc := 0, ip := 0, waiting := false, lastCommit := 0xFFFF, arrs := y.arrs.map (fun e => (e.1, { gen := e.2.gen })), cq := []
             lists := if x.osValid then y.lists else [], unit := u.key, wrFail := 0, late := [], att := {}, sthState := 0, sthHigh := 0
             sreg := [(1, BitVec.ofNat 64 u.addrB), (2, BitVec.ofNat 64 f), (3, BitVec.ofNat 64 u.uid)
                      , (4, BitVec.ofNat 64 u.seq), (5, if x.osValid then 1#64 else 0#64)] })
  if u.addrA % 16 != 0 || u.addrB % 64 != 0 then d.frondExc f 12 0 0
  else
    let rd (d : Dev) (k : AccK) (a : Nat) : Dev × Nat × Gran := d.syncKind k (frondAcc f u 0 .lds (a / 64 * 64) 0#512 fullMask false)
    let (d, st, g) := rd d .fetch u.addrA
    let o := u.addrA % 64 / 4
    let len := bf (gWord g o) 14 0
    let entry := bf (gWord g (o + 1)) 13 0
    if st == 5 then d
    else if 4 ≤ st then d.frondExc f 11 0 st
    else if st == 1 then d.frondPoison f
    else if len == 0 || 16384 < len || len ≤ entry then d.frondExc f 12 0 0
    else
      let base := u.addrA + 16
      let first := base / 64
      let n := (base + 16 * len - 1) / 64 - first + 1
      let (d, st, gs) := (List.range n).foldl (fun (s : Dev × Nat × List (Gran × Bool)) i =>
        if 4 ≤ s.2.1 then s
        else
          let (d, st, g) := rd s.1 .fetch ((first + i) * 64)
          (d.frondSticky f u.key st, if 4 ≤ st then st else 0, (g, st == 1) :: s.2.2)) (d, 0, [])
      if st == 5 then d
      else if 4 ≤ st then d.frondExc f 11 0 st
      else
        let gs := gs.reverse
        let ins := (List.range len).map (fun i =>
          let a := base + 16 * i
          let e := gs.getD (a / 64 - first) (0#512, false)
          (i, BitVec.ofNat 128 (bitsAt e.1.toNat (8 * (a % 64)) 128), e.2))
        let (d, st, args) := (List.range 4).foldl (fun (s : Dev × Nat × List (Gran × Bool)) i =>
          if 4 ≤ s.2.1 then s
          else
            let (d, st, g) := rd s.1 .read (u.addrB + 64 * i)
            (d.frondSticky f u.key st, if 4 ≤ st then st else 0, s.2.2 ++ [(g, st == 1)])) (d, 0, [])
        if st == 5 then d
        else if 4 ≤ st then d.frondExc f 11 0 st
        else
          let regs := (List.range 32).map (fun k =>
            let e := args.getD (k / 8) (0#512, false)
            (32 + k, BitVec.ofNat 64 (bitsAt e.1.toNat (64 * (k % 8)) 64), e.2))
          d.modFrond f (fun y => regs.foldl (fun (y : Frond) r => y.setR r.1 r.2.1 r.2.2)
            { y with store := ins.map (fun e => (e.1, e.2.1)), storeP := (ins.filter (fun e => e.2.2)).map (fun e => (e.1, ()))
                     len := len, pc := entry, ip := entry, sticky := 0#3 })

/-- A gemma of a unit is launched (10 R315, R316). -/
def Dev.launchGemma (d : Dev) (u : WUnit) (g : Nat) : Dev :=
  let d := { d with free := d.free + 1 }
  let n := d.free
  let d := d.modGemma g (fun y =>
    { y with len := 0, xP := [], f := [], fP := [], v := [], fcsr := 0, sticky := 0#3, commitId := 0xFFFF, pc := 0, ip := 0
             instret := Config.freeValue n, running := true, fend := false, waiting := false, barrier := none, wrFail := 0
             csr := [(0x803, 4#32), (0x807, BitVec.allOnes 32)]
             x := [(2, 0xFF00#32), (10, BitVec.ofNat 32 (g % 8)), (11, BitVec.ofNat 32 (g / 8)), (12, BitVec.ofNat 32 u.uid)
                   , (13, if y.valid then 1#32 else 0#32)] })
  if u.addrA % 16 != 0 || u.addrB % 64 != 0 then d.gemExc g 11 0 0
  else
    let rd (d : Dev) (k : AccK) (a : Nat) : Dev × Nat × Gran :=
      d.syncKind k { id := 0, mid := gemmaMid g, kind := .gCrd, base := a / 64 * 64, n := 1, limit := 1, wset := u.wset, unit := u.key }
    let (d, st, h) := rd d .fetch u.addrA
    let o := u.addrA % 64 / 4
    let len := bf (gWord h o) 15 0
    let entry := bf (gWord h (o + 1)) 15 0
    if st == 5 then d
    else if 4 ≤ st then d.gemExc g 10 0 st
    else if st == 1 then d.gemPoison g
    else if len == 0 || len % 2 == 1 || 65280 < len || entry % 2 == 1 || len ≤ entry then d.gemExc g 11 0 0
    else
      let base := u.addrA + 16
      let first := base / 64
      let n := (base + len - 1) / 64 - first + 1
      let (d, st, _) := (List.range (n + 4)).foldl (fun (s : Dev × Nat × Bool) i =>
        if 4 ≤ s.2.1 then s
        else
          let prog := decide (i < n)
          let a := if prog then (first + i) * 64 else u.addrB + 64 * (i - n)
          let (d, st, v) := rd s.1 (if prog then .fetch else .read) a
          if 4 ≤ st then (d, st, false)
          else
            let lo := if prog then max a base else a
            let hi := if prog then min (a + 64) (base + len) else a + 64
            let dst := if prog then lo - base else 0xFF00 + 64 * (i - n)
            -- the granule of SRAM that this piece completes: poison in the piece before it reaches it too
            let k := (dst + (hi - lo)) / 64
            let clean := st != 1 && !(s.2.2 && decide (64 * (k - 1) < dst))
            ((d.markSticky u.key st).modGemma g (fun y =>
              let y := y.putBytes dst (hi - lo) (bitsAt v.toNat (8 * (lo - a)) (8 * (hi - lo))) (st == 1) false
              if clean && decide (dst < 64 * k) then { y with sramP := y.sramP.drop (k - 1) } else y), 0, st == 1)) (d, 0, false)
      if st == 5 then d
      else if 4 ≤ st then d.gemExc g 10 0 st
      else d.modGemma g (fun y => { y with len := len, pc := entry, ip := entry })

/-- A copy engine starts (02 R558): its reads, in ascending order; nothing to copy ends it at once. -/
def Dev.launchCopy (d : Dev) (u : WUnit) : Dev :=
  if u.length == 0 then d.endUnit u.key 0 0 0
  else
    let o := u.addrA % 64
    let n := (o + u.length + 63) / 64
    let ends := if o == 0 then [] else [(0, byteMask o (64 - o)), (n - 1, byteMask 0 o)]
    let x : Xfer := { id := d.nextX, mid := engineMid u.target, kind := .copyRead, base := u.addrA - o, n := n, rowG := n
                      limit := n, loc := o, masks := ends, wset := u.wset, unit := u.key }
    { d with xfers := d.xfers ++ [x], nextX := d.nextX + 1 }

/-- The part of a fill in a gemma's banks: first byte and granules (10 R317, R335). -/
def fillPart (u : WUnit) (g : Nat) : Nat × Nat :=
  let lo := max u.addrA (gbaLin g 0)
  let hi := min (u.addrA + u.length) (gbaLin g 0 + 2 ^ 29)
  (lo, (hi - lo) / 64)

/-- The eight gemmas of the partition begin a fill (10 R335). -/
def Dev.launchFill (d : Dev) (u : WUnit) : Dev :=
  let parts := (u.gemList.map (fun g => (g, fillPart u g))).filter (fun e => e.2.2 != 0)
  if parts.isEmpty then d.endUnit u.key 0 0 0
  else parts.foldl (fun d e =>
    let (a, n) := e.2
    let x : Xfer := { id := d.nextX, mid := gemmaMid e.1, kind := .gFill, base := a, n := n, rowG := n, limit := n, ip := 0x10000
                      wset := u.wset, unit := u.key }
    { d with xfers := d.xfers ++ [x], nextX := d.nextX + 1 }) d

/-- UNIT_DISPATCH: a ready unit starts on its free resource, ends for want of one, or waits for a domain (02 R55). -/
def Dev.dispatch (d : Dev) (k t : Nat) : Dev :=
  match d.unit k with
  | none => d
  | some u =>
    if !d.ready u then d
    else
      let d := { d with now := max d.now t }
      let c := d.unavailable u
      if c != 0 then d.endUnit k 2 c 0
      else if d.mustWait u then d
      else match (d.domsOf u).filter (fun i => (d.dom i).st != 4) with
        | [] =>
          let d := d.modUnit k (fun u => { u with phase := 1, start := some d.now })
          (match u.kind with
            | 0 => d.launchFrond u
            | 1 => u.gemList.foldl (fun d g => d.launchGemma u g) d
            | 2 => d.launchCopy u
            | _ => d.launchFill u)
        | l => l.foldl (fun d i => d.askDom i) d

/-! ### What copies and fills do -/

/-- A copy has nothing left to read or write: COMPLETE. -/
def Dev.copyEnd (d : Dev) (k : Nat) : Dev :=
  match d.unit k with
  | some u => if u.phase == 1 && !d.xfers.any (fun x => x.unit == k) then d.endUnit k 0 0 0 else d
  | none => d

/-- The write of bytes lo to lo + n - 1 of a source word at address a, within one destination word; `before`: bytes of the
copy before it. -/
def copyPiece (u : WUnit) (id before a lo n : Nat) (r : XGr) : Xfer :=
  { id := id, mid := engineMid u.target, kind := .copyWrite, base := a / 64 * 64, n := 1, limit := 1, mask := byteMask (a % 64) n
    data := [(0, BitVec.ofNat 512 (bitsAt r.data.toNat (8 * lo) (8 * n) * 2 ^ (8 * (a % 64))))]
    pois := if r.status == 1 then [0] else [], ip := before, wset := u.wset, unit := u.key }

/-- The writes of a source word: it may fall in two destination words, where a copy's addresses are not equally aligned. -/
def copyPieces (u : WUnit) (id o : Nat) (r : XGr) : List Xfer :=
  let before := 64 * r.i - o
  let lo := if r.i == 0 then o else 0
  let n := min (64 - lo) (u.length - before)
  let a := u.addrB + before
  let k := min n (64 - a % 64)
  copyPiece u id before a lo k r :: (if k < n then [copyPiece u (id + 1) (before + k) (a + k) (lo + k) (n - k) r] else [])

/-- A source piece arrives and is written to its destination, in order (02 R558, R559). -/
def Dev.copyDeliver (d : Dev) (x : Xfer) (r : XGr) : Dev :=
  -- pieces are written in the order of their addresses
  if r.i != x.done then d
  else
    let d := d.modXfer x.id (fun e => { e with gr := e.gr.filter (fun y => y.i != r.i), done := e.done + 1 })
    let d := d.markSticky x.unit r.status
    let last := x.done + 1 == x.limit
    let d := if last then d.endXfer x.id else d
    match d.unit x.unit with
    | none => d
    | some u =>
      -- an engine that has stopped issue writes no more
      if 4 ≤ r.status then d.stopUnit u.key 7 (r.status + 16)
      else if u.phase != 1 then d
      else
        let ys := copyPieces u d.nextX x.loc r
        { d with xfers := d.xfers ++ ys, nextX := d.nextX + ys.length }

/-- A destination piece has landed. -/
def Dev.copyLanded (d : Dev) (x : Xfer) (r : XGr) : Dev :=
  let d := d.endXfer x.id
  if 4 ≤ r.status then d.stopUnit x.unit 7 r.status else d.copyEnd x.unit

/-- The next GB.FILL of a FILL unit starts, once its gemma runs none in that bank: up to 256 granules of one bank, each against
the window set, claimed, checked and landed as a gemma's own (10 R326, R335, log 60). -/
def Dev.fillStep (d : Dev) (g : Nat) (x : Xfer) : Dev :=
  match d.unit x.unit with
  | none => d.endXfer x.id
  | some u =>
    let a := x.addr x.next
    if u.phase != 1 || d.xfers.any (fun y => y.mid == x.mid && y.id != x.id && bankOf y.base == bankOf a) || d.sealBusy (bankOf a)
    then d
    else
      let n := min (min 256 (x.limit - x.next)) ((2 ^ 27 - a % 2 ^ 27) / 64)
      let d := d.modXfer x.id (fun e => { e with next := e.next + n })
      let d := if x.next + n == x.limit then d.endXfer x.id else d
      let (d, wt) := d.anyWrites n
      let y : Xfer := { id := 0, mid := x.mid, kind := .gFill, base := a, n := n, rowG := n, limit := n, wset := u.wset, unit := u.key
                        data := (List.range n).map (fun i => (i, fillGran u.pattern)) }
      let id := d.nextX
      (d.issue y 0).bankRun g id [] wt

/-- GEMMA_TRANSFER_END: a gemma's transfer ends; a FILL unit begins its next one, or has filled its range (10 R319, R335). -/
def Dev.transferEnd (d : Dev) (g x : Nat) : Dev :=
  match d.xfer x with
  | none => d
  | some xf =>
    if xf.mid != gemmaMid g then d
    else if xf.kind == .gFill && xf.ip == 0x10000 then d.fillStep g xf
    else
      let d := d.gemXferEnd g x
      match d.unit xf.unit with
      | some u => if u.kind == 3 then d.copyEnd u.key else d
      | none => d

/-- UNIT_END: a stopped unit that has drained ends with the cause that R166 chooses (02 R64, R72). -/
def Dev.unitEndGo (d : Dev) (k t : Nat) : Dev :=
  match d.unit k with
  | none => d
  | some u =>
    if u.phase == 2 && d.drained u then
      let c := chooseStop u.stops
      ({ d with now := max d.now t }).endUnit k (stateOf c.1) c.1 c.2
    else d

end Sys2Proof.Machine
end

