-- ==== Sys2Proof/Machine/Power.lean ====
section
/-! DEFINITION. Power delivery and capping: domains and their switching, telemetry, estimates, budgets, grants and
faults (13). -/

namespace Sys2Proof.Machine

/-! ### What lies in a domain -/

/-- Fronds that a domain feeds, or whose partitions it feeds (13 R424). -/
def Dev.domFronds (d : Dev) (i : Nat) : List Nat :=
  (List.range 256).filter (fun f => if i % 14 < 8 then halfDom (d.home f) == i else if i % 14 < 12 then d.partDom f == i else false)

/-- The converter of a domain: 0 LA, 1 LB, 2 MH and ML together, 3 BL (13 R423). -/
def convOf (i : Nat) : Nat := let j := i % 14; if j < 4 then 0 else if j < 8 then 1 else if j < 12 then 2 else 3
def sameConv (i k : Nat) : Bool := i / 14 == k / 14 && convOf i == convOf k

/-- A frond's stores are cleared (05 R135). -/
def Dev.clearFrond (d : Dev) (f : Nat) : Dev :=
  d.modFrond f (fun x => { x with os := [], osP := [], side := [], sideP := [], lists := [], osValid := false })

/-- A gemma's SRAM is cleared (10 R314). -/
def Dev.clearGemma (d : Dev) (g : Nat) : Dev := d.modGemma g (fun x => { x with sram := [], sramP := [], valid := false })

def gemmasOf (f : Nat) : List Nat := (List.range 8).map (8 * f + ·)

/-- The units that meet a condition end at once: running ones FAULTED and unstarted ones NOT_STARTED, with a cause; what
they have in flight is lost with the power (02 R73). -/
def Dev.killUnits (d : Dev) (p : WUnit → Bool) (cause : Nat) : Dev :=
  let ks := (d.units.filter (fun u => u.phase != 3 && p u)).map (fun u => (u.key, u.phase))
  let d := ks.foldl (fun d e => d.endUnitAs e.1 (if e.2 == 0 then 2 else 3) cause 0) d
  let d := { d with xfers := d.xfers.filter (fun x => !(ks.any (fun e => e.1 == x.unit))) }
  d.depFail d.units.length

/-- A unit uses one of these fronds, their gemmas or their partitions. -/
def WUnit.usesAny (u : WUnit) (fs : List Nat) : Bool := match u.frondOf with
  | some f => fs.contains f
  | none => false

/-- A cache half loses its lines (power lost, or after its write-back); accesses that wait there complete RESET. -/
def Dev.loseHalf (d : Dev) (h : Nat) : Dev :=
  let x := d.half h
  let ws := x.fills.flatMap (·.waiters) ++ x.evicts.flatMap (·.waiters) ++ x.blocked
  let d := ws.foldl (fun d a => d.finishGr a.x a.i 9 0#512) d
  d.setHalf h { x with lines := [], plru := [], fills := [], evicts := [], ghosts := [], blocked := [] }

/-- The memory layers of a memory-pair domain. -/
def domLayers (i : Nat) : List Nat := [8 * (i / 14) + 2 * (i % 14 - 8), 8 * (i / 14) + 2 * (i % 14 - 8) + 1]

/-- What a domain holds is lost with its power (05 R135, 08 R261, 10 R314). -/
def Dev.domLost (d : Dev) (i : Nat) : Dev :=
  let j := i % 14
  if j < 8 then ((d.domFronds i).foldl (fun d f => d.clearFrond f) d).loseHalf (8 * (i / 14) + j)
  else if j < 12 then
    let d := (domLayers i).foldl (fun d l => d.wipeLayer l) d
    (d.domFronds i).foldl (fun d f => (gemmasOf f).foldl (fun d g => d.clearGemma g) d) d
  else d

/-- A domain powers down in order: a half-layer writes its dirty lines back first (13 R440, 09 R306),
with free outcomes (log 60). -/
def Dev.domDown (d : Dev) (i : Nat) : Dev :=
  let h := 8 * (i / 14) + i % 14
  let d := if i % 14 < 8 then
      let (d, ts) := d.anyWrites (4 * (d.half h).held.length)
      d.flushHalf h ts
    else d
  (d.domLost i).modDom i Dom.off

/-- A domain is in use: a unit runs or is carried on what it feeds. -/
def Dev.domBusy (d : Dev) (i : Nat) : Bool := d.units.any (fun u => u.busy && u.usesAny (d.domFronds i))

/-! ### Limits and ceilings (13 R426, R437, R439) -/

def pwrCtrl : Nat := 0x0C000000
def Dev.boost (d : Dev) : Bool := (d.inF pwrCtrl).getLsbD 23
def Dev.rampW (d : Dev) : Nat := let n := bf (d.inF pwrCtrl) 7 0; if n == 0 then 20 else n
def Dev.iinMax (d : Dev) : Nat := let n := bf (d.inF pwrCtrl) 15 8; if 20 ≤ n && n ≤ 55 then n else 55
def Dev.thrPct (d : Dev) : Nat := let n := bf (d.inF pwrCtrl) 22 16; if 10 ≤ n && n ≤ 100 then n else 50
def Dev.idleFrames (d : Dev) : Nat := let n := bf (d.inF pwrCtrl) 28 25; if n == 0 then 4 else n
/-- The half-layer index of a logic domain. -/
def halfOfDom (i : Nat) : Nat := 8 * (i / 14) + i % 14
def Dev.hostCeil (d : Dev) (h : Nat) : Nat := min 42 (bf (d.reg (0x0C000400 + 4 * h)) 5 0)

/-- A frond's fused maximum less its derate, in grant steps (01 R30). -/
def Dev.frondMax (d : Dev) (f : Nat) : Nat := 30 + (d.frond f).fmax - (d.frond f).derate

/-- The limits on a logic domain's grant by throttle reason: thermal (its own layer's and those of the two memory layers
above, 14 R461), budget, host ceiling, derated maximum (the highest of its running fronds; of all while none runs), clamp, and
without a reason the boost and the maximum before the derate: AGEING_DERATE shows only what the derate takes (13 R439). -/
def Dev.grantLimits (d : Dev) (i : Nat) : List (Nat × Nat) :=
  let x := d.dom i
  let h := halfOfDom i
  let m := 32 + 8 * (h / 8) + h % 8 / 2 * 2
  let lim (k : Nat) : Nat := let x := d.thm.layers.get k {}; if h % 2 == 1 && k != h then x.limitE else x.limit
  let th := [h, m, m + 1].foldl (fun a k => min a (lim k)) 42
  let fs := (d.domFronds i).filter (fun f => !(d.frond f).retired)
  let run := fs.filter (fun f => (d.unitOn f).isSome)
  let best (p : Nat → Nat) : Nat := (if run.isEmpty then fs else run).foldl (fun m f => max m (p f)) 0
  [(0, th), (x.bsrc, x.bl), (5, d.hostCeil h), (6, best d.frondMax), (7, x.rl), (8, if d.boost then 42 else 36),
    (8, best (fun f => 30 + (d.frond f).fmax))]

def minLimit (l : List (Nat × Nat)) : Nat := l.foldl (fun m e => min m e.2) 42

/-- The ceiling of a logic domain, the budget apart. -/
def Dev.ceiling (d : Dev) (i : Nat) : Nat := minLimit ((d.grantLimits i).eraseIdx 1)

/-- The active reasons: those whose limit is the grant and lies below what the other limits alone would give. -/
def reasonsOf (l : List (Nat × Nat)) (grant : Nat) : Nat :=
  ((List.range l.length).zip l).foldl (fun m e =>
    let others := minLimit (l.eraseIdx e.1)
    if e.2.1 < 8 && e.2.2 == grant && e.2.2 < others && !m.testBit e.2.1 then m + 2 ^ e.2.1 else m) 0

/-- The gates on a memory pair by reason, in eighths: the thermal limiter's, the budget's and the clamp's. -/
def Dev.gateLimits (d : Dev) (i : Nat) : List (Nat × Nat) :=
  let x := d.dom i
  let th := (domLayers i).foldl (fun m l => max m (d.thm.layers.get (32 + l) {}).limitGate) 0
  [(0, th), (x.bsrc, x.bgate), (7, x.rgate)]

def gateReasons (l : List (Nat × Nat)) (gate : Nat) : Nat :=
  ((List.range l.length).zip l).foldl (fun m e =>
    let others := (l.eraseIdx e.1).foldl (fun a x => max a x.2) 0
    if e.2.2 == gate && others < e.2.2 && !m.testBit e.2.1 then m + 2 ^ e.2.1 else m) 0

/-- The voltage-frequency table's entry for a grant, in mV (13 R427). -/
def tableVolts (fs : Fuses) (h grant : Nat) : Nat := fs.vf.get (h * 64 + grant) 0

/-- The grant in force at a moment: a rise counts once the voltage for it has settled (13 R427). -/
def Dom.grantAt (x : Dom) (now : Nat) : Nat := if x.grant < x.next && x.nextAt ≤ now then x.next else x.grant

/-- The regulator's setpoint at a moment, in mV: it slews at 10 mV/µs from where it was last set towards the voltage that
holds the lowest droop sensor at the target (13 R427); 0 while it is off. The correction is a free value (log 14). -/
def Dev.setpointNow (d : Dev) (h : Nat) : Nat :=
  let x := d.dom (halfDom h)
  let aim := ((x.target : Int) + Config.setpointCorrection h d.now).toNat
  let reach := (d.now - x.setAt) / 100
  if x.target == 0 then 0 else if x.setpoint == 0 then aim else max (x.setpoint - reach) (min (x.setpoint + reach) aim)

/-- A domain's grant or gate, reasons and setpoint follow its limits. A grant falls at once; it rises by one step, within
2 µs, once the voltage for that step has settled, at a moment that is free (13 R427, R437, log 14). -/
def Dev.settleDom (d : Dev) (fs : Fuses) (i : Nat) : Dev :=
  let x := d.dom i
  let dr := if x.droop then 8 else 0
  if i % 14 < 8 then
    let l := d.grantLimits i
    let g := minLimit l
    let h := halfOfDom i
    let floor := (d.thm.layers.get h {}).floor
    let now := min g (x.grantAt d.now)
    let pending := decide (now < x.next) && decide (x.next ≤ g) && decide (d.now < x.nextAt)
    let (d, v) := d.draw
    let next := if pending then x.next else if now < g then now + 1 else now
    let nextAt := if pending then x.nextAt else d.now + v.toNat % 2001
    let sp := d.setpointNow h
    d.modDom i (fun y => { y with grant := now, next := next, nextAt := nextAt, thr := BitVec.ofNat 8 (reasonsOf l now ||| dr)
                                  target := tableVolts fs h next, setpoint := sp, setAt := d.now
                                  stretch := if floor then max 4 y.bgate else y.bgate })
  else if i % 14 < 12 then
    let l := d.gateLimits i
    let g := l.foldl (fun a e => max a e.2) 0
    d.modDom i (fun y => { y with gate := g, thr := BitVec.ofNat 8 (gateReasons l g) })
  else d

/-! ### The cap (13 R433) -/

/-- The coolant derate in mW; none where it does not limit (14 R463, R464). -/
def Dev.coolantCap (d : Dev) : Option Rat :=
  let t := d.thm
  let quarter : Rat := (d.pwr.cap : Rat) * 250
  let hot : Rat := 2400000 * (1 - (5 / 100) * ((t.lastIn : Rat) / 100 - 40))
  let deg : Rat := 2400000 * t.lastFlow / 340
  if 1 ≤ t.ladder || t.lost || t.leak then some quarter
  else if t.hot && t.deg then some (min hot deg)
  else if t.hot then some hot
  else if t.deg then some deg
  else none

/-- CAP_EFF in mW with the throttle reason of whatever sets it: 1 the cap, 2 the input current, 4 coolant, 5 THROTTLE_N. -/
def Dev.capEff (d : Dev) : Rat × Nat :=
  let cap : Rat := (d.pwr.cap : Rat) * 1000
  let thr : Option Rat := if d.pwr.throttleUse then some (cap * d.thrPct / 100) else none
  let iin : Rat := (d.iinMax * d.pwr.vin * 10 : Nat)
  let pick (a : Rat × Nat) (b : Option Rat) (k : Nat) : Rat × Nat := match b with
    | some v => if v < a.1 then (max 0 v, k) else a
    | none => a
  pick (pick (pick (cap, 1) thr 5) d.coolantCap 4) (some iin) 2

/-! ### Budgets (13 R436) -/

/-- An amount shared in proportion to weights, each share within its limit; what a limited one cannot take goes to the
others, in proportion. Answers for each its share and whether its limit set it. -/
def share : Nat → Rat → List (Rat × Rat) → List (Rat × Bool)
  | 0, _, l => l.map (fun e => (e.2, true))
  | n + 1, a, l =>
    let w := l.foldl (fun s e => s + e.1) 0
    let want (e : Rat × Rat) : Rat := if w == 0 then 0 else a * e.1 / w
    let full := l.map (fun e => decide (e.2 < want e))
    if full.any id then
      let taken := (l.zip full).foldl (fun s e => if e.2 then s + e.1.2 else s) 0
      let rest := share n (max 0 (a - taken)) ((l.zip full).map (fun e => if e.2 then (0, 0) else e.1))
      ((l.zip full).zip rest).map (fun e => if e.1.2 then (e.1.1.2, true) else e.2)
    else l.map (fun e => (want e, false))

/-- The demand D[s][r][p][j] in mW; MIXED uses the mean of the four roles (13 R450). -/
def demandReg (s r p j : Nat) : Nat := 0x0C010000 + 0x1000 * s + 4 * (224 * r + 14 * p + j)
def Dev.demand (d : Dev) (role p s j : Nat) : Rat :=
  let one (r : Nat) : Rat := (bf (d.reg (demandReg s r p j)) 15 0 * 10 : Nat)
  if 4 ≤ role then (one 0 + one 1 + one 2 + one 3) / 4 else one role

/-- The voltage that a logic domain's current is taken at: its table voltage, or the top of the range while it has none. -/
def Dom.volts (x : Dom) : Nat := if x.target == 0 then 850 else x.target

/-- The stage-2 converters of a stack (13 R423): the local domains each serves, its limit in A, and its rail: 0 logic, 1 the
memory pairs' 1.05 V, 2 their 0.75 V, 3 base die and link. -/
def convs : List (List Nat × Nat × Nat) :=
  [([0, 1, 2, 3], 170, 0), ([4, 5, 6, 7], 170, 0), ([8, 9, 10, 11], 40, 1), ([8, 9, 10, 11], 140, 2), ([12, 13], 70, 3)]

/-- The limit in A of a local domain on a rail (13 R423). -/
def domAmps (j rail : Nat) : Nat := match rail with
  | 0 => 60
  | 1 => 12
  | 2 => 40
  | _ => if j == 12 then 25 else 45

/-- The rails that feed a local domain. -/
def railsOf (j : Nat) : List Nat := if j < 8 then [0] else if j < 12 then [1, 2] else [3]

/-- The reported efficiency, as a fraction, of a domain's two converters; of stack s's stage 1 at 56 + s. -/
def Dev.efficiency (d : Dev) (i : Nat) : Rat := ((max 1 (min 1000 (Config.efficiency i d.free)) : Nat) : Rat) / 1000

/-- The current in A that a mW of a domain's input-referred power puts on one of its rails. How a memory pair's power
divides over its two rails is a free value (log 14). -/
def Dev.ampsPer (d : Dev) (i rail : Nat) : Rat :=
  let e := d.efficiency i
  let high : Rat := ((max 1 (min 999 (Config.railShare i d.free)) : Nat) : Rat) / 1000
  match rail with
  | 0 => e / (d.dom i).volts
  | 1 => e * high / 1050
  | 2 => e * (1 - high) / 750
  | _ => e / (if i % 14 == 12 then 800 else 900)

/-- A domain's limit of R423 as input-referred mW: that of its rail that reaches its own first. -/
def Dev.domLimit (d : Dev) (i : Nat) : Rat :=
  let lim (r : Nat) : Rat := (domAmps (i % 14) r : Nat) / d.ampsPer i r
  (railsOf (i % 14)).foldl (fun m r => min m (lim r)) (lim ((railsOf (i % 14)).headD 0))

/-- The current on a converter of stack s when its domains draw `p` input-referred mW. -/
def Dev.convLoad (d : Dev) (s : Nat) (p : Nat → Rat) (c : List Nat × Nat × Nat) : Rat :=
  c.1.foldl (fun a j => a + p j * d.ampsPer (14 * s + j) c.2.2) 0

/-- What stage 1 of a stack may take in mW: 730 W, and no more than gives 110 A at an eighth of the input (13 R423, R436). -/
def Dev.stackLimit (d : Dev) (s : Nat) : Rat := min 730000 (110 * ((10 * d.pwr.vin : Nat) : Rat) / 8 / d.efficiency (56 + s))

/-- A stack's share over its domains (weights and limits in `l`): first within the domain limits; a converter over its own
limit is held to it, and the excess is shared among the domains of the others. -/
def Dev.shareStack (d : Dev) (s : Nat) : Nat → Rat → List (Rat × Rat) → List (Rat × Bool)
  | 0, _, l => l.map (fun _ => (0, true))
  | n + 1, amount, l =>
    let first := share 13 amount l
    let p (j : Nat) : Rat := (first.getD j (0, false)).1
    let full := convs.filter (fun c => decide ((c.2.1 : Rat) < d.convLoad s p c))
    if full.isEmpty then first
    else
      let held (j : Nat) : Option Rat := match full.filter (·.1.contains j) with
        | [] => none
        | cs => some (cs.foldl (fun m c => min m (p j * c.2.1 / d.convLoad s p c)) (p j))
      let taken := (List.range 12).foldl (fun a j => a + (held j).getD 0) 0
      let rest := d.shareStack s n (max 0 (amount - taken))
        ((l.zip (List.range 12)).map (fun e => if (held e.2).isSome then (0, 0) else e.1))
      (List.range 12).map (fun j => match held j with
        | some b => (b, true)
        | none => rest.getD j (0, false))

/-- The budgets of a stack's domains from its share, within the domain and converter limits. -/
def Dev.stackBudget (d : Dev) (s : Nat) (amount : Rat) (limited : Bool) (src : Nat) : Dev :=
  let l := (List.range 12).map (fun j => (d.demand d.frm.role d.frm.phase s j, d.domLimit (14 * s + j)))
  let bs := d.shareStack s 5 amount l
  (List.range 12).foldl (fun d j =>
    let (b, cut) := bs.getD j (0, false)
    d.modDom (14 * s + j) (fun x => { x with budget := b, bsrc := if limited || cut then 2 else src })) d

/-- A domain's measured power in mW: its estimate × 1.25 in its place while a current is implausible (13 R431). -/
def Dev.measuredW (d : Dev) (measured : List Nat) (i : Nat) : Rat :=
  if (d.dom i).implausible then (d.dom i).est * 5 / 4 else (measured.getD i 0 : Nat)

/-- BUDGET_ALLOCATION at the tick: CAP_EFF is shared over the stacks and their domains. -/
def Dev.allocate (d : Dev) (measured : List Nat) : Dev :=
  let m (s j : Nat) : Rat := d.measuredW measured (14 * s + j)
  let fixed (s : Nat) : Rat := m s 12 + m s 13
  let (cap, src) := d.capEff
  let avail := max 0 (cap - (fixed 0 + fixed 1 + fixed 2 + fixed 3))
  let dem (s : Nat) : Rat := (List.range 12).foldl (fun a j => a + d.demand d.frm.role d.frm.phase s j) 0
  let shares := share 5 avail ((List.range 4).map (fun s => (dem s, max 0 (d.stackLimit s - fixed s))))
  let d := { d with free := d.free + 1 }
  let d := (List.range 4).foldl (fun d s =>
    let e := shares.getD s (0, false)
    d.stackBudget s e.1 e.2 src) d
  { d with pwr := { d.pwr with pools := [], measured := measured, capAt := cap } }

/-- PLAN_CHECK_END: a held plan's ROLE governs the frame as of its tick, so the tick's shares are formed again (02 R48, R56). -/
def Dev.planTaken (d : Dev) (i : Nat) : Dev :=
  let held := (d.slot i).st == 2
  let d := d.planCheckEnd i
  if held && d.frm.taken.isSome then d.allocate d.pwr.measured else d

/-- A value between two integers is stored as one of them. -/
def Dev.round (d : Dev) (q : Rat) : Dev × Int :=
  if q.den == 1 then (d, q.num) else
    let (d, v) := d.draw
    (d, q.floor + (if v.getLsbD 0 then 1 else 0))

/-- DEMAND_LEARN: the entries of the closed frame's role and phase move towards the measured power (13 R438). The boundary
calls it under LEARN, after a frame that ran a plan under one of the four roles. -/
def Dev.learn (d : Dev) (role phase : Nat) (measured : List Nat) : Dev :=
  (List.range 56).foldl (fun d i =>
    let r := demandReg (i / 14) role phase (i % 14)
    let old : Rat := (bf (d.reg r) 15 0 : Nat)
    let p : Rat := d.measuredW measured i / 10
    let new := old + (p - old) / 8
    let new := if d.pwr.frameUs < 10 * (d.dom i).heldUs then max old new else new
    let (d, v) := d.round new
    d.setReg r (BitVec.ofNat 32 (min 65535 v.toNat))) d

/-! ### Telemetry (13 R431, R432, R422) -/

/-- Neither negative nor above twice the limit, in 10 mA: a domain's first rail, and a memory pair's 1.05 V rail. -/
def plausible (i : Nat) (c : Int) : Bool :=
  let j := i % 14
  let top : Int := if j < 8 then 12000 else if j < 12 then 8000 else if j == 12 then 5000 else 9000
  decide (0 ≤ c) && decide (c ≤ top)
def plausible2 (i : Nat) (c2 : Int) : Bool := i % 14 < 8 || 12 ≤ i % 14 || (decide (0 ≤ c2) && decide (c2 ≤ 2400))

def telemReg (i : Nat) : Nat := 0x0C000200 + 4 * i

/-- The means of the last whole millisecond are published. -/
def Dev.publish (d : Dev) : Dev :=
  let n := d.pwr.samples
  if n == 0 then d
  else
    let d := (List.range 56).foldl (fun d i =>
      let x := d.dom i
      let (d, a) := d.round ((x.cSum : Rat) / max 1 x.n1)
      let (d, b) := d.round ((x.c2Sum : Rat) / max 1 x.n2)
      let c := if x.bad1 then 0xFFFF else min 65535 a.toNat
      let c2 := if i % 14 < 8 || 12 ≤ i % 14 then 0 else if x.bad2 then 0xFFFF else min 65535 b.toNat
      let d := d.setReg (telemReg i) (pack [(c, 0), (c2, 16)])
      let (d, v) := d.draw
      d.modDom i (fun y => { y with cSum := 0, c2Sum := 0, n1 := 0, n2 := 0,
                                    vmin := if i % 14 < 8 && y.st == 4 then v.toNat % 4096 else y.vmin })) d
    let (d, v) := d.round ((d.pwr.vSum : Rat) / n)
    let (d, c) := d.round ((d.pwr.iSum : Rat) / n)
    let d := d.setReg 0x0C000008 (pack [(min 65535 v.toNat, 0), (min 65535 c.toNat, 16)])
    { d with pwr := { d.pwr with samples := 0, vSum := 0, iSum := 0 } }

/-- PWR_VIN_LOW and PWR_VIN_HIGH, once per frame each (13 R422). -/
def Dev.vinErrors (d : Dev) (vin : Nat) : Dev :=
  let d := { d with pwr := { d.pwr with vin := vin } }
  if 4200 ≤ vin && vin < 4400 && !d.pwr.vinErr.getLsbD 0 then
    let d := { d with pwr := { d.pwr with vinErr := d.pwr.vinErr ||| 1#2 } }
    d.raise 0 { cls := 0, kind := 0, code := 0x0C01 }
  else if 5600 < vin && vin ≤ 5800 && !d.pwr.vinErr.getLsbD 1 then
    let d := { d with pwr := { d.pwr with vinErr := d.pwr.vinErr ||| 2#2 } }
    d.raise 0 { cls := 0, kind := 0, code := 0x0C02 }
  else d

/-- TELEMETRY_SAMPLE: every domain rail current, the input voltage and current. -/
def Dev.telemetry (d : Dev) (t : Nat) (cs c2s : List Int) (vin iin : Nat) : Dev :=
  let d := if t / 1000000 != d.pwr.ms then
      let d := d.publish
      { d with pwr := { d.pwr with ms := t / 1000000 } }
    else d
  let d := { d with now := max d.now t }
  let dt := t - d.pwr.sampleAt
  let e : Rat := d.pwr.inEnergy + ((vin * iin * dt : Nat) : Rat) / 10000000
  let up := (e.floor - d.pwr.inEnergy.floor).toNat
  let d := d.bump (cMod 28) up
  let p := d.pwr
  let d := { d with pwr := { p with sampleAt := t, inEnergy := e, samples := p.samples + 1, vSum := p.vSum + vin
                                    iSum := p.iSum + iin, vin := vin, iin := iin } }
  let d := (List.range 56).foldl (fun d i =>
    let c := cs.getD i 0
    let c2 := c2s.getD i 0
    let ok := plausible i c
    let ok2 := plausible2 i c2
    let first := !(ok && ok2) && !(d.dom i).suspectErr
    let d := d.modDom i (fun x => { x with
      bad1 := !ok, bad2 := !ok2, implausible := !(ok && ok2), suspectErr := x.suspectErr || first
      cSum := if ok then x.cSum + c else x.cSum, n1 := if ok then x.n1 + 1 else x.n1
      c2Sum := if ok2 then x.c2Sum + c2 else x.c2Sum, n2 := if ok2 then x.n2 + 1 else x.n2 })
    let w := d.reg (telemReg i)
    let d := if ok && ok2 then d
      else d.setReg (telemReg i) (pack [(if ok then bf w 15 0 else 0xFFFF, 0), (if ok2 then bf w 31 16 else 0xFFFF, 16)])
    if first then d.raise (i / 14) { cls := 0, kind := 10, src := i, code := 0x0C03 } else d) d
  d.vinErrors vin

def gainReg (i : Nat) : Nat := 0x0C000300 + 4 * i
def Dev.gain (d : Dev) (i : Nat) : Rat := ((bf (d.reg (gainReg i)) 15 0 : Nat) : Rat) / 16384

/-- GAIN_CALIBRATION: raw and measured means of a millisecond, in mW (13 R432); the budgets are corrected by the
difference between mean estimate and mean measurement (13 R437). -/
def Dev.calibrate (d : Dev) (raw meas : List Nat) : Dev :=
  (List.range 56).foldl (fun d i =>
    let x := d.dom i
    let r : Rat := (raw.getD i 0 : Nat)
    let g := d.gain i
    let e := r * g
    let m : Rat := if x.implausible then e * 5 / 4 else (meas.getD i 0 : Nat)
    let d := d.modDom i (fun y => { y with meas := m, budget := max 0 (y.budget + (e - m)) })
    if x.implausible || r < 1000 then d
    else
      let g' := max (1 / 2) (min 2 (g + (m / r - g) / 8))
      let (d, v) := d.round (g' * 16384)
      d.setReg (gainReg i) (BitVec.ofNat 32 v.toNat)) d

/-! ### The control step (13 R432, R435, R437) -/

/-- A domain's budget control: by steps of the grant, and below the floor by eighths; or by eighths of the gate. -/
def Dev.budgetStep (d : Dev) (i : Nat) (mayRise : Bool) : Dev :=
  let x := d.dom i
  let down := if x.budget * 11 / 10 < x.est then 2 else if x.budget < x.est then 1 else 0
  let rise := decide (x.est < x.budget * 95 / 100) && mayRise
  if i % 14 < 8 then
    let steps := if down == 2 then 4 else down
    if 0 < down then
      let bl := min x.bl (x.grantAt d.now)
      d.modDom i (fun y => { y with bl := bl - steps, bgate := min 6 (y.bgate + (steps - min steps bl)) })
    else if rise then
      if 0 < x.bgate then d.modDom i (fun y => { y with bgate := y.bgate - 1 })
      else d.modDom i (fun y => { y with bl := min 42 (min (y.bl + 1) (d.ceiling i + 1)) })
    else d
  else if 0 < down then d.modDom i (fun y => { y with bgate := min 8 (y.bgate + down) })
  else if rise then d.modDom i (fun y => { y with bgate := y.bgate - 1 })
  else d

/-- One step of the clamp that a waiting domain sets on another of its converter (13 R441). -/
def Dev.clampStep (d : Dev) (i : Nat) : Dev :=
  if i % 14 < 8 then d.modDom i (fun y => { y with rl := min y.rl (y.grantAt d.now) - 1 })
  else d.modDom i (fun y => { y with rgate := min 8 (max y.rgate y.gate + 1) })

/-- What a domain's budget can still rise by within the limits of the domain, its converters and its stage 1 (13 R434). -/
def Dev.room (d : Dev) (i : Nat) : Rat :=
  let s := i / 14
  let p (j : Nat) : Rat := if j < 12 then (d.dom (14 * s + j)).budget else 0
  let fixed := d.measuredW d.pwr.measured (14 * s + 12) + d.measuredW d.pwr.measured (14 * s + 13)
  let stack := (List.range 12).foldl (fun a j => a - p j) (d.stackLimit s - fixed)
  let own := d.domLimit i - p (i % 14)
  max 0 ((convs.filter (·.1.contains (i % 14))).foldl (fun m c => min m ((c.2.1 - d.convLoad s p c) / d.ampsPer i c.2.2)) (min own stack))

/-- Budget that a lightly loaded domain releases goes to its stack's pool, and domains held by their budgets draw from it
in domain order, within the limits of R423 (13 R434, R437). -/
def Dev.poolStep (d : Dev) (s : Nat) : Dev :=
  (List.range 12).foldl (fun d j =>
    let i := 14 * s + j
    let x := d.dom i
    let pool := d.pwr.pools.get s 0
    if x.est < x.budget * 9 / 10 then
      let d := d.modDom i (fun y => { y with budget := y.est })
      { d with pwr := { d.pwr with pools := d.pwr.pools.put s (pool + (x.budget - x.est)) } }
    else if x.budget < x.est then
      let want := min pool (x.est - x.budget)
      let room := d.room i
      let d := d.modDom i (fun y => { y with budget := y.budget + min want room, bsrc := if room < want then 2 else y.bsrc })
      { d with pwr := { d.pwr with pools := d.pwr.pools.put s (pool - min want room) } }
    else d) d

/-- A CAP_EFF below the one that the budgets come from governs from the next control step on: they are formed again (13 R433,
R434, R443, log 40). -/
def Dev.followCap (d : Dev) : Dev := if d.capEff.1 < d.pwr.capAt then d.allocate d.pwr.measured else d

/-- POWER_CONTROL_STEP: every 10 µs each domain's raw estimate in mW becomes its estimate, and grants and gates follow. -/
def Dev.powerStep (d : Dev) (fs : Fuses) (t : Nat) (raw : List Nat) : Dev :=
  let d := Dev.followCap { d with now := max d.now t }
  let d := (List.range 56).foldl (fun d i =>
    let e := ((raw.getD i 0 : Nat) : Rat) * d.gain i
    let en := (d.dom i).energy + e / 100
    let up := (en.floor - (d.dom i).energy.floor).toNat
    (d.modDom i (fun y => { y with est := e, energy := en })).bump (cDom i 8) up) d
  let total : Rat := (List.range 56).foldl (fun (a : Rat) i => a + (d.dom i).est) 0
  let guard := decide (((d.rampW * 10000 : Nat) : Rat) ≤ total - d.pwr.power)
  let d := { d with pwr := { d.pwr with power := total, frameUs := d.pwr.frameUs + 10 } }
  let ctl := (List.range 56).filter (fun i => i % 14 < 12 && (d.dom i).st == 4)
  let d := ctl.foldl (fun d i =>
    let hold := guard && decide ((d.dom i).est < (d.dom i).budget * 95 / 100)
    let d := (d.budgetStep i (!guard)).settleDom fs i
    let d := if hold then d.modDom i (fun y => { y with thr := y.thr ||| 0x80#8 }) else d
    let th := (d.dom i).thr
    let d := (List.range 8).foldl (fun d b => if th.getLsbD b then d.bump (cDom i b) 10 else d) d
    if th.getLsbD 1 || th.getLsbD 2 then d.modDom i (fun y => { y with heldUs := y.heldUs + 10 }) else d) d
  (List.range 4).foldl (fun d s => d.poolStep s) d

/-- STACK_POOL_REBALANCE: stipe 0 moves pooled budget between the stacks in proportion to the unmet demand. -/
def Dev.rebalance (d : Dev) : Dev :=
  let pool (s : Nat) : Rat := d.pwr.pools.get s 0
  let total := pool 0 + pool 1 + pool 2 + pool 3
  let unmet (s : Nat) : Rat := (List.range 12).foldl (fun a j =>
    let x := d.dom (14 * s + j)
    a + max 0 (x.est - x.budget)) 0
  let u := unmet 0 + unmet 1 + unmet 2 + unmet 3
  if u == 0 then d
  else { d with pwr := { d.pwr with pools := (List.range 4).map (fun s => (s, total * unmet s / u)) } }

/-! ### Switching on (13 R441) -/

/-- SWITCH_ON_TEST: the samples of its converter's load in thousandths of the limit, oldest first, of the last 100 µs or
since the last clamp step. While it fails with a load above 90 %, a clamp that is in force takes its next step. -/
def Dev.switchTest (d : Dev) (fs : Fuses) (i : Nat) (load : List Nat) (t : Nat) : Dev :=
  let d := { d with now := max d.now t }
  if (d.dom i).st != 1 then d
  else
    let mates := (List.range 56).filter (fun k => k != i && sameConv i k)
    let turn := mates.any (fun k => (d.dom k).st == 2 || ((d.dom k).st == 1 && k < i))
    if load.all (fun l => decide (l ≤ 900)) && !turn then
      (d.modDom i (fun x => { x with st := 2, asked := 0 })).inc (cDom i 9)
    else
      let d := if (d.dom i).waited then d else d.inc (cDom i 10)
      let d := d.modDom i (fun x => { x with waited := true })
      if 900 < load.getLast?.getD 0 then
        (mates.filter (fun k => (d.dom k).clamp == some i && (d.dom k).st == 4)).foldl (fun d k => (d.clampStep k).settleDom fs k) d
      else d

/-- RAMP_END: INIT follows. -/
def Dev.rampEnd (d : Dev) (i t : Nat) : Dev :=
  let d := { d with now := max d.now t }
  if (d.dom i).st != 2 then d else d.modDom i (fun x => { x with st := 3 })

/-- INIT_END: the domain's SRAM is initialised, and it is in service. -/
def Dev.initEnd (d : Dev) (i t : Nat) : Dev :=
  let d := { d with now := max d.now t }
  if (d.dom i).st != 3 then d
  else
    let j := i % 14
    let d := if j < 8 then (d.domFronds i).foldl (fun d f => d.clearFrond f) d
      else if j < 12 then (d.domFronds i).foldl (fun d f => (gemmasOf f).foldl (fun d g => d.clearGemma g) d) d else d
    d.modDom i (fun x => { x with st := 4, waited := false, grant := 0, next := 0, bl := 0, idle := 0 })

/-- CLAMP_RELEASE: 100 µs after the ramp of a domain ended, its clamp on the others is released. -/
def Dev.clampRelease (d : Dev) (i t : Nat) : Dev :=
  let d := { d with now := max d.now t }
  if (d.dom i).st == 1 || (d.dom i).st == 2 then d
  else (List.range 56).foldl (fun d k =>
    if (d.dom k).clamp == some i then d.modDom k (fun x => { x with clamp := none, rl := 42, rgate := 0 }) else d) d

/-! ### Faults and droop (13 R428, R442) -/

/-- A whole stack loses power (13 R442). -/
def Dev.stackOff (d : Dev) (s : Nat) : Dev :=
  let fs := (List.range 256).filter (fun f => d.stk f == s)
  let d := d.killUnits (fun u => u.usesAny fs || (u.kind == 2 && u.target / 4 == s)) 13
  let d := (List.range 14).foldl (fun d j => (d.domLost (14 * s + j)).modDom (14 * s + j) (fun x => { x.off with dead := true })) d
  let d := fs.foldl (fun d f => d.modFrond f (fun x => { x with pendRetire := true })) d
  { d with bup := { d.bup with downStacks := s :: d.bup.downStacks } }

/-- CONVERTER_FAULT. -/
def Dev.convFault (d : Dev) (i : Nat) (stageOne : Bool) (t : Nat) : Dev :=
  let d := ({ d with now := max d.now t }).inc (cDom i 12)
  let s := i / 14
  if stageOne || i % 14 == 12 then
    let d := d.stackOff s
    d.raise s { cls := if s == 0 then 4 else 3, kind := 7, src := s, code := 0x0C06 }
  else
    let x := d.dom i
    let again := match x.faultAt with
      | some t0 => decide (t < t0 + 1000000000)
      | none => false
    let d := (d.killUnits (fun u => u.usesAny (d.domFronds i)) 13).domLost i
    let d := d.modDom i (fun x => { x.off with st := 5, faultAt := some t, dead := x.dead || again, fall := x.fall || again })
    d.raise s { cls := 2, kind := 10, src := i, code := 0x0C05 }

/-- DROOP_STRETCH of a half-layer, which RAMPING and INIT mask. -/
def Dev.droop (d : Dev) (h : Nat) : Dev :=
  let i := halfDom h
  if (d.dom i).st != 4 || (d.dom i).droop then d
  else (d.modDom i (fun x => { x with droop := true, thr := x.thr ||| 8#8 })).inc (cHl h 0)

def Dev.droopEnd (d : Dev) (h : Nat) : Dev :=
  d.modDom (halfDom h) (fun x => { x with droop := false, thr := x.thr &&& 0xF7#8 })

/-! ### At the frame boundary -/

/-- DERATE_APPLY (13 R430): a frond whose maximum falls below 0.900 GHz retires. -/
def Dev.derates (d : Dev) : Dev :=
  (List.range 256).foldl (fun d f =>
    match (d.frond f).pendDerate with
    | none => d
    | some n =>
      let d := d.modFrond f (fun x => { x with derate := n, pendDerate := none })
      if d.frondMax f < 24 && !(d.frond f).retired then
        (d.modFrond f (fun x => { x with pendRetire := true })).raise (d.stk f) { cls := 2, kind := 1, src := f, code := 0x0C04 }
      else d) d

/-- AGEING_CHECK of a stack: derates in bins by logical frond, of those that the stack carries. One of a run takes effect at
the next boundary and never falls until module reset; one of bring-up at once (13 R430). -/
def Dev.ageing (d : Dev) (s : Nat) (l : List (Nat × Nat)) : Dev :=
  let d := l.foldl (fun d e =>
    if d.stk e.1 == s && e.1 < 256 then d.modFrond e.1 (fun x =>
      { x with pendDerate := some (max (x.pendDerate.getD x.derate) (min 15 e.2)) })
    else d) d
  if d.bup.stage == 7 then d else d.derates

/-- The sweep ran in a half-layer, or on its stitch bridge, in this frame. -/
def Dev.sweptIn (d : Dev) (h : Nat) : Bool := d.sweep.spent.any (fun e =>
  if e.1 < 256 then d.home e.1 == h else if e.1 < 288 then e.1 == 256 + h else 304 ≤ e.1 && e.1 - 304 == h / 2)

/-- No unit, access or sweep touched a logic half-layer in the frame just closed (13 R440). `ran`: the fronds on which, or
on whose partitions, a unit ran or was carried. -/
def Dev.domIdle (d : Dev) (i : Nat) (ran : List Nat) : Bool :=
  let h := halfOfDom i
  let x := d.half h
  !ran.any (d.domFronds i).contains && !d.sweptIn h &&
  [0, 1, 2, 3, 4, 5, 16, 17].all (fun c => d.stat.live.get (cHalf h c) 0 == 0) &&
  x.fills.isEmpty && x.evicts.isEmpty && x.blocked.isEmpty

/-- Idle frames are counted before the frame's units and counters go (13 R440), and the sweep's time starts anew. -/
def Dev.countIdle (d : Dev) (ran : List Nat) : Dev :=
  let d := (List.range 56).foldl (fun d i =>
    if i % 14 < 8 then
      let idle := d.domIdle i ran
      d.modDom i (fun x => { x with idle := if idle then x.idle + 1 else 0 })
    else d) d
  { d with sweep := { d.sweep with spent := [] } }

/-- A change of REQ takes effect once nothing runs or is carried there; AUTO power-down, retries of faulted domains, the
second tick of a waiting switch-on (13 R440-R442). `warm`: stacks whose AUTO half-layers stay on (14 R467). -/
def Dev.domBoundary (d : Dev) (warm : List Nat) : Dev :=
  (List.range 56).foldl (fun d i =>
    let j := i % 14
    if j == 12 then d
    else
      let want := if j == 13 then 0 else let r := bf (d.reg (0x0C000100 + 4 * i)) 1 0; if r == 3 then 1 else r
      let d := if (d.dom i).req != want && !d.domBusy i then d.modDom i (fun x => { x with req := want }) else d
      let x := d.dom i
      if x.fall then
        (d.domFronds i).foldl (fun d f => d.modFrond f (fun y => { y with pendRetire := true })) (d.modDom i (fun x => { x with fall := false }))
      else if x.st == 5 then
        if x.dead then d else (d.modDom i (fun x => { x with st := 0 })).askDom i
      else if x.st == 4 then
        if x.req == 2 && !d.domBusy i then d.domDown i
        else if x.req == 1 && j < 8 && d.idleFrames ≤ x.idle && !d.domBusy i && !warm.contains (i / 14) then d.domDown i
        else d
      else if x.st == 0 then
        if x.req == 0 || (x.req == 1 && 8 ≤ j) then d.askDom i else d
      else if x.st == 1 then
        let n := x.asked + 1
        let d := d.modDom i (fun x => { x with asked := n })
        if n == 2 then
          let mates := (List.range 56).filter (fun k => k != i && sameConv i k && (d.dom k).st == 4 && k % 14 < 12)
          let d := d.inc (cDom i 11)
          mates.foldl (fun d k => (d.modDom k (fun x => if x.clamp.isNone then { x with clamp := some i } else x)).clampStep k) d
        else d
      else d) d

/-- Each domain's counts of the frame restart, and its once-a-frame errors may be raised again. -/
def Dev.pwrFrame (d : Dev) : Dev :=
  let d := (List.range 56).foldl (fun d i => d.modDom i (fun x => { x with heldUs := 0, suspectErr := false })) d
  let p := d.pwr
  let d := { d with pwr := { p with frameUs := 0, vinErr := 0#2, throttleUse := p.throttle, cap := p.capNext.getD p.cap, capNext := none } }
  if 4200 ≤ d.pwr.vin && d.pwr.vin < 4400 || 5600 < d.pwr.vin && d.pwr.vin ≤ 5800 then d.vinErrors d.pwr.vin else d

end Sys2Proof.Machine
end

