-- ==== Sys2Proof/Machine/Thermal.lean ====
section
/-! DEFINITION. Thermal control and cooling: sensors, the stack model, guards, limits, coolant, the ladder, trips, cycle
counting and work rotation (14, and the inputs of 17 R537, R538). Temperatures are in 1/8 K, coolant readings in
0.01 °C. -/

namespace Sys2Proof.Machine

def Dev.setThm (d : Dev) (f : ThermS → ThermS) : Dev := { d with thm := f d.thm }
def Dev.sensor (d : Dev) (i : Nat) : Sensor := d.thm.sensors.get i {}
def Dev.setSensor (d : Dev) (i : Nat) (x : Sensor) : Dev := d.setThm (fun t => { t with sensors := t.sensors.put i x })
def Dev.thLayer (d : Dev) (k : Nat) : ThLayer := d.thm.layers.get k {}
def Dev.modLayer (d : Dev) (k : Nat) (f : ThLayer → ThLayer) : Dev :=
  d.setThm (fun t => { t with layers := t.layers.put k (f (d.thLayer k)) })
def Dev.thModel (d : Dev) (s : Nat) : ThModel := d.thm.models.get s {}

/-! ### Places (14 R453, R454, 16 R508) -/

/-- The sensor n of logic layer i, of memory layer i, and of base die s, by global index. -/
def logicSensor (i n : Nat) : Nat := 96 * i + n
def memSensor (i n : Nat) : Nat := 1536 + 16 * i + n
def baseSensor (s n : Nat) : Nat := 2048 + 16 * s + n

/-- The stack of a sensor. -/
def sensorStack (i : Nat) : Nat := if i < 1536 then i / 96 / 4 else if i < 2048 then (i - 1536) / 16 / 8 else (i - 2048) / 16

/-- The layer of R474's order that a sensor lies in; the base dies are none of them. -/
def sensorLayer (i : Nat) : Nat :=
  if i < 1536 then 2 * (i / 96) + i % 96 / 48 else if i < 2048 then 32 + (i - 1536) / 16 else 64

/-- The place of a layer in its stack from below: base die 0, then L1, M1a, M1b, L2 and so on (01 R10). -/
def floorOf (k : Nat) : Nat := if k < 32 then 1 + 3 * (k % 8 / 2) else 2 + 3 * ((k - 32) % 8 / 2) + (k - 32) % 2

/-- A sensor's node in the stack's model: half h of place n is node 2n + h (15 R487). -/
def sensorNode (i : Nat) : Nat :=
  if i < 1536 then 2 * floorOf (sensorLayer i) + i % 96 / 48
  else if i < 2048 then 2 * floorOf (sensorLayer i) + (i - 1536) % 16 / 8
  else (i - 2048) % 16 / 8

/-- A stack's model is VALID: 200 plausible steps, and its inputs plausible now. -/
def Dev.modelValid (d : Dev) (s : Nat) : Bool := let m := d.thModel s; decide (200 ≤ m.steps) && !m.invalid

def Dev.node (d : Dev) (s n : Nat) : Int := (d.thModel s).nodes.getD n 0
/-- The prediction for a sensor, and its residual. -/
def Dev.prediction (d : Dev) (i : Nat) : Int := Config.sensorPrediction i (d.node (sensorStack i) (sensorNode i))
def Dev.residual (d : Dev) (i : Nat) : Int := (d.sensor i).t.getD 0 - d.prediction i

/-! ### Trust (14 R456, R457) -/

/-- A sensor is marked SUSPECT. -/
def Dev.suspect (d : Dev) (i : Nat) : Dev :=
  let x := d.sensor i
  if x.suspect then d
  else
    let d := (d.setSensor i { x with suspect := true, marks := x.marks + 1, bad := 0, good := 0 }).inc (cStk (sensorStack i) 2)
    d.raise (sensorStack i) { cls := 0, kind := 9, src := i, code := 0x0D01 }

/-- Trust at a model step: ten steps beyond 6 K, and back after 10 s within 3 K unless marked four times. -/
def Dev.trustStep (d : Dev) (i : Nat) : Dev :=
  let x := d.sensor i
  match x.t with
  | none => d.setSensor i { x with good := 0 }
  | some _ =>
    let r := (d.residual i).natAbs
    if x.suspect then
      let good := if r ≤ 24 then x.good + 1 else 0
      if 10000 ≤ good && x.marks < 4 then d.setSensor i { x with suspect := false, good := 0, bad := 0 }
      else d.setSensor i { x with good := good }
    else
      let bad := if 48 < r then x.bad + 1 else 0
      if 10 ≤ bad then d.suspect i else d.setSensor i { x with bad := bad }

/-- The two sensors of a hot spot, by the first one's index, are compared at a sample. -/
def Dev.pairStep (d : Dev) (a t : Nat) : Dev :=
  let x := d.sensor a
  let y := d.sensor (a + 1)
  match x.t, y.t with
  | some u, some v =>
    if x.suspect || y.suspect || (u - v).natAbs ≤ 32 then d.setThm (fun z => { z with pairs := z.pairs.drop a })
    else match d.thm.pairs.find a with
      | none => d.setThm (fun z => { z with pairs := z.pairs.put a (t, false) })
      | some (t0, counted) =>
        let d := if 10000000 < t - t0 && !counted then
            let d := (d.setThm (fun z => { z with pairs := z.pairs.put a (t0, true) })).inc (cStk (sensorStack a) 1)
            d.raise (sensorStack a) { cls := 0, kind := 9, src := a, code := 0x0D02 }
          else d
        if 1000000000 ≤ t - t0 && d.modelValid (sensorStack a) then
          d.suspect (if (d.residual a).natAbs < (d.residual (a + 1)).natAbs then a + 1 else a)
        else d
  | _, _ => d

/-- SENSOR_SAMPLE: readings by sensor, none for a missing sample. -/
def Dev.sensorSample (d : Dev) (t : Nat) (l : List (Nat × Option Int)) : Dev :=
  let d := { d with now := max d.now t }
  let d := l.foldl (fun d e =>
    if 2112 ≤ e.1 then d
    else
      let d := d.setSensor e.1 { d.sensor e.1 with t := e.2 }
      let bad := match e.2 with
        | none => true
        | some v => decide (v < -160) || decide (1200 < v)
      if bad && d.modelValid (sensorStack e.1) then d.suspect e.1 else d) d
  l.foldl (fun d e => if e.1 < 1536 && e.1 % 2 == 0 then d.pairStep e.1 t else d) d

/-! ### Measured temperatures (14 R457, R458) -/

/-- A trusted reading. -/
def Dev.trusted (d : Dev) (i : Nat) : Option Int := if (d.sensor i).suspect then none else (d.sensor i).t

/-- A hot spot's temperature, and whether it has a trusted sensor. -/
def Dev.spot (d : Dev) (a : Nat) : Option Int × Bool :=
  let valid := d.modelValid (sensorStack a)
  match d.trusted a, d.trusted (a + 1) with
  | some u, some v =>
    if 32 < (u - v).natAbs && valid && 48 < (d.residual a).natAbs && 48 < (d.residual (a + 1)).natAbs
    then (some (d.prediction a + 40), true) else (some (max u v), true)
  | some u, none => (some u, true)
  | none, some v => (some v, true)
  | none, none => (if valid then some (d.prediction a + 40) else none, false)

def maxOpt (l : List (Option Int)) : Option Int :=
  l.foldl (fun m e => match m, e with
    | some a, some b => some (max a b)
    | none, b => b
    | a, none => a) none

/-- The measured temperature of a layer of R474's order, and whether it is UNKNOWN. -/
def Dev.measure (d : Dev) (k : Nat) : Option Int × Bool :=
  if k < 32 then
    let l := (List.range 24).map (fun p => d.spot (logicSensor (k / 2) (48 * (k % 2) + 2 * p)))
    (maxOpt (l.map (·.1)), decide (12 < (l.filter (fun e => !e.2)).length))
  else
    let l := (List.range 16).map (fun n => d.trusted (memSensor (k - 32) n))
    (maxOpt l, decide ((l.filter (·.isSome)).length < 4))

def layerStack (k : Nat) : Nat := if k < 32 then k / 8 else (k - 32) / 8

/-- The model node of a half of the place of layer k; of the layer: for a memory layer its hotter half. -/
def Dev.halfNode (d : Dev) (k h : Nat) : Int := d.node (layerStack k) (2 * floorOf k + h)
def Dev.layerNode (d : Dev) (k : Nat) : Int := if k < 32 then d.halfNode k (k % 2) else max (d.halfNode k 0) (d.halfNode k 1)

/-! ### Guards (14 R459) -/

/-- The measured temperatures of a floor of a stack with their nodes: the base die's, a memory layer's, or one for each half of a
logic layer (DEDUCED, log 56). -/
def Dev.floorTemps (d : Dev) (s n : Nat) : List (Option Int × Int) :=
  if n == 0 then [(maxOpt ((List.range 16).map (fun i => d.trusted (baseSensor s i))), max (d.node s 0) (d.node s 1))]
  else
    let ks := if n % 3 == 1 then [8 * s + 2 * (n / 3), 8 * s + 2 * (n / 3) + 1] else [32 + 8 * s + 2 * ((n - 2) / 3) + (n - 2) % 3]
    ks.map (fun k => ((d.measure k).1, d.layerNode k))

def Dev.floorAgrees (d : Dev) (s n : Nat) : Bool := (d.floorTemps s n).all (fun e => match e with
  | (some m, v) => decide ((m - v).natAbs ≤ 24)
  | (none, _) => false)

/-- The conditions of a guard hold for a layer. -/
def Dev.guardHolds (d : Dev) (k : Nat) : Bool :=
  let s := layerStack k
  let n := floorOf k
  n != 12 && d.modelValid s && (match (d.measure k).1 with
    | some m => decide (m + 24 < d.layerNode k)
    | none => false) && d.floorAgrees s (n - 1) && d.floorAgrees s (n + 1)

/-- The layer half in which a guarded step counts (16 R520). -/
def Dev.layerHalf (d : Dev) (k : Nat) : Nat :=
  if k < 32 then k else 32 + 2 * (k - 32) + (if d.halfNode k 0 < d.halfNode k 1 then 1 else 0)

/-- The temperature used for a layer (14 R458-R460, R455). -/
def Dev.useStep (d : Dev) (k : Nat) : Dev :=
  let s := layerStack k
  let valid := d.modelValid s
  let x := d.thLayer k
  let (m, unknown) := d.measure k
  let holds := d.guardHolds k
  let failing := if holds then 0 else x.failing + 1
  let guarded := valid && (holds || (x.guarded && failing < 100))
  let start := guarded && !x.guarded
  let node := d.layerNode k
  let meas := m.getD x.measured
  let unk := if unknown && !valid then some (match x.unk with
    | some (b, n) => (b, n + 1)
    | none => (x.used, 0)) else none
  let used := if unknown then (match unk with
      | some (b, n) => b + 40 + 8 * (n / 100 : Nat)
      | none => node + 40)
    else if guarded then max meas (node + 40)
    else if (d.thModel s).invalid then meas + 40
    else meas
  let d := d.modLayer k (fun y => { y with used := used, measured := meas, guarded := guarded, failing := failing, unk := unk
                                           src := if unknown then 2 else if guarded then 1 else 0, hist := (used :: y.hist).take 101 })
  let d := if guarded then d.inc (cLh (d.layerHalf k) 0) else d
  if start then
    d.raise s (if k < 32 then { cls := 0, kind := 6, src := k, code := 0x0D03 } else { cls := 0, kind := 8, src := k - 32, code := 0x0D03 })
  else d

/-! ### The limiter and refresh (14 R461, 08 R258) -/

def Dev.thrOfs (d : Dev) : Int := 8 * (bf (d.inF 0x0D000000) 3 0 : Nat)

/-- The grant in force in a logic half-layer, from which its limit falls; an OFF one's is no bound. -/
def Dev.grantNow (d : Dev) (h : Nat) : Nat := let x := d.dom (halfDom h); if x.st == 4 then x.grantAt d.now else 42

/-- The half-layers of the logic layer below a memory layer (its place in R474's order), and its pair's domain. -/
def halvesBelow (k : Nat) : Nat × Nat := let h := 8 * ((k - 32) / 8) + (k - 32) % 8 / 2 * 2; (h, h + 1)
def pairDom (k : Nat) : Nat := 14 * ((k - 32) / 8) + 8 + (k - 32) % 8 / 2

/-- A limit of a half-layer rises by one step, until it no longer limits: none where the other limits give no more (log 56). -/
def Dev.riseLimit (d : Dev) (h limit : Nat) : Nat :=
  if minLimit ((d.grantLimits (halfDom h)).eraseIdx 0) ≤ limit + 1 then 42 else limit + 1

/-- One step of the limiter on a layer. A limit falls from what is in force, as in the chapter's worked case. -/
def Dev.limitStep (d : Dev) (k : Nat) : Dev :=
  let x := d.thLayer k
  let thr : Int := (if k < 32 then 840 else 760) - d.thrOfs
  let hard := thr + 40
  let d := if k < 32 && decide (thr - 80 ≤ x.used) then d.setThm (fun t => { t with near := true }) else d
  let d :=
    if k < 32 then
      if hard ≤ x.used then d.modLayer k (fun y => { y with limit := 0, floor := true })
      else if thr ≤ x.used then d.modLayer k (fun y => { y with limit := min y.limit (d.grantNow k) - 2, floor := false })
      else if thr - 32 ≤ x.used then d.modLayer k (fun y => { y with floor := false })
      else d.modLayer k (fun y => { y with limit := d.riseLimit k y.limit, floor := false })
    else if thr ≤ x.used then
      let g := let p := d.dom (pairDom k); if p.st == 4 then p.gate else 0
      d.modLayer k (fun y => { y with limitGate := min 8 (max y.limitGate g + 2)
                                      limit := min y.limit (d.grantNow (halvesBelow k).1) - 1
                                      limitE := min y.limitE (d.grantNow (halvesBelow k).2) - 1 })
    else if thr - 32 ≤ x.used then d
    else d.modLayer k (fun y => { y with limitGate := y.limitGate - 1, limit := d.riseLimit (halvesBelow k).1 y.limit
                                         limitE := d.riseLimit (halvesBelow k).2 y.limitE })
  let x := d.thLayer k
  if x.limit < 42 || x.limitE < 42 || 0 < x.limitGate then
    if k < 32 then d.inc (cLh k 1) else (d.inc (cLh (32 + 2 * (k - 32)) 1)).inc (cLh (33 + 2 * (k - 32)) 1)
  else d

/-- A memory layer's refresh rate, and MEM_REFRESH_STATE. -/
def Dev.refreshStep (d : Dev) (k t : Nat) : Dev :=
  let x := d.thLayer k
  let y := d.layer (k - 32)
  let unknown := x.src == 2
  let cool := if x.used ≤ 664 then some (y.coolSince.getD t) else none
  let calm := match cool with
    | some t0 => decide (t0 + 10000000 ≤ t)
    | none => false
  let double := (d.reg 0x07000004).getLsbD 1 || unknown || (d.thModel (layerStack k)).steps < 200 || decide (680 < x.used) || (y.double && !calm)
  let (d, v) := d.round ((x.used : Rat) / 8)
  d.setLayer (k - 32) { y with double := double, unknown := unknown, temp := min 255 v.toNat, coolSince := cool }

/-! ### Coolant (14 R462, R463, 17 R537, R538) -/

def Dev.tach (d : Dev) (i : Nat) : Tach := d.thm.tachs.get i {}
def Dev.setTach (d : Dev) (i : Nat) (x : Tach) : Dev := d.setThm (fun t => { t with tachs := t.tachs.put i x })
def Dev.ppl (d : Dev) : Nat := let n := bf (d.reg 0x0D00000C) 15 0; if n == 0 then 500 else n

/-- The flow a tach reports, in 0.01 L/min; one without edges reads as stopped. -/
def Dev.tachFlow (d : Dev) (i : Nat) : Rat := match (d.tach i).period with
  | some p => if p == 0 then 0 else 6000000000000 / ((p * d.ppl : Nat) : Rat)
  | none => 0

/-- TACH_EDGE: a rising edge after a pulse of some width in ns. -/
def Dev.tachEdge (d : Dev) (i width t : Nat) : Dev :=
  let d := { d with now := max d.now t }
  if width < 10000 then d
  else
    let x := d.tach i
    d.setTach i { x with edges := t :: x.edges, last := some t, period := match x.last with
      | some u => some (t - u)
      | none => none }

/-- A valid thermistor reading: 0 IN_A, 1 IN_B, 2 OUT_A, 3 OUT_B. -/
def Dev.thermistor (d : Dev) (k : Nat) : Option Int := (d.thm.therm.get k (none, 0)).1

/-- COOLANT_TEMP_SAMPLE: four readings. -/
def Dev.coolantSample (d : Dev) (t : Nat) (l : List Int) : Dev :=
  let d := { d with now := max d.now t }
  ((List.range 4).zip l).foldl (fun d e =>
    let v : Int := e.2
    let ok := decide ((0 : Int) ≤ v) && decide (v ≤ (8000 : Int))
    let x : Option Int × Nat := match d.thm.therm.find e.1 with
      | none => if ok then (some e.2, t) else (none, t)
      | some (some _, t0) => if ok then (some e.2, t0) else (none, t)
      | some (none, t0) => if !ok then (none, t) else if t0 + 1000000000 ≤ t then (some e.2, t0) else (none, t0)
    d.setThm (fun y => { y with therm := y.therm.put e.1 x })) d

/-- Domains of a stack whose currents are implausible (14 R455). -/
def Dev.implausibles (d : Dev) (s : Nat) : Nat := ((List.range 14).filter (fun j => (d.dom (14 * s + j)).implausible)).length

/-- The flow inferred from the coolant's rise, in 0.01 L/min, while the currents are plausible (14 R462). -/
def Dev.inferred (d : Dev) : Option Rat :=
  if (List.range 4).any (fun s => decide (4 < d.implausibles s)) then none
  else match maxOpt [d.thermistor 0, d.thermistor 1], maxOpt [d.thermistor 2, d.thermistor 3] with
  | some i, some o =>
    if o - i < 100 then none
    else some (((d.thm.power : Nat) : Rat) * 600 / (4186 * (((o - i : Int) : Rat))))
  | _, _ => none

/-- TACH_VALIDITY_CHECK: the edge count of the last second, and the disagreement rule. -/
def Dev.tachCheck (d : Dev) (t : Nat) : Dev :=
  let d := { d with now := max d.now t }
  let fa := d.tachFlow 0
  let fb := d.tachFlow 1
  let inf := d.inferred
  [0, 1].foldl (fun d i =>
    let x := d.tach i
    let y := d.tach (1 - i)
    let edges := x.edges.filter (fun e => t < e + 1000000000)
    let fast := decide (12 * d.ppl < 60 * edges.length)
    let mine := if i == 0 then fa else fb
    let other := if i == 0 then fb else fa
    let apart := !y.invalid && decide (other < 4 * |mine - other|)
    let since := if apart then some (x.apartSince.getD t) else none
    let long := match since with
      | some u => decide (u + 1000000000 ≤ t)
      | none => false
    let farther := match inf with
      | some v => decide (|other - v| < |mine - v|)
      | none => false
    let bad := fast || (if x.invalid then apart else long && farther)
    let ok := if bad then none else some (x.okSince.getD t)
    let back := match ok with
      | some u => decide (u + 10000000000 ≤ t)
      | none => false
    let invalid := bad || (x.invalid && !back)
    let d := d.setTach i { x with edges := edges, apartSince := since, okSince := ok, invalid := invalid, checked := true }
    if invalid && !x.invalid then d.raise 0 { cls := 0, kind := 0, src := i, code := 0x0D07 } else d) d

/-- A coolant error record of the module. -/
def Dev.coolErr (d : Dev) (cls code : Nat) : Dev := d.raise 0 { cls := cls, kind := 0, code := code }

/-- The ladder follows the states: step A while LOST, LEAK, or HOT above 45 °C lasts, and no step beyond it once neither LOST nor
LEAK does (14 R464). Its entry is counted once
(DEDUCED, log 56). -/
def Dev.ladderA (d : Dev) : Dev :=
  let t := d.thm
  let a := t.lost || t.leak || (t.hot && decide (4500 < t.lastIn))
  if a && t.ladder == 0 then (d.setThm (fun y => { y with ladder := 1 })).inc (cMod 34)
  else if !a then d.setThm (fun y => { y with ladder := 0 })
  else if !t.lost && !t.leak then d.setThm (fun y => { y with ladder := 1 })
  else d

/-- LOST is entered. -/
def Dev.enterLost (d : Dev) : Dev :=
  if d.thm.lost then d else ((d.setThm (fun y => { y with lost := true })).coolErr 0 0x0D13).ladderA

/-- TACH_SILENCE_TIMEOUT: no edge on any valid tach for three periods expected at the last flow. -/
def Dev.tachSilence (d : Dev) (t : Nat) : Dev :=
  let d := { d with now := max d.now t }
  let vs := [0, 1].filter (fun i => !(d.tach i).invalid)
  let silent (i : Nat) : Bool := match (d.tach i).last with
    | some u => decide (3 * 6000000000000 ≤ ((t - u : Nat) : Rat) * d.thm.lastFlow * d.ppl)
    | none => true
  if vs.isEmpty || !vs.all silent then d
  else (vs.foldl (fun d i => d.setTach i { d.tach i with period := none }) d).enterLost

/-- A condition's start, kept while it holds; and that it has held for a time. -/
def since (c : Bool) (old : Option Nat) (t : Nat) : Option Nat := if c then some (old.getD t) else none
def heldFor (s : Option Nat) (t n : Nat) : Bool := match s with
  | some u => decide (u + n ≤ t)
  | none => false

/-- The hottest logic temperature used, in the module or one stack. -/
def Dev.hottest (d : Dev) (ks : List Nat) : Int := ks.foldl (fun m k => max m (d.thLayer k).used) 0

/-- FLOW_DERIVE and COOLANT_STATE_CHANGE, every millisecond. -/
def Dev.coolantStep (d : Dev) (t : Nat) : Dev :=
  let va := !(d.tach 0).invalid && (d.tach 0).checked
  let vb := !(d.tach 1).invalid && (d.tach 1).checked
  let (flow, src) : Option Rat × Nat :=
    if va && vb then (some ((d.tachFlow 0 + d.tachFlow 1) / 2), 3)
    else if va then (some (d.tachFlow 0), 1)
    else if vb then (some (d.tachFlow 1), 2)
    else match d.inferred with
      | some f => (some f, 4)
      | none => (none, 0)
  let tin := maxOpt [d.thermistor 0, d.thermistor 1]
  let tout := maxOpt [d.thermistor 2, d.thermistor 3]
  let hot := d.hottest (List.range 32)
  let low := match flow with
    | some f => decide (f < 340)
    | none => false
  let over36 := match flow with
    | some f => decide (360 ≤ f)
    | none => false
  let over34 := match flow with
    | some f => decide (340 ≤ f)
    | none => false
  let inlet (p : Int → Bool) : Bool := match tin with
    | some v => p v
    | none => false
  let d := d.setThm (fun y => { y with
    lastFlow := flow.getD y.lastFlow, lastIn := tin.getD y.lastIn, flow := flow, flowSrc := src, tin := tin, tout := tout, hot2s := (hot :: y.hot2s).take 2001
    lowSince := since low y.lowSince t, highSince := since over36 y.highSince t, f34Since := since over34 y.f34Since t
    hotSince := since (inlet (fun v => decide (4000 < v))) y.hotSince t, coolSince := since (inlet (fun v => decide (v ≤ 3900))) y.coolSince t })
  let t10 := 10000000000
  -- the rise trigger of LOST
  let rise := match tin, tout, flow with
    | some i, some o, some f =>
      decide (600000 < d.thm.power) && decide (0 < f) &&
      decide (((o - i : Int) : Rat) / 100 < (20 / 100) * (((d.thm.power : Nat) : Rat) / 1000 / (279 * f / 400))) &&
      decide (d.thm.hot2s.length == 2001 && 8 ≤ hot - d.thm.hot2s.getD 2000 hot)
    | _, _, _ => false
  let d := if rise then d.enterLost else d
  let d := if !d.thm.deg && low && heldFor d.thm.lowSince t (t10 + 1) then
      (d.setThm (fun y => { y with deg := true })).coolErr 0 0x0D11
    else if d.thm.deg && heldFor d.thm.highSince t t10 then d.setThm (fun y => { y with deg := false }) else d
  let d := if !d.thm.hot && heldFor d.thm.hotSince t 1000000000 then
      (d.setThm (fun y => { y with hot := true })).coolErr 0 0x0D12
    else if d.thm.hot && heldFor d.thm.coolSince t t10 then d.setThm (fun y => { y with hot := false }) else d
  let d := if d.thm.lost && heldFor d.thm.f34Since t t10 && decide (hot < 480) then d.setThm (fun y => { y with lost := false }) else d
  let d := d.ladderA
  let d := if inlet (fun v => decide (v < 2000)) && !d.thm.coldErr then
      (d.setThm (fun y => { y with coldErr := true })).coolErr 0 0x0D10 else d
  let th := d.thm
  d.inc (cMod (29 + (if th.leak then 4 else if th.lost then 3 else if th.hot then 2 else if th.deg then 1 else 0)))

/-- THM_COOLANT.STATE: the state that governs. -/
def ThermS.coolState (t : ThermS) : Nat := if t.leak then 4 else if t.lost then 3 else if t.hot then 2 else if t.deg then 1 else 0

/-! ### The ladder and the trips (14 R464, R465) -/

/-- LEAK_N has been low for a time in ns. -/
def Dev.leakAssert (d : Dev) (held t : Nat) : Dev :=
  let d := { d with now := max d.now t }
  if held < 1000000 || d.thm.leak then d
  else ((d.setThm (fun y => { y with leak := true })).coolErr 0 0x0D14).ladderA

/-- Every unit ends and the compute domains are powered down: half-layers write back first. -/
def Dev.allDown (d : Dev) : Dev :=
  let d := d.killUnits (fun _ => true) 13
  let up (d : Dev) (i : Nat) : Bool := (d.dom i).st != 0 && (d.dom i).st != 5
  let d := ((List.range 56).filter (fun i => i % 14 < 8)).foldl (fun d i => if up d i then d.domDown i else d) d
  ((List.range 56).filter (fun i => 8 ≤ i % 14 && i % 14 < 12)).foldl (fun d i => if up d i then d.domDown i else d) d

/-- The parts of the range lo to hi - 1 of partition p in either memory layer: (first byte, one past the last). -/
def partHalves (p lo hi : Nat) : List (Nat × Nat) :=
  ([0, 2 ^ 31].map (fun k => (p * 2 ^ 32 + max lo k, p * 2 ^ 32 + min hi (k + 2 ^ 31)))).filter (fun e => decide (e.1 < e.2))

/-- Bytes lo to hi - 1 of partition p become unwritten (08 R261), with contents of their own. -/
def Dev.unwrite (d : Dev) (p lo hi : Nat) : Dev :=
  let gone (a : Nat) : Bool := partOf a == p && decide (lo ≤ a % 2 ^ 32) && decide (a % 2 ^ 32 < hi) && decide (a < 2 ^ 40)
  let m := d.mem
  let new := (partHalves p lo hi).map (fun e =>
    { key := e.1 / 2 ^ 31, lo := e.1, hi := e.2, epoch := m.epochs + 1, zero := false, marched := (d.layer (d.layerOf e.1)).marched : Area })
  { d with mem := { m with cells := m.cells.filter (fun c => !gone c.1), poison := m.poison.filter (fun c => !gone (c.1 * 64))
                           areas := new ++ m.areas, epochs := m.epochs + 1 } }

/-- A swap in progress ends ABORTED (14 R470). -/
def Dev.abortRot (d : Dev) : Dev :=
  match d.thm.rot with
  | none => d
  | some r =>
    let d := d.setThm (fun y => { y with rot := none, rotStat := 3, rotRes := 3 })
    if r.st == 1 then d
    else
      -- the first COPY_MIB MiB of both partitions are unwritten
      let d := [r.a, r.b].foldl (fun d p => d.unwrite p 0 (r.mib * 2 ^ 20)) d
      (d.inc (cMod 36)).raise 0 { cls := 2, kind := 1, src := r.a, code := 0x0D06 }

/-- LADDER_STEP_B: under LOST when a layer rises faster than 2 K/s over 100 ms, under LEAK at once. -/
def Dev.ladderB (d : Dev) (t : Nat) : Dev :=
  let d := { d with now := max d.now t }
  let fast := (List.range 64).any (fun k =>
    let x := d.thLayer k
    x.hist.length == 101 && decide (16 < 10 * (x.used - x.hist.getD 100 x.used)))
  if d.thm.ladder == 1 && (d.thm.leak || (d.thm.lost && fast)) then
    let d := (d.setThm (fun y => { y with ladder := 2 })).abortRot.allDown
    (List.range 4).foldl (fun d s => d.raise s { cls := 3, kind := 7, src := s, code := 0x0D15 }) d
  else d

/-- LADDER_STEP_C: under LEAK, base-die work stops and the ports go DOWN. -/
def Dev.ladderC (d : Dev) (t : Nat) : Dev :=
  let d := { d with now := max d.now t }
  if d.thm.ladder == 2 && d.thm.leak then
    let d := d.setThm (fun y => { y with ladder := 3 })
    (d.killUnits (fun _ => true) 13).coolErr 4 0x0D14
  else d

/-- THERMAL_TRIP: at a hot spot (its first sensor) or a memory layer. -/
def Dev.trip (d : Dev) (memory : Bool) (place : Nat) : Dev :=
  if d.thm.tripped then d
  else
    let d := d.raise 0 (if memory then { cls := 4, kind := 8, src := place, code := 0x0D04 } else { cls := 4, kind := 9, src := place, code := 0x0D04 })
    let d := d.killUnits (fun _ => true) 13
    let d := (List.range 56).foldl (fun d i => if i % 14 < 12 then (d.domLost i).modDom i (fun x => { x.off with dead := true })
      else if i % 14 == 13 then d.modDom i Dom.off else d) d
    d.setThm (fun y => { y with tripped := true, thermtrip := true })

/-! ### The model step (14 R454, R455, R466) -/

/-- Cycle counting of a stack with its hottest logic temperature. -/
def ThCycle.step (c : ThCycle) (t : Int) : ThCycle :=
  match c.ext with
  | none => { c with ext := some t }
  | some e =>
    if c.up then
      if e < t then { c with ext := some t }
      else if 160 < e - t then { c with half := c.half + 1, swing := max c.swing (e - t), up := false, ext := some t }
      else c
    else if t < e then { c with ext := some t }
    else if 160 < t - e then { c with half := c.half + 1, swing := max c.swing (t - e), up := true, ext := some t }
    else c

def thmLayerReg (k : Nat) : Nat := 0x0D000100 + 4 * k

/-- The layer's snapshot register (14 R474). -/
def Dev.layerReg (d : Dev) (k : Nat) : Dev :=
  let x := d.thLayer k
  let s := layerStack k
  let (d, u) := d.round ((x.used : Rat) / 2)
  let (d, m) := d.round ((d.layerNode k : Rat) / 2)
  let n := (d.thm.sensors.filter (fun e => e.2.suspect && sensorLayer e.1 == k)).length
  d.setReg (thmLayerReg k) (pack [(min 1023 u.toNat, 0), (min 1023 m.toNat, 10), (x.src, 20)
    , (b2n (decide (x.limit < 42) || decide (x.limitE < 42) || decide (0 < x.limitGate)), 22), (b2n (d.modelValid s), 23), (min 255 n, 24)])

/-- THM_COOLANT and THM_COOLANT_T (14 R473). -/
def Dev.coolRegs (d : Dev) : Dev :=
  let t := d.thm
  let (d, f) := d.round (t.flow.getD 0)
  let (d, dr) := d.round ((d.coolantCap.getD 0) / 4000)
  let d := d.setReg 0x0D000004 (pack [(min 4095 f.toNat, 0), (t.flowSrc, 12), (t.coolState, 16), (t.ladder, 19), (b2n t.tripped, 21), (min 1023 dr.toNat, 22)])
  d.setReg 0x0D000008 (pack [((t.tin.getD 0).toNat % 65536, 0), ((t.tout.getD 0).toNat % 65536, 16)])

/-- THERMAL_MODEL_STEP of a stack; stack 0's also derives the flow and the coolant state. -/
def Dev.modelStep (d : Dev) (s : Nat) (e : ThermEnv) : Dev :=
  let d := ({ d with now := max d.now e.t }).setThm (fun y => { y with power := e.inputPower })
  let d := if s == 0 then d.coolantStep e.t else d
  let m := d.thModel s
  let ok := d.thm.flow.isSome && d.thm.tin.isSome && decide (d.implausibles s ≤ 4)
  let now : List Int := (List.range 14).map (fun j => ((e.power.getD (14 * s + j) 0 : Nat) : Int)) ++ [d.thm.tin.getD 0, (d.thm.flow.getD 0).floor]
  let inputs := if ok then now else m.inputs
  let start := (d.thm.tin.getD 0) * 8 / 100
  let nodes := if m.nodes.isEmpty then List.replicate 26 start else m.nodes
  let nodes' := (List.range 26).map (fun n => Config.thermalNode s n (nodes ++ inputs ++ d.bup.thermal.map (fun b => (b.toNat : Int))))
  let m' : ThModel := { steps := if ok then m.steps + 1 else m.steps, invalid := !ok, nodes := nodes', inputs := inputs }
  let d := d.setThm (fun y => { y with models := y.models.put s m' })
  let d := if ok then d else d.inc (cStk s 0)
  let d := if d.modelValid s then
      ((d.thm.sensors.map (·.1)).filter (fun i => sensorStack i == s)).foldl (fun d i => d.trustStep i) d
    else d
  let logic := (List.range 8).map (8 * s + ·)
  let mems := (List.range 8).map (32 + 8 * s + ·)
  let d := (logic ++ mems).foldl (fun d k => (d.useStep k).limitStep k) d
  let d := mems.foldl (fun d k => d.refreshStep k e.t) d
  let d := if d.bup.stage == 7 then
      d.setThm (fun y => { y with cycles := y.cycles.put s ((y.cycles.get s {}).step (d.hottest logic)) })
    else d
  let d := if d.thm.warm.contains s then d.inc (cStk s 3) else d
  let (d, sw) := d.round (((d.thm.cycles.get s {}).swing : Rat) / 8)
  let d := d.setReg (0x0D000600 + 4 * s) (pack [((d.thm.cycles.get s {}).half / 2 % 2 ^ 24, 0), (min 255 sw.toNat, 24)])
  let d := (logic ++ mems).foldl (fun d k => d.layerReg k) d
  if s == 0 then d.coolRegs else d

/-! ### Work rotation (14 R468-R470) -/

/-- The frond is READY (1), DEGRADED (2), RETIRED, FROZEN, FENCED or not up (01 R30, R31). -/
def Dev.frondState (d : Dev) (f : Nat) : Nat :=
  let x := d.frond f
  if x.fenced then 5 else if x.retired then 3 else if !x.up then 0 else if d.isFrozen f then 4
  else if (d.rhiz f).mode != 0 then 2 else 1

/-- Two fronds lie on equal physical units. -/
def Dev.equalUnits (d : Dev) (a b : Nat) : Bool :=
  let ok (s : Nat) : Bool := s == 1 || s == 2
  ok (d.frondState a) && d.frondState a == d.frondState b && (d.rhiz a).mode == (d.rhiz b).mode &&
  (gemmasOf a ++ gemmasOf b).all d.gemReady &&
  (d.dom (halfDom (d.home a))).st == 4 && (d.dom (halfDom (d.home b))).st == 4 &&
  decide (min (d.frondMax b) ((d.dom (halfDom (d.home b))).grantAt d.now) ≤ min (d.frondMax a) (d.ceiling (halfDom (d.home a)))) &&
  decide (min (d.frondMax a) ((d.dom (halfDom (d.home a))).grantAt d.now) ≤ min (d.frondMax b) (d.ceiling (halfDom (d.home b))))

/-- A unit of a swap is RETIRED, FROZEN or not ON (14 R470). -/
def Dev.rotLost (d : Dev) (f : Nat) : Bool :=
  (d.frond f).retired || (d.frond f).pendRetire || d.isFrozen f || (d.dom (halfDom (d.home f))).st != 4

/-- ROTATION_REQUEST: refused while a swap is BUSY, and replacing one that waits. -/
def Dev.rotRequest (d : Dev) (a b mib : Nat) : Dev :=
  match d.thm.rot with
  | some r =>
    if 2 ≤ r.st then d.setThm (fun y => { y with rotRes := 2 })
    else d.setThm (fun y => { y with rot := some { a := a, b := b, mib := min 4096 mib, st := 1 }, rotStat := 1 })
  | none => d.setThm (fun y => { y with rot := some { a := a, b := b, mib := min 4096 mib, st := 1 }, rotStat := 1, rotRes := 0 })

/-- ROTATION_COPY_END: the first COPY_MIB MiB lie exchanged; words that failed parity are stored poison. A logical
partition's contents move with its frond (01 R18): they keep their addresses. -/
def Dev.rotCopyEnd (d : Dev) (bad : List Nat) : Dev :=
  match d.thm.rot with
  | none => d
  | some r =>
    if r.st != 2 then d
    else if d.rotLost r.a || d.rotLost r.b then d.abortRot
    else
      let d := bad.foldl (fun d w =>
        if (partOf (w * 64) == r.a || partOf (w * 64) == r.b) && decide (w * 64 % 2 ^ 32 < r.mib * 2 ^ 20) then d.storePoison w else d) d
      d.setThm (fun y => { y with rot := some { r with st := 3 } })

/-- A partition before its frond moves: unlisted bytes of the copied part read as they did, with good parity. -/
def Dev.keepUnder (d : Dev) (p mib : Nat) : Dev :=
  let new := (partHalves p 0 (mib * 2 ^ 20)).map (fun e =>
    let ly := d.layer (d.layerOf e.1)
    { key := e.1 / 2 ^ 31, lo := e.1, hi := e.2, epoch := ly.epoch, zero := ly.filled, marched := true : Area })
  { d with mem := { d.mem with areas := d.mem.areas ++ new } }

/-- The physical groups of two logical fronds change places (01 R18). A rhizoid's lane map, spare use and mode stay with its
logical frond (08 R277); what lies in the memory itself, a bank's remapped rows among it, stays where it is. -/
def Dev.swapUnits (d : Dev) (a b mib : Nat) : Dev :=
  let d := (d.keepUnder a mib).keepUnder b mib
  let x := d.frond a
  let y := d.frond b
  let pa := d.phys a
  let pb := d.phys b
  let d := d.setFrond a { x with phys := some pb, fmax := y.fmax, derate := y.derate, pendDerate := y.pendDerate }
  let d := d.setFrond b { y with phys := some pa, fmax := x.fmax, derate := x.derate, pendDerate := x.pendDerate }
  let d := (List.range 32).foldl (fun d j =>
    let u := d.bank (32 * a + j)
    let v := d.bank (32 * b + j)
    (d.setBank (32 * a + j) { v with openRow := [] }).setBank (32 * b + j) { u with openRow := [] }) d
  let d := (d.unwrite a (mib * 2 ^ 20) (2 ^ 32)).unwrite b (mib * 2 ^ 20) (2 ^ 32)
  let d := (d.clearFrond a).clearFrond b
  (gemmasOf a ++ gemmasOf b).foldl (fun d g => d.clearGemma g) d

/-- The swap at a frame boundary: it starts when nothing targets either frond, moves after its copy, or ends early. -/
def Dev.rotBoundary (d : Dev) : Dev :=
  match d.thm.rot with
  | none => d
  | some r =>
    if r.st == 1 then
      if d.units.any (fun u => u.busy && u.usesAny [r.a, r.b]) then d
      else if r.a == r.b || !d.equalUnits r.a r.b then
        d.setThm (fun y => { y with rot := none, rotStat := 0, rotRes := 1 })
      else
        let d := (d.dropPart r.a true).dropPart r.b true
        d.setThm (fun y => { y with rot := some { r with st := 2 }, rotStat := 2, rotRes := 0 })
    else if d.rotLost r.a || d.rotLost r.b then d.abortRot
    else if r.st == 3 then
      let d := (d.swapUnits r.a r.b r.mib).setThm (fun y => { y with rot := none, rotStat := 3, rotRes := 0 })
      (d.inc (cMod 35)).raise 0 { cls := 0, kind := 1, src := r.a, code := 0x0D05 }
    else d

/-- ROTATION_HINT: energy of the last second by half-layer. -/
def Dev.rotHint (d : Dev) (power : List Nat) : Dev :=
  let near := d.thm.near
  let d := d.setThm (fun y => { y with near := false })
  if !(d.reg 0x0D000700).getLsbD 0 then d
  else if !near then d.setThm (fun y => { y with hint := none })
  else
    let p (f : Nat) : Nat := power.getD f 0
    let t (f : Nat) : Int := (d.thLayer (d.home f)).used
    let fs := (List.range 256).filter (fun f => (d.frondState f == 1 || d.frondState f == 2))
    let hotter (a b : Nat) : Nat := if t a < t b || (t a == t b && p a < p b) then b else a
    let cooler (a b : Nat) : Nat := if t b < t a || (t a == t b && p b < p a) then b else a
    match fs with
    | [] => d.setThm (fun y => { y with hint := none })
    | f :: _ =>
      let h := fs.foldl hotter f
      match fs.filter (fun c => c != h && d.equalUnits h c) with
      | [] => d.setThm (fun y => { y with hint := none })
      | c :: cs => d.setThm (fun y => { y with hint := some (h, cs.foldl cooler c) })

/-- A frond receives warming work: its stack is being warmed, its half-layer is ON, no unit has the frond, and no swap moves it
(14 R467, R471). -/
def Dev.warming (d : Dev) (f : Nat) : Bool :=
  d.thm.warm.contains (d.stk f) && (d.dom (halfDom (d.home f))).st == 4 && (d.unitOn f).isNone &&
  !d.thm.rot.any (fun r => 2 ≤ r.st && (r.a == f || r.b == f))

/-- Keep-warm at a boundary: stacks idle for the whole frame and below 55 °C, and warmed ones up to 58 °C (14 R467). `ran`:
as in domIdle. -/
def Dev.warmBoundary (d : Dev) (ran : List Nat) : Dev :=
  let en := (d.inF 0x0D000000).getLsbD 4
  let idle (s : Nat) : Bool := !ran.any (fun f => d.stk f == s)
  let warm := (List.range 4).filter (fun s => en && idle s &&
    decide (d.hottest ((List.range 8).map (8 * s + ·)) < (if d.thm.warm.contains s then 464 else 440)))
  let d := d.setThm (fun y => { y with warm := warm, coldErr := false })
  warm.foldl (fun d s =>
    if (List.range 8).any (fun j => (d.dom (14 * s + j)).st == 4) then d
    else [14 * s, 14 * s + 1].foldl (fun d i => if (d.dom i).req == 1 then d.askDom i else d) d) d

end Sys2Proof.Machine
end

