-- ==== Sys2Proof/Machine/Errors.lean ====
section
/-! DEFINITION. Handling of error records, the log, the sideband's latest records, the sweep and its coverage (16). -/

namespace Sys2Proof.Machine

/-- The eight words of a record (16 R507); a displaced one keeps words 0-2 only (R512). -/
def ErrRec.words (r : ErrRec) : List Word :=
  let hd := [pack [(r.cls, 0), (b2n r.lost, 3), (r.kind % 16, 4), (r.addr / 2 ^ 32 % 256, 8), (r.code % 65536, 16)],
             BitVec.ofNat 32 r.seq, pack [(r.src % 65536, 0), (r.count % 65536, 16)]]
  if r.lost then hd ++ List.replicate 5 0#32
  else hd ++ [BitVec.ofNat 32 r.frame, BitVec.ofNat 32 r.ns, BitVec.ofNat 32 r.addr, BitVec.ofNat 32 r.detail,
              BitVec.ofNat 32 (r.detail / 2 ^ 32)]

/-- A record's words, one by one, as its register block shows them (16 R528). -/
def recWord (r : Option ErrRec) (j : Nat) : Word := match r with
  | some r => r.words.getD j 0#32
  | none => 0#32

def Dev.logBase (d : Dev) : Nat := bf (d.reg 0x0E000014) 7 0 * 2 ^ 32 + bf (d.reg 0x0E000010) 31 17 * 2 ^ 17

/-- ERR_LOG_HEAD: the highest SEQ with every record up to it in the log (16 R515). -/
def headUp : Nat → Nat → List Nat → Nat × List Nat
  | 0, h, l => (h, l)
  | n + 1, h, l => if l.contains (h + 1) then headUp n (h + 1) (l.filter (fun q => q != h + 1)) else (h, l)

/-- ERR_CTRL.ALERT_CLASS; 5-7 mean none (16 R525). -/
def Dev.alertClass (d : Dev) : Nat := bf (d.reg 0x0E000000) 2 0

/-- A record is written to its slot; HEAD, ERR_LAST and ERR_ALERT_SEQ follow (16 R515, R516, R528). -/
def Dev.logRec (d : Dev) (r : ErrRec) : Dev :=
  if d.err.double then d
  else
    let d := if d.err.ack + 4096 < r.seq then d.inc (cMod 47) else d
    let d := d.stipeWords (d.logBase + 32 * ((r.seq - 1) % 4096)) r.words
    let (h, l) := headUp (d.err.logged.length + 1) d.err.head (r.seq :: d.err.logged)
    { d with err := { d.err with head := h, logged := l, last := d.err.last.put (d.err.lastHead % 16) r
                                 lastHead := d.err.lastHead + 1
                                 alertSeq := if d.alertClass ≤ r.cls && d.alertClass < 5 then max d.err.alertSeq r.seq
                                             else d.err.alertSeq
                                 alertCls := if d.alertClass ≤ r.cls && d.alertClass < 5 && d.err.alertSeq < r.seq then r.cls
                                             else d.err.alertCls } }

/-- The drops since the last such record enter as one ERR_FIFO_OVERFLOW record once an entry is free (16 R512). -/
def Dev.overflowRec (d : Dev) : Dev :=
  if 0 < d.err.drops && d.err.fifo.length < 64 && !d.err.double then
    let n := d.err.drops
    let d := { d with err := { d.err with drops := 0 } }
    d.raise 0 { cls := 0, kind := 0, code := 0x0E01, detail := n }
  else d

/-- What the log write of a FATAL record raised: a double fault (16 R513). -/
def Dev.ownRaised (old d : Dev) : Dev :=
  if old.err.fatalHandling && old.err.nextSeq != d.err.nextSeq then
    match (d.err.fifo.filter (fun r => decide (old.err.nextSeq ≤ r.seq))).head? with
    | some r => d.doubleFault r.code
    | none => d
  else d

/-- The innermost handling ends: displaced records and the record are logged, its entry frees, and the next is selected
(16 R511, R512, R515). -/
def Dev.handled (d : Dev) : Dev :=
  if d.err.double then d
  else match d.err.handling with
    | [] => d.select
    | q :: rest =>
      match d.err.fifo.find? (fun r => r.seq == q) with
      | none => { d with err := { d.err with handling := rest } }
      | some r =>
        let lost := d.err.displaced
        let d1 := lost.foldl Dev.logRec { d with err := { d.err with displaced := [] } }
        let d1 := Dev.ownRaised d (d1.logRec r)
        if d1.err.double then d1
        else
          let d2 := { d1 with err := { d1.err with handling := d1.err.handling.filter (fun x => x != q)
                                                   fifo := d1.err.fifo.filter (fun x => x.seq != q) } }
          d2.overflowRec.select

/-- The records raised before stage 7 are written in SEQ order at entry to it (16 R515); the stage already reads 7. -/
def Dev.logWaiting (d : Dev) : Dev :=
  let l := d.err.fifo.filter (fun r => !r.sel)
  let lost := d.err.displaced
  let all := (lost ++ l).mergeSort (fun a b => decide (a.seq ≤ b.seq))
  let d := { d with err := { d.err with fifo := d.err.fifo.filter (fun r => r.sel), displaced := [] } }
  (all.foldl Dev.logRec d).overflowRec.select

/-- Stipe s forwards the records raised in its stack to stipe 0 (16 R506). -/
def Dev.forwardRecs (d : Dev) (s : Nat) : Dev :=
  let l := d.err.waiting.get s []
  (l.foldl Dev.enterRec { d with err := { d.err with waiting := d.err.waiting.put s [] } })

/-- ALERT_N's condition (16 R516). -/
def Dev.alerting (d : Dev) : Bool := decide (d.err.ack < d.err.alertSeq) || d.thm.coolState != 0 || d.err.double

/-! ### The sweep (R521-R524) -/

/-- A unit runs, is carried or is ready on a frond's place: the sweep does not run there (16 R521). -/
def Dev.sweepHeld (d : Dev) (f : Nat) : Bool :=
  d.units.any (fun u => u.frondOf == some f && (u.busy || (u.phase == 0 && d.ready u)))

def Dev.halfSweepHeld (d : Dev) (h : Nat) : Bool := (List.range 8).any (fun k => d.sweepHeld (8 * h + k))

/-- The sweep's time for a unit in one frame, in µs: BUDGET in 0.25 % of the frame's length, which is taken as P (log 77). -/
def Dev.sweepBudget (d : Dev) : Nat := bf (d.inF 0x0F000000) 5 2 * bf (d.inF 0x01000000) 24 8 / 400

def Dev.sweepEn (d : Dev) : Bool := (d.inF 0x0F000000).getLsbD 0

/-- The sweep runs, and has time left in this frame for the unit `u` of SweepS.spent. -/
def Dev.sweepOn (d : Dev) (u : Nat) : Bool := d.sweepEn && decide (d.sweep.spent.get u 0 < d.sweepBudget)

def Dev.tstErr (d : Dev) (s cls kind src code : Nat) : Dev :=
  (d.raise s { cls := cls, kind := kind, src := src, code := code }).inc (cMod 51)

/-- A frond retires at the next boundary. -/
def Dev.willRetire (d : Dev) (f : Nat) : Dev := d.modFrond f (fun x => { x with pendRetire := true })

/-- A latent-error read of one word (16 R523): no redirect, mark or ghost check, nothing queued or delivered. -/
def Dev.latentRead (d : Dev) (w : Nat) (tr : ReadTry) : Dev :=
  let d := d.openRow (64 * w) none
  if d.stored w then d
  else
    let m := d.failMask w .gemma tr
    if m == 0#64 then d
    else (d.raise (d.stk (partOf (64 * w))) { cls := 0, kind := 5, src := bankOf (64 * w), code := 0x0F04, addr := 64 * w
                                              detail := m.toNat }).inc (cMod 50)

def Dev.latentOn (d : Dev) (w : Nat) : Bool :=
  let f := partOf (64 * w)
  (d.inF 0x0F000000).getLsbD 1 && (d.inF (0x0F000010 + 4 * (f / 32))).getLsbD (f % 32) && decide (64 * w < 2 ^ 40)

/-- Whether a domain is ON, so that what lies in it can be tested. -/
def Dev.domOn (d : Dev) (i : Nat) : Bool := (d.dom i).st == 4

/-- TST_LOOPBACK_FAIL, of the class of the change that the failed lane or group makes (16 R522, 08 R271-R273). -/
def Dev.loopErr (d old : Dev) (f : Nat) : Dev :=
  if d.rhiz f == old.rhiz f then d
  else d.tstErr (d.stk f) (if ((d.rhiz f).pend != (old.rhiz f).pend && 2 ≤ (d.rhiz f).pend) || (d.rhiz f).out != (old.rhiz f).out then 2 else 0) 1 f 0x0F03

/-- A loopback finds a bridge failed (16 R517, R522). -/
def Dev.bridgeBad (d : Dev) (b : Nat) : Dev :=
  if d.bridgeFail.contains b || d.bridgeOff.contains b then d
  else (d.bridgeFails b).tstErr (if b < 16 then b else (b - 16) / 4) 2 (if b < 16 then 11 else 12) (b % 16) 0x0F03

/-- An AUTO half-layer that is off is switched on only for a unit whose coverage is due within the next hour (16 R521). -/
def Dev.sweepWake (d : Dev) (i f : Nat) : Dev :=
  if (d.dom i).req == 1 && decide (d.sweep.covered.get f d.frm.entry7 + 82800000000000 ≤ d.now) then d.askDom i else d

/-- The time of a slice, at most 20 µs and within the budget, counts in TST_SWEEP_US (16 R520, R521). -/
def Dev.sliceTime (d : Dev) (u : Nat) : Dev :=
  let (d, v) := d.draw
  let n := min (1 + v.toNat % 20) (d.sweepBudget - d.sweep.spent.get u 0)
  Dev.bump { d with sweep := { d.sweep with spent := modify d.sweep.spent u 0 (· + n) } } (cMod 48) n

/-- A loopback on an idle path: its frond's half-layer and its memory pair are ON (16 R522). -/
def Dev.pathSlice (d : Dev) (f : Nat) (ok : Bool) (fail : Dev → Dev) : Dev :=
  if d.sweepHeld f || !d.sweepOn f || !d.domOn (d.partDom f) then d
  else if !d.domOn (halfDom (d.home f)) then d.sweepWake (halfDom (d.home f)) f
  else if ok then d.sliceTime f else fail (d.sliceTime f)

/-- A loopback on a bridge's lane (16 R522). -/
def Dev.bridgeSlice (d : Dev) (b : Nat) (ok : Bool) : Dev :=
  if !d.sweepOn (288 + b) then d else if ok then d.sliceTime (288 + b) else (d.sliceTime (288 + b)).bridgeBad b

/-- One slice of the sweep (16 R521-R523). -/
def Dev.sweepSlice (d : Dev) : SweepItem → Dev
  | .array f ok =>
    if d.sweepHeld f || !(d.frond f).up || !d.sweepOn f then d
    else if !d.domOn (halfDom (d.home f)) then d.sweepWake (halfDom (d.home f)) f
    else if ok then d.sliceTime f else ((d.sliceTime f).willRetire f).tstErr (d.stk f) 2 1 f 0x0F01
  | .frondSram f ok lost =>
    if d.sweepHeld f || !(d.frond f).up || !d.sweepOn f then d
    else if !d.domOn (halfDom (d.home f)) then d.sweepWake (halfDom (d.home f)) f
    else
      let d := d.sliceTime f
      let d := lost.foldl (fun d g => d.modFrond f (fun x =>
        if g < 393216 then { x with osP := x.osP.put g () }
        else if g < 425984 then { x with sideP := x.sideP.put (g - 393216) () }
        else { x with storeP := (List.range 4).foldl (fun m k => m.put (4 * (g - 425984) + k) ()) x.storeP })) d
      let d := if lost.isEmpty then d else d.tstErr (d.stk f) 1 1 f 0x0F02
      if ok then d else (d.willRetire f).tstErr (d.stk f) 2 1 f 0x0F02
  | .gemmaSram g ok lost =>
    if d.sweepHeld (g / 8) || !(d.gemma g).up || !d.sweepOn (g / 8) || !d.domOn (d.partDom (g / 8)) then d
    else
      let d := d.sliceTime (g / 8)
      let d := lost.foldl (fun d k => d.modGemma g (fun x => { x with sramP := x.sramP.put k () })) d
      let d := if lost.isEmpty then d else d.tstErr (d.stk (g / 8)) 1 2 g 0x0F02
      if ok then d else (d.modGemma g (fun x => { x with pendRetire := true })).tstErr (d.stk (g / 8)) 2 2 g 0x0F02
  | .cacheWay h slice way ok =>
    if d.halfSweepHeld h || !d.sweepOn (256 + h) then d
    else if !d.domOn (halfDom h) then d.sweepWake (halfDom h) (8 * h)
    else
      let d := d.sliceTime (256 + h)
      let hf := d.half h
      let mine := hf.lines.filter (fun e => e.1 % 16 == way.val && sliceOf e.2.line == slice.val)
      let d := (mine.foldl (fun d e => d.writeBackAny e.2) d).bump (cHalf h 7) (mine.foldl (fun a e => a + dirtyBytes e.2) 0)
      let d := d.setHalf h { d.half h with
        lines := (d.half h).lines.filter (fun e => !(e.1 % 16 == way.val && sliceOf e.2.line == slice.val)) }
      if ok then d
      else
        let key := slice.val * 16 + way.val
        let d := d.setHalf h { d.half h with
          offSlice := if (d.half h).offSlice.contains key then (d.half h).offSlice else (d.half h).offSlice ++ [key]
          plru := (d.half h).plru.filter (fun e => e.1 % 16 != slice.val) }
        d.tstErr (h.val / 8) 0 6 h 0x0F02
  | .rhizoidLane f lane ok =>
    d.pathSlice f ok (fun d => (d.laneFail f false lane).loopErr d f)
  | .channelLane f lane ok =>
    d.pathSlice f ok (fun d => (d.laneFail f true lane).loopErr d f)
  | .cmdGroup f group ok =>
    d.pathSlice f ok (fun d => (d.groupFail f group.val).loopErr d f)
  | .stackBridge s ok => d.bridgeSlice s ok
  | .stitchBridge l ok => if d.domOn (halfDom (2 * l)) && d.domOn (halfDom (2 * l + 1)) then d.bridgeSlice (16 + l) ok else d
  | .latent w tr =>
    let f := partOf (64 * w)
    if d.sweepOn f && d.latentOn w && !d.sweepHeld f && d.domOn (d.partDom f) then (d.sliceTime f).latentRead w tr else d
  | .covered f =>
    if !d.sweepEn then d
    else ({ d with sweep := { d.sweep with covered := d.sweep.covered.put f d.now
                                           late := d.sweep.late.filter (fun x => x != f.val)
                                           lateAt := d.sweep.lateAt.drop f } }).inc (cMod 49)

/-- Units whose last full coverage is more than 24 h old are late; one record an hour each (16 R524). -/
def Dev.coverageLate (d : Dev) (t : Nat) : Dev :=
  (List.range 256).foldl (fun d f =>
    if d.isRetired f || t < d.sweep.covered.get f d.frm.entry7 + 86400000000000 then d
    else
      let d := { d with sweep := { d.sweep with late := if d.sweep.late.contains f then d.sweep.late else d.sweep.late ++ [f] } }
      match d.sweep.lateAt.find f with
      | some a => if a + 3600000000000 ≤ t then
          ({ d with sweep := { d.sweep with lateAt := d.sweep.lateAt.put f t } }).raise (d.stk f)
            { cls := 0, kind := 1, src := f, code := 0x0F05 }
        else d
      | none => ({ d with sweep := { d.sweep with lateAt := d.sweep.lateAt.put f t } }).raise (d.stk f)
          { cls := 0, kind := 1, src := f, code := 0x0F05 }) d

end Sys2Proof.Machine
end

