-- ==== Sys2Proof/Machine/Fec.lean ====
section
/-! DEFINITION. FEC blocks of a link port: RS(544,514), the block's layout over the lanes, alignment blocks, and the code's
decoder (11 R354-R357). The field, its element alpha and the generator are IEEE 802.3's (log 74). -/

namespace Sys2Proof.Machine

/-! ### GF(2^10): x^10 + x^3 + 1, alpha = x -/

def gfDouble (a : Nat) : Nat := if 512 ≤ a then (2 * a) ^^^ 0x409 else 2 * a

def gfMul (a b : Nat) : Nat :=
  (List.range 10).foldl (fun r i => gfDouble r ^^^ (if b.testBit (9 - i) then a else 0)) 0

/-- alpha^n. -/
def gfAlpha (n : Nat) : Nat := Nat.rec 1 (fun _ r => gfDouble r) n

/-- a^1022: the inverse of a nonzero element, and 0 for 0. -/
def gfInv (a : Nat) : Nat :=
  ((List.range 9).foldl (fun (s : Nat × Nat) _ => (gfMul s.1 (gfMul s.2 s.2), gfMul s.2 s.2)) (1, a)).1

/-! ### RS(544,514): codewords as lists of symbols, the coefficient of highest degree first (R354) -/

/-- The generator (x - 1)(x - alpha) ... (x - alpha^29), without its leading 1, the highest degree first. -/
def rsGen : List Nat :=
  ((List.range 30).foldl (fun (g : List Nat) j =>
    let r := gfAlpha j
    ((g ++ [0]).zip (0 :: g)).map (fun (e : Nat × Nat) => e.1 ^^^ gfMul r e.2)) [1]).drop 1

/-- The 30 parity symbols of a message of 514: the remainder of message * x^30 by the generator. -/
def rsParity (m : List Nat) : List Nat :=
  m.foldl (fun (s : List Nat) c =>
    let f := c ^^^ s.headD 0
    ((s.drop 1 ++ [0]).zip rsGen).map (fun (e : Nat × Nat) => e.1 ^^^ gfMul f e.2)) (List.replicate 30 0)

def rsEncode (m : List Nat) : List Nat := m ++ rsParity m

/-- The value of a polynomial, the highest degree first. -/
def polyHi (p : List Nat) (x : Nat) : Nat := p.foldl (fun s c => gfMul s x ^^^ c) 0

/-- The value of a polynomial, the lowest degree first. -/
def polyLo (p : List Nat) (x : Nat) : Nat := p.foldr (fun c s => gfMul s x ^^^ c) 0

def rsSyndromes (r : List Nat) : List Nat := (List.range 30).map (fun j => polyHi r (gfAlpha j))

/-- The error locator of a list of syndromes, the lowest degree first (Berlekamp and Massey). State: locator, the one before
its last change, its length, the steps since, and the discrepancy then. -/
def rsLocator (ss : List Nat) : List Nat :=
  ((List.range 30).foldl (fun (s : List Nat × List Nat × Nat × Nat × Nat) n =>
    let (c, b, l, m, bd) := s
    let d := (List.range (l + 1)).foldl (fun a i => a ^^^ gfMul (c.getD i 0) (ss.getD (n - i) 0)) 0
    if d == 0 then (c, b, l, m + 1, bd)
    else
      let k := gfMul d (gfInv bd)
      let sh := List.replicate m 0 ++ b
      let c' := (List.range (max c.length sh.length)).map (fun i => c.getD i 0 ^^^ gfMul k (sh.getD i 0))
      if 2 * l ≤ n then (c', c, n + 1 - l, 1, d) else (c', b, l, m + 1, bd)) ([1], [1], 0, 1, 1)).1

/-- A word of 544 symbols with up to 15 symbol errors corrected; none where no codeword lies that near. -/
def rsDecode (r : List Nat) : Option (List Nat) :=
  let ss := rsSyndromes r
  if ss.all (· == 0) then some r
  else
    let c := rsLocator ss
    -- the evaluator, and the derivative of the locator
    let om := (List.range 30).map (fun n => (List.range (n + 1)).foldl (fun a i => a ^^^ gfMul (c.getD i 0) (ss.getD (n - i) 0)) 0)
    let dc := (List.range c.length).map (fun i => if i % 2 == 0 then c.getD (i + 1) 0 else 0)
    let fixed := ((List.range 544).zip r).map (fun e =>
      let x := gfAlpha (543 - e.1)
      let xi := gfAlpha (480 + e.1)   -- 1 / x
      if polyLo c xi == 0 then e.2 ^^^ gfMul x (gfMul (polyLo om xi) (gfInv (polyLo dc xi))) else e.2)
    let wrong := ((r.zip fixed).filter (fun e => e.1 != e.2)).length
    if wrong ≤ 15 && (rsSyndromes fixed).all (· == 0) then some fixed else none

/-! ### Blocks (R355, R356) -/

/-- Lanes of a width code. -/
def lanesOf (w : Nat) : Nat := if w == 0 then 8 else if w == 1 then 4 else 2

/-- The 10,280 message bits of a block: header, then the five flit slots. -/
def fecMessage (width index : Nat) (flits : List (List Byte)) : Nat :=
  index + width * 2 ^ 12 + 2 ^ 40 * (flits.flatten.foldr (fun b a => a * 256 + b.toNat) 0)

/-- Message symbols of codeword A (0) or B (1). -/
def fecHalf (m k : Nat) : List Nat := (List.range 514).map (fun i => bitsAt m (20 * i + 10 * k) 10)

/-- The 10-bit symbols that each lane of the group sends: pair k, A before B, on lane k mod W. -/
def fecLanes (w m : Nat) : List (List Nat) :=
  let ps := (rsEncode (fecHalf m 0)).zip (rsEncode (fecHalf m 1))
  (List.range w).map (fun l => (List.range (544 / w)).flatMap (fun j =>
    let p := ps.getD (w * j + l) (0, 0)
    [p.1, p.2]))

/-- A codeword from the symbols of it that the lanes received. -/
def fecGather (w : Nat) (lanes : List (List Nat)) : List Nat :=
  (List.range 544).map (fun k => (lanes.getD (k % w) []).getD (k / w) 0)

/-- Symbols and bits of lane l that were corrected in a codeword. -/
def fecErrors (w l : Nat) (got good : List Nat) : Nat × Nat :=
  ((List.range 544).zip (got.zip good)).foldl (fun (s : Nat × Nat) e =>
    if e.1 % w != l || e.2.1 == e.2.2 then s
    else (s.1 + 1, s.2 + ((List.range 10).filter (fun i => (e.2.1 ^^^ e.2.2).testBit i)).length)) (0, 0)

/-- The five flits of two decoded codewords: bytes of the message from bit 40 on. -/
def fecFlits (a b : List Nat) : List (List Byte) :=
  let m := ((a.take 514).zip (b.take 514)).foldr (fun p s => s * 2 ^ 20 + p.1 % 1024 + p.2 % 1024 * 1024) 0
  (List.range 5).map (fun n => (List.range 256).map (fun j => BitVec.ofNat 8 (bitsAt m (40 + 2048 * n + 8 * j) 8)))

/-- A received block, by the symbols of codewords A and B on each lane of the group: its five flits, and the symbols and bits corrected on each lane; none where a codeword is
uncorrectable (R357). -/
def fecReceive (w : Nat) (ra rb : List (List Nat)) : Option (List (List Byte) × List (Nat × Nat)) :=
  match rsDecode (fecGather w ra), rsDecode (fecGather w rb) with
  | some a, some b => some (fecFlits a b, (List.range w).map (fun l => fecErrors w l (fecGather w ra) a + fecErrors w l (fecGather w rb) b))
  | _, _ => none

/-- The marker of lane l of the group (R356). -/
def alignMarker (l : Nat) : Nat := 0x5A3C00C3A5 + l * 2 ^ 16

/-- PAM4 symbols of an n-bit number, bits [1:0] first. -/
def pamOf (n v : Nat) : List Nat := (List.range (n / 2)).map (fun i => bitsAt v (2 * i) 2)

/-- The bit pairs that a block puts on each lane of its group (R352 Gray-codes them onto PAM4 levels). -/
def WireBlock.lanes : WireBlock → List (List Nat)
  | .align width _ => (List.range (lanesOf width)).map (fun l => (List.replicate (272 / lanesOf width) (alignMarker l)).flatMap (pamOf 40))
  | .data width _ index flits => (fecLanes (lanesOf width) (fecMessage width index flits)).map (fun l => l.flatMap (pamOf 10))

end Sys2Proof.Machine
end

