-- ==== Sys2Proof/Machine/Port.lean ====
section
/-! DEFINITION. The link ports: packets, flits, replay, states, sessions of the peer, and the outstanding requests of a
port (11 R351-R372, R377-R385). -/

namespace Sys2Proof.Machine

/-! ### Bytes -/

/-- A little-endian number from bytes, and n bytes of a number. -/
def leNat (bs : List Byte) : Nat := bs.foldr (fun b a => a * 256 + b.toNat) 0
def leBytes (n v : Nat) : List Byte := (List.range n).map (fun i => BitVec.ofNat 8 (bitsAt v (8 * i) 8))
/-- Bytes lo to lo + n - 1 of a list, as a number. -/
def atBytes (bs : List Byte) (lo n : Nat) : Nat := leNat ((bs.drop lo).take n)
/-- Zero bytes up to a multiple of 8. -/
def pad8 (bs : List Byte) : List Byte := bs ++ List.replicate ((8 - bs.length % 8) % 8) 0#8

/-- CRC-64 of bytes: ECMA-182, not reflected, initial value 0 (11 R360). -/
def crc64 (bs : List Byte) : BitVec 64 :=
  bs.foldl (fun r b =>
    (List.range 8).foldl (fun (r : BitVec 64) _ => if r.getLsbD 63 then (r <<< 1) ^^^ 0x42F0E1EBA9EA3693#64 else r <<< 1)
      (r ^^^ ((b.setWidth 64 : BitVec 64) <<< (56 : Nat)))) 0#64

/-! ### Packets (11 R373, R375) -/

def reqBytes (h : ReqHdr) : List Byte :=
  let w0 := h.pkt.toNat + h.space.toNat * 2 ^ 4 + b2n h.lu * 2 ^ 6 + h.dst.toNat * 2 ^ 8 + h.hops.toNat * 2 ^ 20
  let w1 := h.len.toNat + h.aop.toNat * 2 ^ 13 + h.afmt.toNat * 2 ^ 15
  leBytes 4 w0 ++ leBytes 4 w1 ++ leBytes 8 h.addr.toNat ++ leBytes 8 h.rsn.toNat ++ leBytes 4 h.tag.toNat ++ leBytes 4 0
    ++ pad8 h.data

def cplBytes (c : CplHdr) : List Byte :=
  let w0 := 8 + c.status.toNat * 2 ^ 4 + c.sealRes.toNat * 2 ^ 8 + b2n c.dup * 2 ^ 11
  leBytes 4 w0 ++ leBytes 4 c.data.length ++ leBytes 8 c.rsn.toNat ++ leBytes 4 c.tag.toNat ++ leBytes 4 c.result.toNat
    ++ leBytes 8 c.pmask.toNat ++ pad8 c.data

/-- Bytes of a packet whose header is given: a READ has no data after it. -/
def packetLen (hd : List Byte) : Nat :=
  let pkt := atBytes hd 0 1 % 16
  let len := atBytes hd 4 4 % 2 ^ 13
  if pkt == 2 || pkt == 3 || pkt == 4 || pkt == 8 then 32 + (len + 7) / 8 * 8 else 32

/-! ### Ports -/

def Dev.port (d : Dev) (p : Nat) : PortS := d.ports.get p {}
def Dev.setPort (d : Dev) (p : Nat) (x : PortS) : Dev := { d with ports := d.ports.put p x }
def Dev.modPort (d : Dev) (p : Nat) (f : PortS → PortS) : Dev := d.setPort p (f (d.port p))

def lnkCtrl : Nat := 0x0A000000
def portReg (p o : Nat) : Nat := 0x0A000100 + 0x40 * p + o
def Dev.lnkTimeout (d : Dev) : Nat := let n := bf (d.reg lnkCtrl) 15 0; if n == 0 then 200 else n
/-- MIN_WIDTH as a lane count. -/
def Dev.minLanes (d : Dev) : Nat := match bf (d.reg lnkCtrl) 18 17 with
  | 1 => 4
  | 2 => 8
  | _ => 2
def Dev.retrainMax (d : Dev) : Nat := let n := bf (d.reg lnkCtrl) 31 24; if n == 0 then 4 else n
def Dev.portEn (d : Dev) (p : Nat) : Bool := (d.reg (portReg p 0)).getLsbD 0
def Dev.moduleId (d : Dev) : Nat := bf (d.reg 0) 11 0

/-- A port stays DOWN after ladder step C, a trip or a double fault, and while the link domain of its stack is not ON (13 R442,
14 R464, R465, 16 R513). -/
def Dev.portStopped (d : Dev) (p : Nat) : Bool :=
  d.thm.ladder == 3 || d.thm.tripped || d.err.double || (d.dom (14 * portStack p + 13)).st != 4

/-- The time the port has spent ACTIVE. -/
def PortS.active (x : PortS) (now : Nat) : Nat := if x.st == 3 then x.actAcc + (now - x.actAt) else x.actAcc

/-- A record of a port. -/
def Dev.portErr (d : Dev) (p cls code : Nat) : Dev := d.raise (portStack p) { cls := cls, kind := 4, src := p, code := code }

/-! ### Sending (11 R358-R365) -/

/-- One flit of a channel from its waiting packets: FIRST, the payload, and what is left. `mid`: the head is the rest of a
packet that began earlier. -/
def fillFlit : Nat → List (List Byte) → Nat → List Byte → Bool → Nat × List Byte × List (List Byte) × Bool
  | 0, q, first, acc, mid => (first, acc, q, mid)
  | n + 1, q, first, acc, mid =>
    match q with
    | [] => (first, acc, [], false)
    | b :: q' =>
      let room := 232 - acc.length
      if room == 0 then (first, acc, q, mid)
      else
        let first := if !mid && first == 31 then acc.length / 8 else first
        if b.length ≤ room then fillFlit n q' first (acc ++ b) false
        else (first, acc ++ b.take room, b.drop room :: q', true)

/-- Packets that wait are put into DATA flits while the replay buffer and the credits allow (log 12). A flit that enters an
empty buffer starts its time without an advance of ACKSEQ (R363). -/
def PortS.pump (now : Nat) : Nat → PortS → PortS × Nat
  | 0, x => (x, 0)
  | n + 1, x =>
    let cpl := x.reqQ.isEmpty || decide (512 ≤ (x.sentReq + 4096 - x.credReq) % 4096)
    let q := if cpl then x.cplQ else x.reqQ
    let out := if cpl then (x.sentCpl + 4096 - x.credCpl) % 4096 else (x.sentReq + 4096 - x.credReq) % 4096
    if q.isEmpty || 512 ≤ out || 1024 ≤ x.txBuf.length || x.st != 3 then (x, 0)
    else
      let (first, bytes, rest, mid) := fillFlit 256 q 31 [] (if cpl then x.midCpl else x.midReq)
      let fl : TxFlit := { seq := x.txSeq, cpl := cpl, first := first, payload := bytes ++ List.replicate (232 - bytes.length) 0#8 }
      let x := { x with txSeq := (x.txSeq + 1) % 4096, txBuf := x.txBuf ++ [fl], advAt := if x.txBuf.isEmpty then now else x.advAt }
      let x := if cpl then { x with cplQ := rest, midCpl := mid, sentCpl := (x.sentCpl + 1) % 4096 }
        else { x with reqQ := rest, midReq := mid, sentReq := (x.sentReq + 1) % 4096 }
      let (x, k) := x.pump now n
      (x, k + 1)

/-- What goes into a flit slot. -/
inductive TxItem where
  | data (f : TxFlit)
  | hello
  | null
  deriving DecidableEq, Repr

/-- A flit as it is sent: header with the receiver's ACKSEQ, ACKTYPE and credits, payload, CRC (R358-R360, R362, R365). A NAK
that is due goes into the next flit (R363). `hello`: the payload of a HELLO. -/
def PortS.flit (x : PortS) (hello : List Byte) (i : TxItem) : PortS × List Byte :=
  let (ty, seq, vc, first, lmsg, pay) : Nat × Nat × Nat × Nat × Nat × List Byte := match i with
    | .data f => (1, f.seq, b2n f.cpl, f.first, 0, f.payload)
    | .hello => (2, 0, 0, 0, 1, hello)
    | .null => (0, x.txSeq, 0, 0, 0, [])
  let ackTy := if x.rxNak then 2 else if x.rxAny then 1 else 0
  let w0 := ty + seq * 2 ^ 4 + (x.rxExp + 4095) % 4096 * 2 ^ 16 + ackTy * 2 ^ 28 + vc * 2 ^ 30
  let w1 := x.freedReq + x.freedCpl * 2 ^ 12 + first * 2 ^ 24
  let body := leBytes 4 w0 ++ leBytes 4 w1 ++ leBytes 4 lmsg ++ leBytes 4 0 ++ pay ++ List.replicate (232 - pay.length) 0#8
  ({ x with rxNak := false }, body ++ leBytes 8 (crc64 body).toNat)

/-- A block of five flits is sent, after an alignment block where the index is 0 (R356). -/
def PortS.putBlock (x : PortS) (fs : List (List Byte)) : PortS :=
  let x := if x.blk == 0 then { x with wire := x.wire ++ [.align x.width x.group], blk := 1 } else x
  { x with wire := x.wire ++ [.data x.width x.group x.blk fs], blk := (x.blk + 1) % 4096 }

/-- Flits go out in blocks of five, whose last slots NULL flits fill. -/
def PortS.sendItems (x : PortS) (hello : List Byte) (is : List TxItem) : PortS :=
  let is := is ++ List.replicate ((5 - is.length % 5) % 5) .null
  let (x, fs) := is.foldl (fun (s : PortS × List (List Byte)) i =>
    let (x, b) := s.1.flit hello i
    (x, s.2 ++ [b])) (x, [])
  (List.range (fs.length / 5)).foldl (fun x k => x.putBlock ((fs.drop (5 * k)).take 5)) x

/-- HELLO's payload (R371). -/
def Dev.helloBytes (d : Dev) (p : Nat) : List Byte := leBytes 4 d.sec.session.toNat ++ leBytes 2 (d.moduleId + p * 2 ^ 12)

/-- A port sends flits, after a free number of blocks that held NULL flits only (log 75); all are counted (R395). -/
def Dev.sendFlits (d : Dev) (p : Nat) (is : List TxItem) : Dev :=
  if is.isEmpty then d
  else
    let (d, v) := d.draw
    let x := d.port p
    let idle := v.toNat % 2 ^ 32
    let aligns := (x.blk + idle + 4095) / 4096 - (x.blk + 4095) / 4096
    let x := { x with blk := (x.blk + idle) % 4096 }
    let data := (is.filter (fun i => match i with
      | .data _ => true
      | _ => false)).length
    let nulls := (is.filter (· == .null)).length + (5 - is.length % 5) % 5 + 5 * (idle - aligns)
    ((d.setPort p (x.sendItems (d.helloBytes p) is)).bump (cPort p 0) data).bump (cPort p 2) nulls

/-- What waits is packed into DATA flits, which are sent. -/
def Dev.pumpPort (d : Dev) (p : Nat) : Dev :=
  let (x, k) := (d.port p).pump d.now 1100
  if k == 0 then d else (d.setPort p x).sendFlits p ((x.txBuf.drop (x.txBuf.length - k)).map .data)

/-- Every buffered flit is sent again, in order (R363). -/
def Dev.resend (d : Dev) (p : Nat) : Dev := d.sendFlits p ((d.port p).txBuf.map .data)

/-! ### Completions of the requests this module has sent -/

/-- Pieces of a transfer complete with a status: data of a read from the bytes at addr; `pm`: its poisoned words. -/
def Dev.finishPieces (d : Dev) (o : OutReq) (st : Nat) (data : List Byte) (pm : BitVec 64) : Dev :=
  match d.xfer o.x with
  | none => d
  | some x =>
    let first := o.addr / 64
    let d := d.modXfer o.x (fun y => { y with sent := y.sent.filter (fun e => !(e.1 == o.rsn && o.pcs.contains e.2))
                                              gr := y.gr ++ o.pcs.map (fun i => { i := i }) })
    o.pcs.foldl (fun d i =>
      let w := x.addr i / 64 - first
      let lo := if w == 0 then 0 else 64 * w - o.addr % 64
      let off := if w == 0 then o.addr % 64 else 0
      let g := if 4 ≤ st || o.pkt != 1 then 0#512
        else gOfBytes (List.replicate off 0#8 ++ ((data.drop lo).take (64 - off)))
      let s := if st == 1 || st == 0 || st == 2 || st == 3 then (if pm.getLsbD w then 1 else if st == 1 then 0 else st) else st
      d.finishGr o.x i s (if s == 1 then 0#512 else g)) d

/-! ### Completions that this module sends (11 R375, R380) -/

/-- A completion is queued on a port where it carries transactions; otherwise it waits in the window. -/
def Dev.sendCpl (d : Dev) (p : Nat) (c : CplHdr) : Dev :=
  if (d.port p).st == 3 || (d.port p).st == 4 then
    ((d.modPort p (fun x => { x with cplQ := x.cplQ ++ [cplBytes c] })).inc (cPort p 26)).pumpPort p
  else d

def WinE.cpl (e : WinE) (dup : Bool) (st seals : Nat) (data : List Byte) (pm : BitVec 64) : CplHdr :=
  { status := BitVec.ofNat 4 st, sealRes := BitVec.ofNat 3 seals, dup := dup, rsn := e.hdr.rsn, tag := e.hdr.tag
    result := BitVec.ofNat 16 e.result, pmask := pm, data := if 4 ≤ st then [] else data }

/-- A request of an ingress port completes: its window entry keeps the completion. -/
def Dev.reply (d : Dev) (p rsn st seals result : Nat) (data : List Byte) (pm : BitVec 64) : Dev :=
  match (d.port p).win.find? (fun e => e.rsn == rsn) with
  | none => d
  | some e =>
    let e := { e with done := true, status := st, sealRes := seals, result := result
                      data := if e.fwd then data else [], pmask := if e.fwd then pm else 0#64 }
    let d := d.modPort p (fun x => { x with win := x.win.map (fun y => if y.rsn == rsn then e else y) })
    d.sendCpl p (e.cpl false st seals data pm)

/-- An outstanding request ends with a status: its transfer's pieces, or the completion of the forwarded request. -/
def Dev.outEnd (d : Dev) (e : Nat) (o : OutReq) (st seals result : Nat) (data : List Byte) (pm : BitVec 64) : Dev :=
  let d := d.modPort e (fun x => { x with outs := x.outs.filter (fun y => y.rsn != o.rsn) })
  match o.ing with
  | some (p, rsn, _) => d.reply p rsn st seals result data pm
  | none => d.finishPieces o st data pm

/-! ### States (11 R366-R371, R383) -/

/-- The flit layer of a new link session. -/
def PortS.freshLink (x : PortS) : PortS :=
  { x with txSeq := 0, txBuf := [], reqQ := [], cplQ := [], midReq := false, midCpl := false, sentReq := 0, sentCpl := 0
           credReq := 0, credCpl := 0
           attempts := 0, replayFirst := none, rxExp := 0, rxAny := false, rxDrop := false, rxNak := false, nakAt := none
           partReq := [], partCpl := [], freedReq := 0, freedCpl := 0, flits := [], partReqF := [], partCplF := []
           bufReq := [], bufCpl := [] }

/-- PORT_DOWN: the port enters DOWN, and what is queued or outstanding on it completes PORT_DOWN. -/
def Dev.portDown (d : Dev) (p : Nat) : Dev :=
  let x := d.port p
  if x.st == 5 then d
  else
    let d := d.setPort p { (x.freshLink) with st := 5, stAt := d.now, ready := false, entering := false, width := 3, laneBad := 0#8
                                              helloSeen := false, actAcc := x.active d.now }
    let d := (d.inc (cPort p 17)).portErr p 2 0x0A02
    x.outs.foldl (fun d o => d.outEnd p o 10 0 0 [] 0#64) d

/-- An ACTIVE port enters RETRAIN, or DOWN on one entry too many within a second (11 R366, R370). -/
def Dev.portRetrain (d : Dev) (p : Nat) : Dev :=
  let x := d.port p
  if x.st != 3 then d
  else
    let recent := x.retrainAt.filter (fun t => d.now < t + 1000000000)
    let d := d.setPort p { x with st := 4, stAt := d.now, actAcc := x.active d.now, retrains := min 255 (x.retrains + 1)
                                  retrainAt := d.now :: recent, attempts := 0 }
    let d := (d.inc (cPort p 16)).portErr p 0 0x0A03
    if d.retrainMax ≤ recent.length then d.portDown p else d

/-- A port that may become ACTIVE sends HELLO flits and waits for the peer's (R366, R371). The first block is an alignment
block. -/
def Dev.portEnter (d : Dev) (p : Nat) : Dev :=
  (d.modPort p (fun x => { x with entering := true, helloSeen := false, blk := 0, wire := [], flits := [] })).sendFlits p
    (List.replicate 5 .hello)

/-- A port enters ACTIVE; what its buffer holds beyond the peer's ACKSEQ goes out again (R366). -/
def Dev.portActive (d : Dev) (p : Nat) : Dev :=
  ((d.modPort p (fun x => { x with st := 3, entering := false, stAt := d.now, actAt := d.now, attempts := 0, replayFirst := none,
                                   advAt := d.now })).resend p).pumpPort p

/-- The groups of a width, the lower lanes first: (width code, group, lanes) (11 R369). -/
def laneGroups : List (Nat × Nat × Nat) :=
  [(0, 0, 0xFF), (1, 0, 0x0F), (1, 1, 0xF0), (2, 0, 0x03), (2, 1, 0x0C), (2, 2, 0x30), (2, 3, 0xC0)]

/-- The widest group of at least MIN_WIDTH whose lanes are all good. -/
def Dev.pickGroup (d : Dev) (ok : BitVec 8) : Option (Nat × Nat) :=
  (laneGroups.find? (fun g => decide (d.minLanes ≤ lanesOf g.1) && ok.toNat &&& g.2.2 == g.2.2)).map (fun g => (g.1, g.2.1))

/-- The lanes of a port's group. -/
def PortS.lanes (x : PortS) : BitVec 8 := match laneGroups.find? (fun g => g.1 == x.width && g.2.1 == x.group) with
  | some g => BitVec.ofNat 8 g.2.2
  | none => 0#8

/-- Equaliser settings of the port, and whether they differ from the image's. -/
def eqReg (p l : Nat) : Nat := portReg p (0x20 + 4 * l)
def Dev.setEq (d : Dev) (p : Nat) (img : List Word) (l : List Word) : Dev :=
  let d := ((List.range 8).zip l).foldl (fun d e => d.setReg (eqReg p e.1) e.2) d
  d.modPort p (fun x => { x with eqNew := ((List.range 8).zip l).any (fun e => img.getD e.1 0#32 != e.2) })

/-- The image's saved settings of a port's lanes: the records of its link section. -/
def Dev.savedEq (d : Dev) (p : Nat) : List Word := (List.range 8).map (fun l => (d.bup.savedEq.get (8 * p + l) (0, 0#32)).2)

/-- The lanes of a port that may start fast: settings for the lane are recorded with the same peer module ID and port (R367). -/
def Dev.fastLanes (d : Dev) (p : Nat) : BitVec 8 :=
  if !(d.reg lnkCtrl).getLsbD 16 then 0#8
  else (List.range 8).foldl (fun m l => match d.bup.savedEq.find (8 * p + l) with
    | some (peer, _) => if (d.port p).psess.isNone || peer == bf (d.port p).peer 14 0 then m ||| BitVec.ofNat 8 (2 ^ l) else m
    | none => m) 0#8

/-- TRAINING_END: the lanes whose equalisers are set; after a fast start, those that also passed the check of R369. -/
def Dev.trainingEnd (d : Dev) (p : Nat) (lanes : BitVec 8) (fast : Bool) (settings : List Word) (t : Nat) : Dev :=
  let d := { d with now := max d.now t }
  if (d.port p).st != 1 then d
  else
    let fast := fast && d.fastLanes p != 0#8
    let lanes := if fast then lanes &&& d.fastLanes p else lanes
    match d.pickGroup lanes with
    | some (w, g) =>
      (d.modPort p (fun x => { x with st := 2, stAt := d.now, width := w, group := g, fast := fast
                                      laneOk := if fast then lanes else x.laneOk
                                      laneBad := if fast then x.laneBad ||| ~~~ lanes else x.laneBad })).setEq p (d.savedEq p) settings
    | none => if fast then d.modPort p (fun x => { x with fast := false, laneOk := lanes }) else d.portDown p

/-- A change of width is recorded (R369). -/
def Dev.widthErr (d : Dev) (p old new : Nat) : Dev := if old != new then d.portErr p 0 0x0A04 else d

/-- QUALIFY_END: lanes that fail stay out of use, and the port enters ACTIVE, from stage 7 on (R368, R369). -/
def Dev.qualifyEnd (d : Dev) (p : Nat) (lanes : BitVec 8) (t : Nat) : Dev :=
  let d := { d with now := max d.now t }
  let x := d.port p
  if x.st != 2 || x.ready then d
  else
    let bad := x.laneBad ||| ~~~ lanes
    let d := d.modPort p (fun x => { x with laneBad := bad, laneOk := lanes })
    match d.pickGroup (~~~ bad) with
    | some (w, g) =>
      let d := (d.modPort p (fun x => { x with width := w, group := g, ready := true })).widthErr p x.width w
      if d.bup.stage == 7 then d.portEnter p else d
    | none => d.portDown p

/-- RETRAIN_CHECK_END: lanes that fail stay out of use until DOWN (R369). -/
def Dev.retrainEnd (d : Dev) (p : Nat) (lanes : BitVec 8) (settings : List Word) (t : Nat) : Dev :=
  let d := { d with now := max d.now t }
  let x := d.port p
  if x.st != 4 || x.entering then d
  else
    let bad := x.laneBad ||| ~~~ lanes
    let d := d.modPort p (fun x => { x with laneBad := bad, laneOk := lanes })
    match d.pickGroup (~~~ bad) with
    | some (w, g) =>
      if x.stAt + 300000000 < d.now then d.portDown p
      else
        let d := (d.modPort p (fun x => { x with width := w, group := g })).setEq p (d.savedEq p) settings
        (d.widthErr p x.width w).portEnter p
    | none => d.portDown p

/-- RETRAIN_TIMEOUT and DOWN_TIMEOUT. -/
def Dev.retrainTimeout (d : Dev) (p t : Nat) : Dev :=
  let d := { d with now := max d.now t }
  if (d.port p).st == 4 && decide ((d.port p).stAt + 300000000 ≤ t) then d.portDown p else d

def Dev.downTimeout (d : Dev) (p t : Nat) : Dev :=
  let d := { d with now := max d.now t }
  if (d.port p).st == 5 && decide ((d.port p).stAt + 100000000 ≤ t) && d.portEn p && !d.portStopped p && d.pin.refclk &&
      !d.bup.resets.any (fun r => r.level == 2 && r.unit == portStack p)
  then d.modPort p (fun x => { x with st := 1, stAt := d.now, laneBad := 0#8 }) else d

/-- A replay attempt begins and resends every buffered flit, or RETRAIN on the ninth (11 R363, R364). -/
def Dev.replay (d : Dev) (p : Nat) : Dev :=
  let x := d.port p
  if 8 ≤ x.attempts then d.portRetrain p
  else ((d.setPort p { x with attempts := x.attempts + 1, replayFirst := (x.txBuf.head?).map (·.seq), advAt := d.now }).inc (cPort p 15)).resend p

/-- REPLAY_TIMEOUT: 2 µs with unacknowledged flits and no advance. -/
def Dev.replayTimeout (d : Dev) (p t : Nat) : Dev :=
  let d := { d with now := max d.now t }
  let x := d.port p
  if x.st == 3 && !x.txBuf.isEmpty && decide (x.advAt + 2000 ≤ t) then d.replay p else d

/-- A flit was lost: a NAK goes out in the next flit, but no second one within 2 µs without progress (R363). -/
def Dev.flitLost (d : Dev) (p : Nat) : Dev :=
  let x := d.port p
  let may := match x.nakAt with
    | some t => decide (t + 2000 ≤ d.now)
    | none => true
  let d := d.setPort p { x with rxDrop := true, rxNak := x.rxNak || may, nakAt := if may then some d.now else x.nakAt }
  if may then d.sendFlits p [.null] else d

/-! ### Receiving flits (11 R359-R365) -/

/-- The packets in the bytes of a channel: whole ones, and the rest of a last one. Padding ends the flit. -/
def cutPackets : Nat → List Byte → List (List Byte) × List Byte
  | 0, bs => ([], bs)
  | n + 1, bs =>
    if bs.length < 8 || (bs.take 8).all (· == 0#8) then ([], [])
    else
      let k := packetLen bs
      if bs.length < 32 || bs.length < k then ([], bs)
      else
        let (l, r) := cutPackets n (bs.drop k)
        (bs.take k :: l, r)

/-- A receive buffer is freed once no packet needs its flit any more: none that is received whole, incomplete, or held to be
forwarded (R365, R385). -/
def PortS.busy (x : PortS) (seq : Nat) : Bool :=
  x.packets.any (fun k => k.flits.contains seq) || x.partReqF.contains seq || x.partCplF.contains seq ||
  x.held.any (fun h => h.2.contains seq)

def PortS.freeBufs (x : PortS) : PortS :=
  let rq := x.bufReq.filter x.busy
  let cp := x.bufCpl.filter x.busy
  { x with bufReq := rq, bufCpl := cp, freedReq := (x.freedReq + (x.bufReq.length - rq.length)) % 4096
           freedCpl := (x.freedCpl + (x.bufCpl.length - cp.length)) % 4096 }

/-- A DATA flit's payload joins its channel, in a buffer of it. -/
def PortS.takePayload (x : PortS) (cpl : Bool) (seq first : Nat) (payload : List Byte) : PortS :=
  let part := if cpl then x.partCpl else x.partReq
  let partF := if cpl then x.partCplF else x.partReqF
  let bytes := if part.isEmpty then (if first == 31 then [] else payload.drop (8 * first)) else part ++ payload
  let (ps, rest) := cutPackets 64 bytes
  let whole (i : Nat) : List Nat := if i == 0 && !part.isEmpty then partF ++ [seq] else [seq]
  let pk := ((List.range ps.length).zip ps).map (fun (e : Nat × List Byte) => ({ bytes := e.2, flits := whole e.1 } : RxPkt))
  let restF := if rest.isEmpty then [] else whole ps.length
  let x := { x with packets := x.packets ++ pk }
  (if cpl then { x with partCpl := rest, partCplF := restF, bufCpl := x.bufCpl ++ [seq] }
  else { x with partReq := rest, partReqF := restF, bufReq := x.bufReq ++ [seq] }).freeBufs

/-- Buffers whose packets have gone are freed. -/
def Dev.freeBufs (d : Dev) : Dev :=
  if d.ports.all (fun e => (e.2.bufReq ++ e.2.bufCpl).all e.2.busy) then d
  else { d with ports := d.ports.map (fun e => (e.1, e.2.freeBufs)) }

/-- The acknowledgement and the credits of a flit. -/
def Dev.takeAck (d : Dev) (p : Nat) (w0 w1 : Nat) : Dev :=
  let x := d.port p
  let ty := bitsAt w0 28 2
  let ack := bitsAt w0 16 12
  let x := { x with credReq := bitsAt w1 0 12, credCpl := bitsAt w1 12 12 }
  if ty == 0 || ty == 3 then (d.setPort p x).pumpPort p
  else
    let n := x.txBuf.findIdx (fun f => f.seq == ack)
    let hit := decide (n < x.txBuf.length)
    let passed := hit && (match x.replayFirst with
      | some r => (x.txBuf.take (n + 1)).any (fun f => f.seq == r)
      | none => false)
    let x := if hit then { x with txBuf := x.txBuf.drop (n + 1), advAt := d.now } else x
    let x := if passed then { x with attempts := 0, replayFirst := none } else x
    let d := d.setPort p x
    let d := if ty == 2 && x.st == 3 then d.replay p else d
    d.pumpPort p

/-- HELLO, by its payload: the peer is another kind, or was reset, and the port goes DOWN; else a port that waited for it is
ACTIVE (11 R351, R366, R371). `gone`: the session of the port ends. -/
def Dev.helloGo (d : Dev) (p : Nat) (sess : Word) (id : Nat) (gone : Dev → Dev) : Dev :=
  let x := d.port p
  let host := id / 2 ^ 15 % 2 == 1
  let peer := pack [(id % 2 ^ 16, 0)]
  let changed := x.psess.isSome && x.psess != some sess
  let d := d.setPort p { x with helloSeen := true, peer := peer, psess := some sess }
  let d :=
    if host != (p == 0) then (d.portErr p 2 0x0A01).portDown p
    else if changed then d.portDown p
    else if x.entering then d.portActive p
    else d
  if changed then gone (d.modPort p (fun x => { x with win := [], high := none })) else d

/-- A flit arrives whole on an ACTIVE port; one that enters ACTIVE takes the peer's HELLO only. -/
def Dev.rxFlit (d : Dev) (p : Nat) (bs : List Byte) (gone : Dev → Dev) : Dev :=
  let d := d.modPort p (fun x => { x with flits := x.flits.erase bs })
  if (d.port p).st != 3 && !((d.port p).entering && atBytes bs 0 1 % 16 == 2) then d
  else if bs.length != 256 || (crc64 (bs.take 248)).toNat != atBytes bs 248 8 then (d.inc (cPort p 13)).flitLost p
  else
    let w0 := atBytes bs 0 4
    let w1 := atBytes bs 4 4
    let ty := w0 % 16
    let seq := bitsAt w0 4 12
    let x := d.port p
    let ahead := (seq + 4096 - x.rxExp) % 4096
    if 3 ≤ ty || (ty == 2 && atBytes bs 8 1 != 1) then (d.inc (cPort p 14)).flitLost p
    else if ty == 2 then
      let d := d.takeAck p w0 w1
      d.helloGo p (BitVec.ofNat 32 (atBytes bs 16 4)) (atBytes bs 20 2) gone
    else if ty == 0 then
      let d := (d.inc (cPort p 3)).takeAck p w0 w1
      if ahead != 0 && ahead < 2048 then d.flitLost p else d
    else
      let d := (d.inc (cPort p 1)).takeAck p w0 w1
      if ahead == 0 then
        d.modPort p (fun x => { (x.takePayload (w0.testBit 30) seq (bitsAt w1 24 5) ((bs.drop 16).take 232)) with
          rxExp := (seq + 1) % 4096, rxAny := true, rxDrop := false, rxNak := false, nakAt := none })
      else if ahead < 2048 then d.flitLost p
      else d

/-- FEC_BLOCK_RECEIVE: what the lanes of the group received. A block that decodes delivers its flits and counts the symbols
and bits corrected on each lane (log 76); an uncorrectable one loses its flits; too many errors on a lane fail it (11 R357,
R370). -/
def Dev.fecBlock (d : Dev) (p : Nat) (a b : List (List Nat)) : Dev :=
  let x := d.port p
  if x.st != 3 && !x.entering then d
  else
    let w := lanesOf x.width
    let r := fecReceive w a b
    -- by physical lane
    let corr := List.replicate (x.group * w) (0, 0) ++ ((r.map (·.2)).getD [])
    let bits := x.laneBits + 10880 / w
    let errs := (List.range 8).map (fun l => x.laneErr.getD l 0 + (corr.getD l (0, 0)).2)
    let failed := (List.range 8).foldl (fun (m : BitVec 8) l => if 20000000 < errs.getD l 0 then m ||| BitVec.ofNat 8 (2 ^ l) else m) 0#8
    let fresh := decide (2000000000000 ≤ bits) || failed != 0#8
    let d := d.setPort p { x with laneBits := if fresh then 0 else bits, laneErr := if fresh then [] else errs
                                  laneBad := x.laneBad ||| failed, flits := x.flits ++ (r.map (·.1)).getD [] }
    let d := ((List.range 8).zip corr).foldl (fun d e => d.bump (cPort p (4 + e.1)) (e.2.1 + e.2.2)) d
    let d := if r.isNone then (d.inc (cPort p 12)).flitLost p else d
    if failed != 0#8 then d.portRetrain p else d

/-- ALIGNMENT_BLOCK: the lanes on which the marker was found; without one of the group's, lock is lost (11 R356, R370). -/
def Dev.alignment (d : Dev) (p : Nat) (found : BitVec 8) : Dev :=
  let x := d.port p
  if x.st == 3 && (x.lanes &&& ~~~ found) != 0#8 then d.portRetrain p else d

end Sys2Proof.Machine
end

