-- ==== Sys2Proof/Machine/Reset.lean ====
section
/-! DEFINITION. Resets below module level, and units found bad at start-up (15 R491, R495-R497). -/

namespace Sys2Proof.Machine

/-! ### Units bad by fuse or test -/

/-- An entry of the retire log (15 R501): kind, index, reason. -/
def Dev.retireLog (d : Dev) (kind index reason : Nat) : Dev :=
  let b := d.bup
  { d with bup := { b with retireLog := b.retireLog.put (b.retireHead % 256) (pack [(kind, 0), (index, 2), (reason, 16), (1, 31)])
                           retireHead := b.retireHead + 1 } }

/-- Bad by fuse: UNITS, the RETIRE region or the image's RETIRE section (15 R491); the second part: by the image alone. -/
def Dev.fuseBad (d : Dev) (fs : Fuses) (kind index : Nat) : Bool × Bool :=
  let f := fs.bad.contains (kind, index) || fs.retired.contains (kind, index)
  let i := d.bup.retireImage.contains (kind, index)
  (f || i, i && !f)

/-- The verdict on a tested frond or gemma (15 R491): whether it stays out of service. Kind 0 frond, 1 gemma; `index` is
logical, `phys` physical. -/
def Dev.verdict (d : Dev) (fs : Fuses) (kind index phys : Nat) (testBad : Bool) : Dev × Bool :=
  let s := if kind == 0 then phys / 64 else phys / 512
  match d.fuseBad fs kind phys, testBad with
  | (false, _), false => (d, false)
  | (false, _), true =>
    ((d.retireLog kind index 1).raise s { cls := 2, kind := kind + 1, src := index, code := 0x0004 }, true)
  | (true, _), false =>
    let d := (d.retireLog kind index 2).raise s { cls := 0, kind := kind + 1, src := index, code := 0x0005 }
    ({ d with bup := { d.bup with disagree := d.bup.disagree + 1 } }, true)
  | (true, img), true => (d.retireLog kind index (if img then 3 else 0), true)

/-! ### Requests -/

/-- The logical fronds a reset covers: a frond, a half-layer's, a stack's. -/
def Dev.rstFronds (d : Dev) (level unit : Nat) : List Nat :=
  if level == 0 then [unit]
  else (List.range 256).filter (fun f => if level == 1 then d.home f == unit else d.stk f == unit)

/-- The cache halves a reset covers (15 R496): none for a frond. -/
def rstHalves (level unit : Nat) : List Nat :=
  if level == 0 then [] else if level == 1 then [unit] else (List.range 8).map (8 * unit + ·)

/-- The logic domains a reset switches off and on. -/
def rstDoms (level unit : Nat) : List Nat := (rstHalves level unit).map halfDom

/-- A master lies inside the unit of a reset. -/
def Dev.rstMaster (d : Dev) (level unit m : Nat) : Bool :=
  let fs := d.rstFronds level unit
  if m < 0x100 then fs.contains m
  else if m < 0x900 then fs.contains ((m - 0x100) / 8)
  else if m < 0x910 then level == 2 && (m - 0x900) / 4 == unit
  else level == 2 && portStack (m - 0x910) == unit

def rstWord (level unit st result : Nat) : Word := pack [(level, 0), (unit, 2), (st, 13), (result, 15)]

/-- A refused reset (15 R502). -/
def Dev.rstRefuse (d : Dev) (level unit result : Nat) : Dev :=
  let w := d.bup.rstStatus
  let w' := if d.bup.resets.isEmpty then rstWord level unit 0 result
            else pack [(bf w 1 0, 0), (bf w 12 2, 2), (bf w 14 13, 13), (result, 15)]
  { d with bup := { d.bup with rstStatus := w' } }

/-- BUP_RESET_STATUS follows the latest reset. -/
def Dev.rstShow (d : Dev) (level unit st : Nat) : Dev :=
  let w := d.bup.rstStatus
  if bf w 1 0 == level && bf w 12 2 == unit then { d with bup := { d.bup with rstStatus := rstWord level unit st 0 } } else d

def Dev.rstSet (d : Dev) (level unit st : Nat) : Dev :=
  { d with bup := { d.bup with resets := d.bup.resets.map (fun r => if r.level == level && r.unit == unit then { r with st := st } else r) } }

def Dev.rstState (d : Dev) (level unit : Nat) : Option Nat :=
  (d.bup.resets.find? (fun r => r.level == level && r.unit == unit)).map (·.st)

/-- The units of what is reset end at once, FAULTED or NOT_STARTED with cause RESET; their accesses drain (15 R496). -/
def Dev.rstUnits (d : Dev) (level unit : Nat) : Dev :=
  let fs := d.rstFronds level unit
  let mine (u : WUnit) : Bool := u.usesAny fs || (u.kind == 2 && level == 2 && u.target % 16 / 4 == unit)
  let ks := (d.units.filter (fun u => u.phase != 3 && mine u)).map (fun u => (u.key, u.phase))
  let d := ks.foldl (fun d e => d.endUnitAs e.1 (if e.2 == 0 then 2 else 3) 12 0) d
  d.depFail d.units.length

/-- The shadow stores of what is reset are lost to an update in progress (15 R497). -/
def Dev.fwLose (d : Dev) (fs : List Nat) : Dev :=
  if 2 ≤ d.sec.fw.st && d.sec.fw.st ≤ 5 then
    let rs := fs ++ fs.flatMap (fun f => (gemmasOf f).map (256 + ·))
    let add := (rs.filter (fun r => !d.sec.fw.missing.any (fun e => e.1 == r))).map (fun r => (r, 0))
    { d with sec := { d.sec with fw := { d.sec.fw with missing := d.sec.fw.missing ++ add } } }
  else d

/-- An accepted reset begins its absorb window and its drain (15 R496). -/
def Dev.rstBegin (d : Dev) (level unit : Nat) : Dev :=
  let fs := d.rstFronds level unit
  let d := (d.rstSet level unit 1).rstShow level unit 1
  let d := { d with halfReset := (d.halfReset ++ rstHalves level unit).eraseDups }
  let d := fs.foldl (fun d f => d.modFrond f (fun x => { x with resetting := true })) d
  let d := (d.rstUnits level unit).fwLose fs
  let d := match d.thm.rot with
    | some r => if fs.contains r.a || fs.contains r.b then d.abortRot else d
    | none => d
  if level == 2 then (List.range 6).foldl (fun d p => if portStack p == unit then d.portDown p else d) d else d

/-- A domain is being switched on. -/
def Dev.switching (d : Dev) (i : Nat) : Bool := let s := (d.dom i).st; s == 1 || s == 2 || s == 3

/-- A reset is requested (15 R495, R497). -/
def Dev.rstRequest (d : Dev) (level unit : Nat) : Dev :=
  let fs := d.rstFronds level unit
  let doms := if level == 0 then [halfDom (d.home unit)] else rstDoms level unit
  let within (r : Rst) : Bool :=
    (r.level == level && r.unit == unit && level != 0) ||
    (level < r.level && fs.all (fun f => (d.rstFronds r.level r.unit).contains f) && !fs.isEmpty)
  if d.bup.resets.any within then { d with bup := { d.bup with rstStatus := d.bup.rstStatus &&& 0x7FFF#32 } }
  else if level == 0 && d.bup.resets.any (fun r => r.level == 0) then d.rstRefuse level unit 2
  else if (fs.all d.isRetired) || (level == 2 && d.bup.downStacks.contains unit) ||
      (level != 2 && doms.any (fun i => (d.dom i).st == 0 || (d.dom i).st == 5)) then d.rstRefuse level unit 1
  else
    let inner (r : Rst) : Bool := decide (r.level < level) && (d.rstFronds r.level r.unit).all fs.contains
    let wait := doms.any d.switching
    let new : Rst := { level := level, unit := unit, st := 0 }
    let d := { d with bup := { d.bup with resets := d.bup.resets.filter (fun r => !inner r) ++ [new]
                                          rstStatus := rstWord level unit 1 0 } }
    let d := d.inc (cMod (37 + level))
    if wait then d else d.rstBegin level unit

/-- Resets that followed a switch-on begin once it has completed (15 R497). -/
def Dev.rstFollow (d : Dev) : Dev :=
  (d.bup.resets.filter (fun r => r.st == 0)).foldl (fun d r =>
    let doms := if r.level == 0 then [halfDom (d.home r.unit)] else rstDoms r.level r.unit
    if doms.any d.switching then d else d.rstBegin r.level r.unit) d

/-! ### Progress -/

/-- Accesses of masters inside the unit are in flight. -/
def Dev.rstDraining (d : Dev) (level unit : Nat) : Bool := d.xfers.any (fun x => d.rstMaster level unit x.mid)

/-- RESET_DRAIN_END (15 R496). -/
def Dev.rstDrainEnd (d : Dev) (level unit : Nat) : Dev :=
  if d.rstState level unit != some 1 || d.rstDraining level unit then d
  else if level == 0 then (d.rstSet level unit 3).rstShow level unit 2
  else d.rstSet level unit 2

/-- RESET_WRITEBACK_END: the halves' dirty lines are in the memory, and the logic domains go off and on again. -/
def Dev.rstWritebackEnd (d : Dev) (level unit : Nat) (tries : List WriteTry) : Dev :=
  if d.rstState level unit != some 2 then d
  else
    let d := (rstHalves level unit).foldl (fun d h =>
      let i := halfDom h
      let d := d.flushHalf h tries
      if (d.dom i).st == 0 || (d.dom i).st == 5 then d
      else ((d.domLost i).modDom i Dom.off).askDom i) d
    (d.rstSet level unit 3).rstShow level unit 2

/-- A frond's state after its reset: its registers that move with it, its place and its verdicts stay, and the rounding
generators of its arrays run on (04 R115). -/
def Frond.afterReset (x : Frond) : Frond :=
  let y : Frond := {}
  { y with up := x.up, retired := x.retired, pendRetire := x.pendRetire, fenced := x.fenced, phys := x.phys, fmax := x.fmax,
           derate := x.derate, pendDerate := x.pendDerate, seed := x.seed, seedPend := x.seedPend, evHead := x.evHead,
           evAck := x.evAck, evNext := x.evNext, resetting := x.resetting, arrs := x.arrs.map (fun e => (e.1, { gen := e.2.gen })) }

def Gemma.afterReset (x : Gemma) : Gemma :=
  let y : Gemma := {}
  { y with up := x.up, retired := x.retired, pendRetire := x.pendRetire, fenced := x.fenced }

/-- What steps 2 and 3 of R493 found under a stack reset (15 R496): lanes and groups fail, spare slots are bad, and the rows of
bad fused spares move. -/
def Dev.rstMemTest (d : Dev) (s : Nat) (bad : List BadUnit) : Dev :=
  bad.foldl (fun d u =>
    let n := u.index
    let mine (f : Nat) : Bool := d.stk f == s
    if u.kind == 3 && mine (n / 512) then d.laneFail (n / 512) false (n % 512)
    else if u.kind == 4 && mine (n / 512) then d.laneFail (n / 512) true (n % 512)
    else if u.kind == 5 && mine (n / 4) then d.groupFail (n / 4) (n % 4)
    else if u.kind == 6 && mine (n / 512) then
      let b := d.bank (n / 16)
      if (b.slots.find (n % 16)).isSome || b.badSlots.contains (n % 16) then d
      else d.setBank (n / 16) { b with badSlots := n % 16 :: b.badSlots }
    else if u.kind == 7 && mine (n / 524288) then d.remapRow (n / 16384) (n % 16384) []
    else d) d

/-- RESET_REINIT_END: stores and SRAM are clear, the domains are on again, and the units' tests are judged. -/
def Dev.rstReinitEnd (d : Dev) (fs : Fuses) (level unit : Nat) (bad : List BadUnit) : Dev :=
  if d.rstState level unit != some 3 || 2 ≤ d.thm.ladder ||
      (rstDoms level unit).any (fun i => (d.dom i).st != 4 && !(d.dom i).dead) then d
  else
    let fr := d.rstFronds level unit
    let d := fr.foldl (fun d f => d.modFrond f Frond.afterReset) d
    let d := (fr.flatMap gemmasOf).foldl (fun d g => d.modGemma g Gemma.afterReset) d
    let isBad (kind index : Nat) : Bool := bad.any (fun b => b.kind.val == kind && b.index == index)
    let d := if level == 0 then d else fr.foldl (fun d f =>
      if d.isRetired f then d
      else
        let banks := (List.range 32).any (fun j => isBad 2 (32 * f + j))
        let (d, out) := d.verdict fs 0 f (d.phys f) (isBad 0 f || banks)
        let d := if out then d.willRetire f else d
        (gemmasOf f).foldl (fun d g =>
          if (d.gemma g).retired then d
          else
            let (d, out) := d.verdict fs 1 g (8 * d.phys f + g % 8) (isBad 1 g)
            if out then d.modGemma g (fun x => { x with pendRetire := true }) else d) d) d
    -- a stack's seal table and bits are cleared (10 R344)
    let d := if level == 2 then Dev.rstMemTest { d with seals := d.seals.filter (fun e => e.1 / 2 ^ 26 != unit) } unit bad else d
    d.rstSet level unit 4

/-- A frozen master is released: its bit and the ACTIVE bits of its log entries clear (03 R93). A drain still in progress ends
with its log entry and its error all the same (03 R90). -/
def Dev.release (d : Dev) (m : Nat) : Dev :=
  { d with win := { d.win with
      frozen := d.win.frozen.filter (fun x => x != m)
      drains := d.win.drains.map (fun x => if x.mid == m then { x with free := true } else x)
      log := d.win.log.map (fun e => if e.1 % 4 == 0 && bf e.2 11 0 == m then (e.1, e.2 &&& 0xBFFFFFFF#32) else e) } }

/-- At the boundary the unit returns and its absorb window closes (15 R496). -/
def Dev.rstBoundary (d : Dev) : Dev :=
  (d.bup.resets.filter (fun r => r.st == 4)).foldl (fun d r =>
    let fr := d.rstFronds r.level r.unit
    let d := d.rstShow r.level r.unit 3
    let d := { d with bup := { d.bup with resets := d.bup.resets.filter (fun x => x != r) } }
    let d := { d with halfReset := d.halfReset.filter (fun h => !(rstHalves r.level r.unit).contains h) }
    let d := fr.foldl (fun d f => d.modFrond f (fun x => { x with resetting := false, up := true })) d
    let d := (fr.flatMap gemmasOf).foldl (fun d g => d.modGemma g (fun x => { x with up := true })) d
    let d := if r.level == 2 then (d.win.frozen.filter (fun m => d.rstMaster 2 r.unit m)).foldl Dev.release d else d
    let st := if r.level == 0 then d.stk r.unit else if r.level == 1 then r.unit / 8 else r.unit
    d.raise st { cls := 0, kind := if r.level == 0 then 1 else if r.level == 1 then 6 else 7, src := r.unit, code := 0x0006 }) d

end Sys2Proof.Machine
end

