-- ==== Sys2Proof/Machine/Registers.lean ====
section
/-! DEFINITION. The control space (03 R81, R82, 00 R4-R8): which bits each register lets a write change, what a write stores
and starts, and what every register reads as. -/

namespace Sys2Proof.Machine

/-- The block of a control address and the offset in it (03 R81). -/
def blk (a : Nat) : Nat := a / 2 ^ 24
def off (a : Nat) : Nat := a % 2 ^ 24

/-- The register is one word of an array of n at this offset. -/
def inArr (o base n : Nat) : Bool := decide (base ≤ o) && decide (o < base + 4 * n)

/-- The bits with access RW, and those with RWL (00 R5), of the word at a control address; every other bit ignores
writes. -/
def regMasks (a : Nat) : Nat × Nat :=
  let o := off a
  match blk a with
  | 0x00 => if o == 0 then (0, 0xFFF) else if o == 4 then (1, 2) else if o == 0x10 then (0x1FF, 0) else (0, 0)
  | 0x01 =>
    if o == 0 then (0x01FFFF03, 0) else if o == 8 then (0xFF, 0)
    else if o == 0x10 || o == 0x18 then (0, 0xFFF00000) else if o == 0x14 || o == 0x1C || o == 0x24 then (0, 0xFF)
    else if o == 0x20 then (0, 0xFFF80000) else (0, 0)
  | 0x02 => if inArr o 0 256 then (0xF, 0) else if inArr o 0x400 256 then (0xFFFFFFFF, 0) else (0, 0)
  | 0x03 => if inArr o 0xC00 256 then (7, 0) else (0, 0)
  | 0x04 =>
    if inArr o 0 256 then (3, 0) else if inArr o 0x400 256 then (0xFFFF0000, 0) else if inArr o 0x800 256 then (0xFF, 0)
    else if inArr o 0xC00 256 then (0xFFFF, 0) else if inArr o 0x1400 256 then (0xFFFFFFFF, 0) else (0, 0)
  | 0x05 =>
    if inArr o 0 256 then (1, 0) else if inArr o 0x400 256 || inArr o 0xC00 256 then (0x1FFF0FFF, 0)
    else if inArr o 0x800 256 then (0xFFF, 0) else (0, 0)
  | 0x06 => if o == 0x400 then (0xF, 0x10) else (0, 0)
  | 0x07 => if o == 0 then (0, 1) else if o == 4 then (2, 5) else (0, 0)
  | 0x08 => if o == 0 then (3, 0) else if o == 0x10 then (0, 3) else (0, 0)
  | 0x09 =>
    if o == 0 then (7, 8)
    else if inArr o 0x100 48 then
      match o % 0x20 with
      | 0 => (0xFFFFF000, 0)
      | 4 => (0xFF, 0)
      | 8 => (0xFFFFFFFF, 0)
      | 0xC => (0xF, 0)
      | _ => (0, 0)
    else (0, 0)
  | 0x0A =>
    if o == 0 then (0xFF00FFFF, 0x70000)
    else if inArr o 0x100 96 && o % 0x40 == 0 then (2, 1)
    else if inArr o 0x10000 4096 then (0, 7) else (0, 0)
  | 0x0B => if o == 0x704 then (0, 3) else (0, 0)
  | 0x0C =>
    if o == 0 then (0x1FFFFFFF, 0) else if inArr o 0x100 56 then (3, 0) else if inArr o 0x400 32 then (0x3F, 0)
    else if inArr o 0x10000 4096 && (o - 0x10000) % 0x1000 < 3584 then (0xFFFF, 0) else (0, 0)
  | 0x0D =>
    if o == 0 then (0x1F, 0) else if o == 0xC then (0xFFFF, 0) else if o == 0x700 then (1, 0)
    else if o == 0x708 then (0x3FFFFFFF, 0) else (0, 0)
  | 0x0E =>
    if o == 0 then (0xF, 0) else if o == 0x10 then (0, 0xFFFE0000) else if o == 0x14 then (0, 0xFF)
    else if o == 0x1C then (0xFFFFFFFF, 0) else (0, 0)
  | 0x0F => if o == 0 then (0x3F, 0) else if inArr o 0x10 8 then (0xFFFFFFFF, 0) else (0, 0)
  | _ => (0, 0)

/-- The bits with access W1C. -/
def w1cMask (a : Nat) : Nat :=
  if a == 0x01000004 then 6 else if a == 0x0E000004 then 0x400
  else if blk a == 2 && inArr (off a) 0x800 256 then 0xFFFFF else 0

/-- A field replaced by another value where a rule stores one (00 R34). -/
def fieldTo (w : Word) (hi lo v : Nat) : Word := setField w lo (hi - lo + 1) v

def dflt0 (w : Word) (hi lo v : Nat) : Word := if bf w hi lo == 0 then fieldTo w hi lo v else w
def dfltOut (w : Word) (hi lo mn mx v : Nat) : Word := if mn ≤ bf w hi lo && bf w hi lo ≤ mx then w else fieldTo w hi lo v

/-- The value stored for a value written (00 R34): clamped values, defaults, bits that read 0. -/
def storedVal (a : Nat) (w : Word) : Word :=
  let o := off a
  if a == 0x01000000 then fieldTo w 24 8 (max 50 (min 100000 (bf w 24 8)))
  else if a == 0x01000008 then dflt0 w 7 0 8
  else if (blk a == 3 && inArr o 0xC00 256) || a == 0x09000000 then (if bf w 2 0 == 7 then fieldTo w 2 0 6 else w)
  else if a == 0x06000400 then dflt0 w 3 0 3
  else if a == 0x08000010 then (if bf w 1 0 == 3 then fieldTo w 1 0 0 else w)
  else if a == 0x0A000000 then
    let w := dflt0 (dflt0 w 15 0 200) 31 24 4
    if bf w 18 17 == 3 then fieldTo w 18 17 0 else w
  else if blk a == 0x0A && inArr o 0x100 96 && o % 0x40 == 0 then fieldTo w 1 1 0
  else if blk a == 0x0A && inArr o 0x10000 4096 then (if 5 < bf w 2 0 then fieldTo w 2 0 0 else w)
  else if a == 0x00000010 then fieldTo w 8 8 0
  else if a == 0x0C000000 then
    let w := dflt0 (dflt0 w 7 0 20) 28 25 4
    dfltOut (dfltOut w 15 8 20 55 55) 22 16 10 100 50
  else if blk a == 0x0C && inArr o 0x100 56 then (if bf w 1 0 == 3 then fieldTo w 1 0 1 else w)
  else if a == 0x0D00000C then dflt0 w 15 0 500
  else if a == 0x0D000708 then fieldTo (fieldTo w 28 16 (min 4096 (bf w 28 16))) 29 29 0
  else if a == 0x0F000000 then dfltOut w 5 2 1 8 8
  else w

/-- The word as set, under a mask of the bits a writer may change (00 R5, R6, R34). -/
def Dev.setMasked (d : Dev) (a m v : Nat) : Dev :=
  let old := (d.reg a).toNat
  d.setReg a (storedVal a (BitVec.ofNat 32 ((old &&& (0xFFFFFFFF ^^^ m)) ||| (v &&& m))))

/-- What the write of a control word starts, beyond what it stores; `m`: the bits it may change. -/
def Dev.regAction (d : Dev) (a m v : Nat) : Dev :=
  let o := off a
  let bit (i : Nat) : Bool := m.testBit i && v.testBit i
  if a == 0x00000004 then (if bit 0 then { d with bup := { d.bup with lock := true } } else d)
  else if a == 0x00000010 then (if bit 8 then d.rstRequest 0 (bf (d.reg a) 7 0) else d)
  else if blk a == 2 && inArr o 0x400 256 then d.modFrond ((o - 0x400) / 4) (fun x => { x with seedPend := true })
  else if blk a == 4 && inArr o 0x1400 256 then d.modFrond ((o - 0x1400) / 4) (fun x => { x with evAck := (d.reg a).toNat })
  else if blk a == 0x0A && inArr o 0x100 96 && o % 0x40 == 0 then (if bit 1 then d.portRetrain ((o - 0x100) / 0x40) else d)
  else if a == 0x0D000708 then
    (if bit 29 then d.rotRequest (bf (d.reg a) 7 0) (bf (d.reg a) 15 8) (bf (d.reg a) 28 16) else d)
  else if a == 0x0E00001C then { d with err := { d.err with ack := (d.reg a).toNat } }
  else d

/-- A 1 written to a W1C bit clears it (00 R5, R7). -/
def Dev.w1c (d : Dev) (a v : Nat) : Dev :=
  if a == 0x0E000004 then (if v.testBit 10 then { d with err := { d.err with overflow := false } } else d)
  else if a == 0x01000004 then d.setReg a (d.reg a &&& ~~~ (BitVec.ofNat 32 (v &&& 6)))
  else
    let f := (off a - 0x800) / 4
    { d with arrStatus := d.arrStatus.put f (d.arrStatus.get f 0#32 &&& ~~~ (BitVec.ofNat 32 (v &&& 0xFFFFF))) }

/-- A write of a control word by port p (none: not a port), under a mask; RWL bits change until the lock (00 R5). -/
def Dev.writeReg (d : Dev) (p : Option Nat) (a mask v : Nat) : Dev :=
  let o := off a
  let rm := regMasks a
  let m := mask &&& (rm.1 ||| (if d.bup.lock then 0 else rm.2))
  if blk a == 9 && inArr o 0x100 48 then
    -- a port's seal registers are its own (10 R347)
    if p != some ((o - 0x100) / 0x20) then d
    else if o % 0x20 == 0xC then d.sealCmd ((o - 0x100) / 0x20) (BitVec.ofNat 32 (((d.reg a).toNat &&& (0xFFFFFFFF ^^^ m)) ||| (v &&& m)))
    else d.setMasked a m v
  else
    let d := if w1cMask a != 0 then d.w1c a (v &&& mask) else d
    if m == 0 then d else (d.setMasked a m v).regAction a m v

/-! ### Reads -/

def Dev.stageWord (d : Dev) : Word :=
  pack [(d.bup.stage, 0), (d.bup.state, 3), (d.bup.copy, 5), (d.bup.code, 8), (d.bup.detail, 16)]

def mapBits (n : Nat) (p : Nat → Bool) : Word := pack ((List.range n).map (fun i => (b2n (p i), i)))

def strBytes (s : String) : List Byte := s.toList.map (fun c => BitVec.ofNat 8 c.toNat)

/-- The 48 B of SHAKE256 output that take the place of key generation's random source (12 R397). -/
def idSource (fs : Fuses) : List Byte :=
  (List.range 48).map (Config.shakeByte (strBytes "UFK7730-ID" ++ leBytes 32 fs.seed.toNat ++ leBytes 8 fs.serial.toNat))

/-- The identity public key (12 R397, R398); none before stage 2 ends. -/
def idPub (fs : Fuses) : List Byte :=
  (List.range 1793).map (Config.signatureByte 0 (idSource fs))

def Dev.idDigest (d : Dev) (fs : Fuses) : BitVec 256 := if d.sec.keyReady then Config.digest 0 (idPub fs) else 0#256

def Dev.readBup (d : Dev) (o : Nat) : Word :=
  if o == 0 then d.reg 0 ||| pack [((mapBits 4 d.bup.upStacks.contains).toNat, 12)]
  else if o == 4 then (d.reg 4 &&& 0xFFFFFFFE#32) ||| pack [(b2n d.bup.lock, 0)]
  else if o == 8 || o == 0x100 then d.stageWord
  else if o == 0x14 then d.bup.rstStatus
  else if o == 0x20 then
    let tv (i : Nat) : Nat := b2n ((d.tach i).checked && !(d.tach i).invalid)
    pack [(b2n d.pwr.throttle, 0), (b2n d.thm.leak, 1), (tv 0, 2), (tv 1, 3),
      ((mapBits 4 (fun k => (d.thermistor k).isSome)).toNat, 4), (b2n d.pin.refclk, 8), (b2n d.pin.flashSel, 9),
      (d.pin.strap.toNat, 10), (d.pin.dyn.toNat, 16), (b2n d.pin.ibi, 23)]
  else if inArr o 0x100 16 then d.bup.record.get ((o - 0x100) / 4) 0#32
  else if inArr o 0x400 256 then d.bup.retireLog.get ((o - 0x400) / 4) 0#32
  else if o == 0x800 then BitVec.ofNat 32 d.bup.retireHead
  else d.reg o

/-- FRD_UNIT_STATE (01 R30). -/
def Dev.unitState (d : Dev) (f : Nat) : Word :=
  let x := d.frond f
  pack [(d.frondState f, 0), ((d.rhiz f).mode % 4, 4), (d.phys f, 8), (x.fmax, 16), (x.derate, 20),
    ((mapBits 8 (fun k => d.gemReady (8 * f + k))).toNat, 24)]

/-- FRD_PROG_STATUS (05 R171). -/
def Dev.progStatus (d : Dev) (f : Nat) : Word :=
  let x := d.frond f
  let run := match d.unitOn f with
    | some u => if u.kind != 0 then 0 else if u.phase == 2 then 3 else if x.waiting then 2 else 1
    | none => if d.xfers.any (fun y => y.mid == f) then 3 else 0
  pack [(x.ip % 16384, 0), (run, 14), (x.lastCommit, 16)]

/-- STH_STATUS (07 R245, R247); CFG_ERR is clear until values take effect. -/
def Dev.sthStatus (d : Dev) (f : Nat) : Word :=
  let x := d.frond f
  pack [(x.sthState, 0), (b2n (!d.inForce.isEmpty && d.sthErr f), 2), (min 4095 x.sthHigh, 4), (x.sthSwitch, 16)]

def Dev.readRhz (d : Dev) (o : Nat) : Word :=
  if inArr o 0 256 then
    let r := d.rhiz (o / 4)
    pack [(r.mode % 4, 0), (b2n (r.pend != 0 || r.out), 2), (b2n r.cmdAlt, 3), (r.spared.length, 4), (r.ccSpared.length, 16)]
  else if inArr o 0x1000 4096 then
    let r := d.rhiz ((o - 0x1000) / 64)
    let i := (o - 0x1000) % 64 / 4
    if i < 9 then mapBits 32 (fun j => decide (32 * i + j < 272) && r.failed.contains (32 * i + j))
    else if i == 9 then pack [(r.cmdFail.toNat, 0)] else 0#32
  else d.reg (0x06000000 + o)

def Dev.readMem (d : Dev) (o : Nat) : Word :=
  if inArr o 0x100 32 then
    let l := d.layer ((o - 0x100) / 4)
    pack [(b2n l.double, 0), (b2n l.unknown, 1), (l.temp % 256, 8)]
  else if inArr o 0x800 256 then d.mem.rtlog.get ((o - 0x800) / 4) 0#32
  else if o == 0xC00 then BitVec.ofNat 32 d.mem.rthead
  else if inArr o 0x100000 131072 then
    let n := (o - 0x100000) / 4
    match (d.bank (n / 16)).slots.find (n % 16) with
    | some r => rtEntry (n / 16) r (n % 16)
    | none => 0#32
  else if inArr o 0x200000 8192 then
    let b := d.bank ((o - 0x200000) / 4)
    let used := (List.range 16).filter (fun k => (b.slots.find k).isSome || b.badSlots.contains k)
    pack [(16 - used.length, 0), (min 4 b.queue.length, 5), (b2n b.exhausted, 8)]
  else d.reg (0x07000000 + o)

def Dev.readCch (d : Dev) (o : Nat) : Word :=
  if inArr o 0x100 32 then
    let h := d.half ((o - 0x100) / 4)
    pack [(h.ghosts.length, 0), (h.evicts.length, 16), (min 15 (h.off.length + h.offSlice.length), 24)]
  else d.reg (0x08000000 + o)

/-- GEM_STATE (10 R346). -/
def Dev.gemState (d : Dev) (g : Nat) : Word :=
  let x := d.gemma g
  let st := if x.fenced then 5 else if x.retired || (d.frond (g / 8)).retired then 3 else if !x.up then 0
    else if d.isFrozen (gemmaMid g) then 4 else 1
  let run := match d.unitOn (gemmaMid g) with
    | some u => if u.phase == 2 then 3 else if x.waiting || x.barrier.isSome || x.fend then 2 else 1
    | none => if d.xfers.any (fun y => y.mid == gemmaMid g) then 3 else 0
  pack [(st, 0), (run, 4), (x.ip % 65536, 8), ((mapBits 4 (fun r => (x.infl.find r).isSome)).toNat, 24)]

def Dev.readGem (d : Dev) (o : Nat) : Word :=
  if inArr o 0x1000 2048 then d.gemState ((o - 0x1000) / 4)
  else if inArr o 0x200 4 then
    let s := (o - 0x200) / 4
    pack [(d.sealCount s, 0), ((d.seals.filter (fun e => e.1 / 2 ^ 26 == s && 2 ≤ e.2.state)).length, 16)]
  else d.reg (0x09000000 + o)

def Dev.readLnk (d : Dev) (o : Nat) : Word :=
  if o == 4 then d.sec.session
  else if inArr o 0x100 96 then
    let p := (o - 0x100) / 0x40
    let x := d.port p
    match (o - 0x100) % 0x40 with
    | 4 => pack [(x.st, 0), (x.width, 3), (x.group, 5), ((x.laneOk &&& ~~~ x.laneBad).toNat, 8), (x.retrains, 16),
        (b2n x.fast, 24), (b2n x.eqNew, 25)]
    | 8 => x.peer &&& 0xFFFF#32
    | 0xC => x.psess.getD 0#32
    | _ => d.reg (0x0A000000 + o)
  else d.reg (0x0A000000 + o)

def Dev.readSec (d : Dev) (fs : Fuses) (o : Nat) : Word :=
  if o == 0x100 then pack [(d.portSet 0, 0), (d.portSet 1, 8), (d.portSet 2, 16), (d.portSet 3, 24)]
  else if o == 0x104 then pack [(d.portSet 4, 0), (d.portSet 5, 8)]
  else if inArr o 0x120 8 then mapBits 32 (fun j => d.win.installed.contains (32 * ((o - 0x120) / 4) + j))
  else if inArr o 0x200 80 then mapBits 32 (fun j => d.isFrozen (32 * ((o - 0x200) / 4) + j))
  else if inArr o 0x400 128 then d.win.log.get ((o - 0x400) / 4) 0#32
  else if o == 0x600 then BitVec.ofNat 32 d.win.logHead
  else if o == 0x700 then
    pack [((mapBits 4 (fun n => (fs.vendor.find n).isSome)).toNat, 0), (fs.revoked.toNat, 4), (b2n fs.owner.isSome, 8)]
  else if o == 0x710 then BitVec.ofNat 32 d.sec.level
  else if inArr o 0x714 4 then BitVec.ofNat 32 (bitsAt d.sec.nonce.toNat (32 * ((o - 0x714) / 4)) 32)
  else if o == 0x730 then pack [(d.sec.fw.st, 0), (d.sec.fw.round, 3), (d.sec.fw.code, 8)]
  else if o == 0x734 then pack [(d.sec.fw.switched.length, 0), (d.sec.fw.fenced.length, 12)]
  else if inArr o 0x800 48 then
    let s := d.sec.sess.get ((o - 0x800) / 0x20) {}
    match o % 0x20 with
    | 0 => pack [(if !s.next.isEmpty then 1 else if s.active then 2 else 0, 0), (if s.active then s.index else 0, 2),
        (b2n (s.active && s.admin), 6)]
    | 8 => BitVec.ofNat 32 s.last.toNat
    | 0xC => BitVec.ofNat 32 (s.last.toNat / 2 ^ 32)
    | _ => 0#32
  else if inArr o 0x900 8 then BitVec.ofNat 32 (bitsAt (d.idDigest fs).toNat (32 * ((o - 0x900) / 4)) 32)
  else if inArr o 0x10000 16384 then d.win.win.get ((o - 0x10000) / 4) 0#32
  else if inArr o 0x20000 449 then (if d.sec.keyReady then BitVec.ofNat 32 (atBytes (idPub fs) (o - 0x20000) 4) else 0#32)
  else d.reg (0x0B000000 + o)

/-- PWR_FROND_FREQ (13 R449). -/
def Dev.frondFreq (d : Dev) (f : Nat) : Word :=
  let x := d.dom (halfDom (d.home f))
  if x.st != 4 then 0#32
  else pack [(min (d.frondMax f) (x.grantAt d.now), 0), (b2n (0 < x.stretch || x.droop), 6), (b2n ((d.unitOn f).isNone && !d.warming f), 7)]

def Dev.readPwr (d : Dev) (o : Nat) : Word :=
  if o == 4 then pack [(d.pwr.cap, 0), ((((d.capEff).1 / 1000 : Rat).floor.toNat) % 4096, 16)]
  else if inArr o 0x100 56 then
    let x := d.dom ((o - 0x100) / 4)
    pack [(bf (d.reg (0x0C000000 + o)) 1 0, 0), (x.st, 2), (x.thr.toNat, 8)]
  else if inArr o 0x500 32 then
    let h := (o - 0x500) / 4
    pack [(d.setpointNow h % 4096, 0), ((d.dom (halfDom h)).vmin % 4096, 16)]
  else if inArr o 0x600 256 then d.frondFreq ((o - 0x600) / 4)
  else d.reg (0x0C000000 + o)

def Dev.readThm (d : Dev) (o : Nat) : Word :=
  if inArr o 0x400 64 then
    let i := (o - 0x400) / 16
    let w := (o - 0x400) % 16 / 4
    if w < 3 then mapBits 32 (fun b => (d.sensor (logicSensor i (32 * w + b))).suspect) else 0#32
  else if inArr o 0x500 32 then mapBits 16 (fun b => (d.sensor (memSensor ((o - 0x500) / 4) b)).suspect)
  else if o == 0x704 then match d.thm.hint with
    | some h => pack [(h.1, 0), (h.2, 8), (1, 16)]
    | none => 0#32
  else if o == 0x70C then pack [(d.thm.rotStat, 0), (d.thm.rotRes, 3)]
  else d.reg (0x0D000000 + o)

def Dev.readErr (d : Dev) (o : Nat) : Word :=
  if o == 4 then
    pack [(d.err.fifo.length, 0), (d.err.innermost.getD 7, 7), (b2n d.err.overflow, 10), (b2n d.err.fatal0.isSome, 11),
      (b2n d.err.double, 12)]
  else if o == 0x18 then BitVec.ofNat 32 d.err.head
  else if o == 0x20 then BitVec.ofNat 32 d.err.alertSeq
  else if inArr o 0x200 8 then recWord d.err.fatal0 ((o - 0x200) / 4)
  else if inArr o 0x220 8 then recWord d.err.fatal1 ((o - 0x220) / 4)
  else if inArr o 0x400 128 then recWord (d.err.last.find ((o - 0x400) / 32)) ((o - 0x400) % 32 / 4)
  else if o == 0x600 then BitVec.ofNat 32 d.err.lastHead
  else d.reg (0x0E000000 + o)

/-- A read of a control word outside the statistics block; it has no side effect (03 R82, R81). -/
def Dev.readReg (d : Dev) (fs : Fuses) (a : Nat) : Word :=
  let o := off a
  match blk a with
  | 0x00 => d.readBup o
  | 0x01 => if o == 0x28 then BitVec.ofNat 32 d.frame else if o == 0x2C then BitVec.ofNat 32 (d.frame / 2 ^ 32 % 2 ^ 16) else d.reg a
  | 0x02 => if inArr o 0x800 256 then d.arrStatus.get ((o - 0x800) / 4) 0#32 else d.reg a
  | 0x03 =>
    if inArr o 0x400 256 then d.unitState ((o - 0x400) / 4)
    else if inArr o 0x800 256 then d.progStatus ((o - 0x800) / 4) else d.reg a
  | 0x04 =>
    if inArr o 0x1000 256 then BitVec.ofNat 32 (d.frond ((o - 0x1000) / 4)).evHead
    else if inArr o 0x1400 256 then BitVec.ofNat 32 (d.frond ((o - 0x1400) / 4)).evAck else d.reg a
  | 0x05 => if inArr o 0x1000 256 then d.sthStatus ((o - 0x1000) / 4) else d.reg a
  | 0x06 => d.readRhz o
  | 0x07 => d.readMem o
  | 0x08 => d.readCch o
  | 0x09 => d.readGem o
  | 0x0A => d.readLnk o
  | 0x0B => d.readSec fs o
  | 0x0C => d.readPwr o
  | 0x0D => d.readThm o
  | 0x0E => d.readErr o
  | 0x0F => if o == 4 then BitVec.ofNat 32 d.sweep.late.length else d.reg a
  | _ => 0#32

/-- A read of word w of a counter's live copy by a reader: a port, or 6 for JTAG (16 R519). -/
def Dev.statLive (d : Dev) (reader counter w : Nat) : Dev × Word :=
  let v := d.stat.live.get counter 0
  if w == 0 then
    ({ d with stat := { d.stat with hold := d.stat.hold.put reader (counter, v / 2 ^ 32 % 2 ^ 16) } }, BitVec.ofNat 32 v)
  else match d.stat.hold.find reader with
    | some h => (d, BitVec.ofNat 32 (if h.1 == counter then h.2 else v / 2 ^ 32 % 2 ^ 16))
    | none => (d, BitVec.ofNat 32 (v / 2 ^ 32 % 2 ^ 16))

/-- A read of a control word by a reader (16 R519 for the statistics block). -/
def Dev.ctlRead (d : Dev) (fs : Fuses) (reader a : Nat) : Dev × Word :=
  if blk a == 0x10 then
    let o := off a
    if o < 0x400000 then
      let v := d.stat.shadow.get (o / 8) 0
      (d, BitVec.ofNat 32 (if o % 8 < 4 then v else v / 2 ^ 32 % 2 ^ 16))
    else if o < 0x800000 then d.statLive reader ((o - 0x400000) / 8) (o % 8 / 4)
    else (d, 0#32)
  else (d, d.readReg fs a)

/-- A field whose change is a critical command (03 R82, 12 R406). DESIGN CHOICE (log 68): a read-only field that only a
critical command changes (PWR_CAP.CAP, SEC_PORT_WSET, the windows) ignores a direct write, which completes OK. -/
def authOnly (a : Nat) : Bool :=
  let b := blk a
  (b == 0x0B || b == 0x0C || b == 0x0D || b == 0x0F) && (((regMasks a).1 ||| (regMasks a).2) != 0)

end Sys2Proof.Machine
end

