-- ==== Sys2Proof/Machine/Bringup.lean ====
section
/-! DEFINITION. Module reset, the configuration image, the fuse map and the bring-up stages (15 R480-R494, R500). -/

namespace Sys2Proof.Machine

/-! ### Module reset and stage 0 (R480, R481, R495) -/

/-- The first BUP_STOP record gives CODE and DETAIL (16 R507). -/
def Dev.bupStop (d : Dev) (code detail : Nat) : Dev :=
  let d := { d with bup := { d.bup with state := 2, code := code, detail := detail } }
  d.raise 0 { cls := 4, kind := 0, code := 0x0001, detail := code + detail * 256 }

def Dev.stackLeft (d : Dev) (s : Nat) : Dev :=
  let d := { d with bup := { d.bup with downStacks := if d.bup.downStacks.contains s then d.bup.downStacks else d.bup.downStacks ++ [s] } }
  (d.modDom (14 * s + 12) Dom.off).modDom (14 * s + 13) Dom.off

/-- The device after a module reset: every state anew, the memory unwritten, random numbers drawn; the levels of its
inputs stay (R495, 11 R390, 12 R414). -/
def Dev.freshBoot (d : Dev) : Dev :=
  let layers := (List.range 32).map (fun i => (i, { ({} : MemLayer) with epoch := d.mem.epochs + 1 }))
  let pin : PinS := {}
  let e : Dev := {}
  { e with now := d.now, free := d.free, lastTick := d.now, mem := { e.mem with layers := layers, epochs := d.mem.epochs + 1 },
           pwr := { e.pwr with dom := bootDoms, throttle := d.pwr.throttle, throttleUse := d.pwr.throttle },
           bup := { e.bup with stageAt := d.now },
           regs := (List.range 6).map (fun p => (sealReg p 16, 0x80000000#32)),
           sec := { e.sec with draws := d.sec.draws + 1, session := Config.randomWord d.sec.draws,
                               nonce := Config.randomNonce d.sec.draws },
           pin := { pin with pgood := true, pwrEn := d.pin.pwrEn, refclk := d.pin.refclk, flashSel := d.pin.flashSel,
                             strap := d.pin.strap, vinBad := d.pin.vinBad, fellAt := d.pin.fellAt, resetLow := d.pin.resetLow,
                             throttleAt := d.pin.throttleAt, throttleErr := d.pin.throttleErr } }

/-- Stage 0 (R480, R481): the stipes' self-check and the REFCLK lock. -/
def Dev.boot (d : Dev) (romOk : BitVec 4) (refclk : Bool) : Dev :=
  let d := d.freshBoot
  let d := { d with pin := { d.pin with refclk := refclk } }
  let d := [1, 2, 3].foldl (fun d s => if romOk.getLsbD s then d else d.stackLeft s) d
  if !romOk.getLsbD 0 then d.bupStop 1 0
  else if !refclk then d.bupStop 2 0 else d

/-- A module reset by command, by RESET_N's release or by STOP_ACTION, with every self-check passing. -/
def Dev.moduleReset (d : Dev) : Dev := d.boot 0xF#4 d.pin.refclk

/-- Words 13 and 14 of the record (R500): what was counted so far, and the ports. A port that has passed QUALIFY is ACTIVE from
stage 7 on, once its peer's HELLO is there (11 R367, R371): the ACTIVE mask shows it (DEDUCED, log 54). -/
def Dev.word13 (d : Dev) : Word := pack [(min 65535 d.bup.disagree, 0), (min 255 d.bup.fuseSecond, 16), (min 255 d.bup.ignored, 24)]
def Dev.word14 (d : Dev) : Word :=
  let ps := (List.range 6).map (fun p => (p, d.port p))
  pack (ps.map (fun e => (e.2.width, 2 * e.1)) ++ ps.map (fun e => (b2n (e.2.st == 3 || e.2.ready), 12 + e.1)) ++
    ps.map (fun e => (b2n e.2.fast, 18 + e.1)))

/-- A stage begins: the one before it has ended, and its duration and its words are recorded (R500). -/
def Dev.enterStage (d : Dev) (n : Nat) : Dev :=
  let b := d.bup
  let us := (d.now - b.stageAt) / 1000
  let up := (List.range 4).filter (fun s => !b.downStacks.contains s)
  let reached := up.foldl (fun m s => m.put s n) b.reached
  let w15 := pack ((List.range 4).map (fun s => (reached.get s 0, 4 * s)))
  { d with bup := { b with stage := n, stageAt := d.now, reached := reached
                           record := (((b.record.put n (BitVec.ofNat 32 us)).put 13 d.word13).put 14
                             (if 5 ≤ n then d.word14 else 0#32)).put 15 w15 } }

def Dev.setRecord (d : Dev) (n : Nat) (w : Word) : Dev := { d with bup := { d.bup with record := d.bup.record.put n w } }

/-- Bring-up may go on from stage n. -/
def Dev.atStage (d : Dev) (n : Nat) : Bool := d.bup.powered && !d.pin.resetLow && d.bup.state == 0 && d.bup.stage == n

/-! ### The configuration image (R484-R488) -/

/-- A section: type, CRITICAL, payload. -/
abbrev Sec := Nat × Bool × List Byte

def sections : Nat → List Byte → Option (List Sec)
  | 0, [] => some []
  | 0, _ => none
  | n + 1, bs =>
    let len := atBytes bs 4 4
    let next := (8 + len + 7) / 8 * 8
    if bs.length < next then none
    else (sections n (bs.drop next)).map (fun l => (atBytes bs 0 2, (bs.getD 2 0#8).getLsbD 0, (bs.drop 8).take len) :: l)

/-- The image of a copy as its LENGTH gives it; bytes beyond what the flash holds read 0xFF. -/
def imageLen (bs : List Byte) : Nat := atBytes bs 8 4

def imageSecs (bs : List Byte) : Option (List Sec) :=
  let n := atBytes bs 6 2
  let len := imageLen bs
  if len % 8 != 0 || 33554432 < len || len < 0x800 + 1280 || bs.length < len || n == 0 || 1024 < n then none
  else sections n ((bs.take (len - 1280)).drop 0x800)

/-- The entries of n bytes of a payload. -/
def entries (n : Nat) (bs : List Byte) : List (List Byte) := (List.range (bs.length / n)).map (fun i => (bs.drop (n * i)).take n)

/-- What WINDOW_SET refuses in a window (03 R88): with VALID = 1, a reserved SPACE, LIMIT below BASE, A or X in CONTROL. -/
def winBad (w0 w1 : Word) : Bool :=
  w1.getLsbD 30 && (decide (bf w1 27 0 < bf w0 27 0) || decide (2 ≤ bf w1 29 28) || w1.getLsbD 31 ||
    (bf w1 29 28 == 1 && (w0.getLsbD 30 || w0.getLsbD 31 || decide (2 ^ 20 ≤ bf w0 27 0) || decide (2 ^ 20 ≤ bf w1 27 0))))

def wordAt (bs : List Byte) (lo : Nat) : Word := BitVec.ofNat 32 (atBytes bs lo 4)

/-- The records of a WINDOW section: set, INSTALL, words. -/
def winRecords (bs : List Byte) : List (Nat × Bool × List Word) :=
  (List.range (atBytes bs 0 1)).map (fun i =>
    let r := (bs.drop (4 + 260 * i)).take 260
    (atBytes r 0 1, (wordAt r 0).getLsbD 8, (List.range 64).map (fun j => wordAt r (4 + 4 * j))))

/-- The bytes that bind ports H, A-E. -/
def winBinds (bs : List Byte) : List Nat := (List.range 6).map (fun p => atBytes bs (4 + 260 * atBytes bs 0 1 + p) 1)

def windowOk (bs : List Byte) : Bool :=
  let n := atBytes bs 0 1
  let rs := winRecords bs
  bs.length == 4 + 260 * n + 8 && atBytes bs 1 3 == 0 &&
  rs.all (fun r => (List.range 16).all (fun i => !winBad (r.2.2.getD (4 * i) 0#32) (r.2.2.getD (4 * i + 1) 0#32))) &&
  (List.range n).all (fun i => atBytes bs (4 + 260 * i) 4 < 512) &&
  (winBinds bs).all (fun s => rs.any (fun r => r.1 == s && r.2.1)) && atBytes bs (4 + 260 * n + 6) 2 == 0

def fwBlocks (bs : List Byte) : List Nat := [atBytes bs 0 2, atBytes bs 2 2, atBytes bs 4 2]

/-- Every known section is well formed (R487). -/
def sectionOk (s : Sec) : Bool :=
  let bs := s.2.2
  match s.1 with
  | 1 => bs.length % 4 == 0 && (entries 4 bs).all (fun e => atBytes e 3 1 == 0)
  | 2 => bs.length % 12 == 0
  | 3 => windowOk bs
  | 4 => bs.length % 1800 == 0 && decide (bs.length ≤ 16 * 1800) &&
    (entries 1800 bs).all (fun e => wordAt e 0 &&& ~~~0x00013F0F#32 == 0#32 && atBytes e 1797 3 == 0)
  | 5 => let m := atBytes bs 4100 4
    bs.length == 4104 + 12 * m && (bs.take 4096).all (fun b => b.toNat < 8) && decide (atBytes bs 4096 1 < 64) && atBytes bs 4097 3 == 0 &&
    (entries 12 (bs.drop 4104)).all (fun e => decide (bf (wordAt e 0) 2 0 < 6) && bf (wordAt e 0) 7 6 == 0 &&
      bf (wordAt e 0) 31 23 == 0 && atBytes e 8 4 == 0)
  | 6 => bs.length == 7316 && decide (600 ≤ atBytes bs 0 2) && decide (atBytes bs 0 2 ≤ 2400) &&
    ((bs.drop 4).take 32).all (fun b => decide (b.toNat < 64))
  | 7 => let e := atBytes bs 108 4
    decide (112 ≤ bs.length) && bs.length == 112 + 8 * e && atBytes bs 2 2 == 0 &&
    (entries 8 (bs.drop 112)).all (fun x => (decide (atBytes x 0 1 < 26) || atBytes x 0 1 == 255) &&
      (decide (atBytes x 1 1 < 26) || atBytes x 1 1 == 255) && atBytes x 2 2 == 0)
  | 8 => bs.length % 4 == 0
  | 9 => bs.length % 4 == 0 && (entries 4 bs).all (fun e => let w := wordAt e 0
      bf w 31 16 == 0 && (bf w 1 0 == 0 && decide (bf w 15 2 < 256) || bf w 1 0 == 1 && decide (bf w 15 2 < 2048) ||
        bf w 1 0 == 2 && decide (bf w 15 2 < 8192)))
  | 10 => let b := fwBlocks bs
    let n := b.foldl (· + ·) 0
    bs.length == 4096 + 32 * n + 4096 * n && decide (b.getD 0 0 ≤ 256) && decide (b.getD 1 0 ≤ 64) && decide (b.getD 2 0 ≤ 4096)
  | _ => true

/-- The index of each function's last valid preset entry, and how many entries are ignored (R487, R488). -/
def presetCount : Nat → Nat
  | 1 => 3 | 2 => 4 | 3 => 2 | 4 => 2 | 5 => 3 | 6 => 3 | 7 => 3 | 8 => 3 | 9 => 4 | 10 => 3 | 11 => 3 | 12 => 4 | 13 => 3
  | 14 => 4 | 15 => 4 | 16 => 3 | 17 => 3 | 18 => 3 | _ => 0

def presetEntries (ss : List Sec) : List (Nat × Nat) :=
  (ss.filter (fun s => s.1 == 1)).flatMap (fun s => (entries 4 s.2.2).map (fun e => (atBytes e 0 2, atBytes e 2 1)))

def presetOf (ss : List Sec) (code : Nat) : Nat :=
  (((presetEntries ss).filter (fun e => e.1 == code && decide (e.2 < presetCount code))).getLast?.map (·.2)).getD 0

def presetsIgnored (ss : List Sec) : Nat := ((presetEntries ss).filter (fun e => !decide (e.2 < presetCount e.1))).length

def onceOnly (t : Nat) : Bool := [3, 4, 5, 6, 7, 10].contains t

/-- The checks of stage 1 on a copy, in order; 0 where all hold (R486). -/
def copyCode (fs : Fuses) (bs : List Byte) (fail : Bool) : Nat :=
  if atBytes bs 0 4 != 0x494B4655 || atBytes bs 4 2 != 1 then 1
  else match imageSecs bs with
    | none => 2
    | some ss =>
      let len := imageLen bs
      let key := (bs.drop 0x40).take 1793
      if fail then 9
      else if (match fs.owner with
        | some dg => Config.digest 0 key != dg
        | none => false) then 3
      else if !Config.falconVerify key (bs.take (len - 1280)) ((bs.take len).drop (len - 1280)) then 4
      else if atBytes bs 0x10 8 != 0 && atBytes bs 0x10 8 != fs.serial.toNat then 5
      else if !ss.all sectionOk || (presetOf ss 4 == 1 && !ss.any (fun s => s.1 == 3)) then 6
      else if (List.range 11).any (fun t => onceOnly t && decide (2 ≤ (ss.filter (fun s => s.1 == t)).length)) then 7
      else if ss.any (fun s => (s.1 == 0 || decide (10 < s.1)) && s.2.1) then 8
      else 0

/-- Stage 1 (R486, R548). -/
def Dev.stage1 (d : Dev) (fs : Fuses) (fl : Flash) (readFail : BitVec 2) : Dev :=
  if !d.atStage 0 then d
  else
    let d := d.enterStage 1
    let cA := if d.pin.flashSel then 9 else copyCode fs fl.copyA (readFail.getLsbD 0)
    let cB := if d.pin.flashSel then 9 else copyCode fs fl.copyB (readFail.getLsbD 1)
    let bFirst := decide (atBytes fl.copyA 0xC 4 < atBytes fl.copyB 0xC 4) && !d.pin.flashSel
    let pick (c : Nat) (bs : List Byte) (d : Dev) (w9 : Word) : Dev :=
      let bs := bs.take (imageLen bs)
      let unknown := ((imageSecs bs).getD []).filter (fun s => s.1 == 0 || decide (10 < s.1))
      let d := { d with bup := { d.bup with copy := c, image := bs, ignored := unknown.length } }
      (d.setRecord 8 (wordAt bs 0xC)).setRecord 9 w9
    if bFirst then
      if cB == 0 then pick 2 fl.copyB d (pack [(0xFF, 0), (0, 8)])
      else if cA == 0 then pick 1 fl.copyA d (pack [(0, 0), (cB, 8)])
      else (d.setRecord 9 (pack [(cA, 0), (cB, 8)])).bupStop 3 0
    else
      if cA == 0 then pick 1 fl.copyA d (pack [(0, 0), (0xFF, 8)])
      else if cB == 0 then
        (pick 2 fl.copyB d (pack [(cA, 0), (0, 8)])).raise 0 { cls := 0, kind := 0, code := 0x0002 }
      else (d.setRecord 9 (pack [(cA, 0), (cB, 8)])).bupStop 3 0

/-! ### Presets (R35, R75, R97, R131, R174, R222, R249, R286, R310, R350, R396, R421, R452, R479, R504, R530) -/

/-- A field of n words of an array, set under a mask. -/
def Dev.setAll (d : Dev) (base n mask v : Nat) : Dev :=
  (List.range n).foldl (fun d i => d.setMasked (base + 4 * i) mask v) d

/-- The value at an index of a preset column. -/
def col (l : List Nat) (i : Nat) : Nat := l.getD i 0

/-- The window sets and bindings of WINDOWS_HOST_FULL (03 R97). -/
def hostFull : SecWin :=
  { win := [(0, 0xF0000000#32), (1, 0x4FFFFFFF#32), (4, 0x30000000#32), (5, 0x500FFFFF#32),
            (64, 0x70000000#32), (65, 0x4FFFFFFF#32)],
    installed := [0, 1], bind := [(0, 0), (1, 1), (2, 1), (3, 1), (4, 1), (5, 1)] }

def Dev.preset (d : Dev) (code i : Nat) : Dev :=
  match code with
  | 1 => d.setMasked 0x08000010 3 (col [0, 1, 2] i)
  | 2 => (d.setMasked 0x01000000 0x01FFFF03
      (col [0, 1, 0, 1] i + 2 * col [1, 1, 1, 0] i + 256 * col [1000, 1000, 4000, 1000] i)).setMasked 0x01000008 0xFF (col [8, 8, 4, 8] i)
  | 3 => d.setMasked 0x07000000 1 (col [0, 1] i)
  | 4 => if i == 0 then { d with win := hostFull } else d
  | 5 => d.setAll 0x02000000 256 0xF (col [0, 5, 4] i)
  | 6 => d.setAll 0x03000C00 256 7 (col [2, 0, 5] i)
  | 7 => d.setAll 0x04000000 256 3 (col [1, 3, 0] i)
  | 8 =>
    let d := d.setAll 0x05000000 256 1 (col [0, 1, 1] i)
    let d := d.setAll 0x05000400 256 0x1FFF0FFF (col [0, 1024, 1024] i + 65536 * 3072)
    let d := d.setAll 0x05000800 256 0xFFF (col [3072, 3072, 2048] i)
    d.setAll 0x05000C00 256 0x1FFF0FFF (col [0, 0, 3072] i + 65536 * col [0, 0, 1024] i)
  | 9 => (d.setMasked 0x07000004 7 (col [0, 1, 0, 0] i + 2 * col [0, 0, 1, 0] i + 4)).setMasked 0x06000400 0x1F
      (3 + 16 * col [1, 1, 1, 0] i)
  | 10 => d.setMasked 0x08000000 3 (col [0, 1, 2] i)
  | 11 => d.setMasked 0x09000000 0xF (col [2, 0, 2] i + 8 * col [1, 1, 0] i)
  | 12 => d.setMasked lnkCtrl 0xFF07FFFF (col [200, 200, 2000, 200] i + 65536 * col [1, 1, 1, 0] i + 131072 * col [0, 2, 0, 0] i +
      4 * 2 ^ 24)
  | 13 => d.setMasked 0x0B000704 3 (col [3, 1, 0] i)
  | 14 =>
    let d := d.setMasked pwrCtrl 0x1F8000FF (20 + 2 ^ 23 * col [0, 1, 0, 0] i + 2 ^ 24 * col [1, 1, 1, 0] i + 2 ^ 25 * col [4, 4, 1, 4] i)
    (List.range 56).foldl (fun d k => d.setMasked (0x0C000100 + 4 * k) 3 (if k % 14 < 8 then col [0, 1, 1, 0] i else 0)) d
  | 15 => (d.setMasked 0x0D000000 0x1F (col [0, 16, 5, 0] i)).setMasked 0x0D000700 1 (col [1, 1, 1, 0] i)
  | 16 => d.setMasked 0x00000004 6 (col [0, 2, 4] i)
  | 17 => d.setMasked 0x0E000000 0xF (col [2, 0, 10] i)
  | 18 => (d.setMasked 0x0F000000 0x3F (col [3, 1, 3] i + 4 * col [8, 8, 2] i)).setAll 0x0F000010 8 0xFFFFFFFF
      (col [0xFFFFFFFF, 0, 0xFFFFFFFF] i)
  | _ => d

/-! ### Sections applied in stage 2 (R487, R489) -/

def secBytes (ss : List Sec) (t : Nat) : Option (List Byte) := (ss.find? (fun s => s.1 == t)).map (·.2.2)

def Dev.applyWindow (d : Dev) (bs : List Byte) : Dev :=
  let rs := winRecords bs
  let w : SecWin := {}
  let w := rs.foldl (fun (w : SecWin) r =>
    { w with win := ((List.range 64).zip r.2.2).foldl (fun m e => if e.2 == 0#32 then m.drop (r.1 * 64 + e.1) else m.put (r.1 * 64 + e.1) e.2) w.win,
             installed := if r.2.1 then (w.installed ++ [r.1]).eraseDups else w.installed.filter (fun s => s != r.1) }) w
  { d with win := { w with bind := (List.range 6).zip (winBinds bs) } }

def Dev.applyTrust (d : Dev) (bs : List Byte) : Dev :=
  { d with sec := { d.sec with trust := (entries 1800 bs).foldl (fun m e =>
      let w := wordAt e 0
      m.put (bf w 3 0) (bf w 13 8, w.getLsbD 16, (e.drop 4).take 1793)) [] } }

def Dev.applyLink (d : Dev) (o : Option (List Byte)) : Dev := match o with
  | none => (List.range 6).foldl (fun d p => d.setMasked (portReg p 0) 1 1) d
  | some bs =>
    let d := ((List.range 4096).zip (bs.take 4096)).foldl (fun d e =>
      if e.2 == 0#8 then d else d.setMasked (0x0A010000 + 4 * e.1) 7 e.2.toNat) d
    let d := (List.range 6).foldl (fun d p => d.setMasked (portReg p 0) 1 (bitsAt (atBytes bs 4096 1) p 1)) d
    (entries 12 (bs.drop 4104)).foldl (fun d e =>
      let w := wordAt e 0
      let p := bf w 2 0
      let d := { d with bup := { d.bup with savedEq := d.bup.savedEq.put (8 * p + bf w 5 3) (bf w 22 8, wordAt e 4) } }
      d.setReg (eqReg p (bf w 5 3)) (wordAt e 4)) d

def Dev.applyPower (d : Dev) (o : Option (List Byte)) : Dev := match o with
  | none =>
    let d := d.setMasked pwrCtrl 0x7FFF00 (55 * 256 + 50 * 65536)
    let d := d.setAll 0x0C000400 32 0x3F 63
    let d := (List.range 56).foldl (fun d k => d.setReg (gainReg k) 0x4000#32) d
    { d with pwr := { d.pwr with cap := 1600 } }
  | some bs =>
    let d := d.setMasked pwrCtrl 0x7FFF00 (atBytes bs 2 1 * 256 + min 127 (atBytes bs 3 1) * 65536)
    let d := (List.range 32).foldl (fun d h => d.setMasked (0x0C000400 + 4 * h) 0x3F (atBytes bs (4 + h) 1)) d
    let d := (List.range 56).foldl (fun d k => d.setReg (gainReg k) (BitVec.ofNat 32 (atBytes bs (36 + 2 * k) 2))) d
    let d := (List.range 3584).foldl (fun d k => d.setMasked (0x0C010000 + 0x1000 * (k / 896) + 4 * (k % 896)) 0xFFFF
      (atBytes bs (148 + 2 * k) 2)) d
    { d with pwr := { d.pwr with cap := atBytes bs 0 2 } }

/-- The bases that REGISTER entries set: 0 and 1 the slots', 2 the journal's, 3 the error log's (R489). -/
def baseOf (a : Nat) : Option Nat :=
  if a == 0x01000010 || a == 0x01000014 then some 0
  else if a == 0x01000018 || a == 0x0100001C then some 1
  else if a == 0x01000020 || a == 0x01000024 then some 2
  else if a == 0x0E000010 || a == 0x0E000014 then some 3 else none

/-- One REGISTER entry (R489). -/
def Dev.applyEntry (d : Dev) (e : List Byte) : Dev :=
  let a := atBytes e 0 4
  let rm := regMasks a
  if a % 4 != 0 || (rm.1 ||| rm.2) == 0 then { d with bup := { d.bup with ignored := d.bup.ignored + 1 } }
  else
    let d := match baseOf a with
      | some b => { d with bup := { d.bup with basesSet := b :: d.bup.basesSet } }
      | none => d
    d.writeReg none a (atBytes e 4 4) (atBytes e 8 4)

/-- Values that presets, sections and REGISTER entries give (R489). -/
def Dev.applyImage (d : Dev) (fs : Fuses) (ss : List Sec) : Dev :=
  let d := (List.range 18).foldl (fun d c => d.preset (c + 1) (presetOf ss (c + 1))) d
  let d := { d with bup := { d.bup with ignored := d.bup.ignored + presetsIgnored ss } }
  let d := if presetOf ss 4 == 1 then d.applyWindow ((secBytes ss 3).getD []) else d
  let d := d.applyTrust ((secBytes ss 4).getD [])
  let d := (d.applyLink (secBytes ss 5)).applyPower (secBytes ss 6)
  let d := d.setMasked 0x0D00000C 0xFFFF (match secBytes ss 7 with
    | some bs => atBytes bs 0 2
    | none => 500)
  let d := { d with bup := { d.bup with thermal := ((secBytes ss 7).getD []).drop 4 } }
  let d := { d with bup := { d.bup with
      retireImage := (ss.filter (fun s => s.1 == 9)).flatMap (fun s => (entries 4 s.2.2).map (fun e => (bf (wordAt e 0) 1 0, bf (wordAt e 0) 15 2)))
      rtmapImage := (ss.filter (fun s => s.1 == 8)).flatMap (fun s => (entries 4 s.2.2).map (fun e => wordAt e 0)) } }
  let d := (List.range 256).foldl (fun d f => d.modFrond f (fun x => { x with fmax := fs.fmax.get f 0 })) d
  ((ss.filter (fun s => s.1 == 2)).flatMap (fun s => entries 12 s.2.2)).foldl (fun d e => d.applyEntry e) d

/-! ### Update images (12 R410) -/

def fwSlot (m : List Byte) : Nat := bitsAt (atBytes m 6 1) 0 2
def fwKey (m : List Byte) : List Byte := (m.drop 48).take 1793
def fwVersion (m : List Byte) (c : Nat) : Nat := atBytes m (8 + 2 * c) 2

/-- A signature of a vendor slot is accepted: programmed, not revoked, and the key digests to the slot (12 R399); 0 accepted,
11 BAD_SIGNATURE, 12 REVOKED. -/
def vendorCode (fs : Fuses) (slot : Nat) (key msg sig : List Byte) : Nat :=
  match fs.vendor.find slot with
  | none => 12
  | some dg =>
    if fs.revoked.getLsbD slot then 12
    else if Config.digest 0 key != dg || !Config.falconVerify key msg sig then 11 else 0

def digestBytes (dg : BitVec 256) : List Byte := leBytes 32 dg.toNat

/-- The digest of the fuse map (12 R409), over a writing-out of its regions but the seed that is this model's (log 46). -/
def Fuses.digest (fs : Fuses) : BitVec 256 :=
  let w (n : Nat) : List Byte := leBytes 4 n
  Config.digest 2 (leBytes 8 fs.serial.toNat ++ fs.vendor.flatMap (fun e => w e.1 ++ digestBytes e.2) ++ w fs.revoked.toNat ++
    ((fs.owner.map digestBytes).getD []) ++ fs.minVer.flatMap w ++ (fs.bad ++ fs.retired ++ fs.lanes ++ fs.ccLanes).flatMap (fun e => w e.1 ++ w e.2) ++
    (fs.fmax ++ fs.vf).flatMap (fun e => w e.1 ++ w e.2) ++ fs.spares.flatMap (fun e => w e.1 ++ e.2.flatMap w))

/-- The hash list and the blocks of a class digest as the manifest says: the first class that does not, if any. -/
def fwClassBad (bs : List Byte) : Option Nat :=
  let b := fwBlocks bs
  let n := b.foldl (· + ·) 0
  let hashes := (bs.drop 4096).take (32 * n)
  let cls (i : Nat) : Nat := if i < b.getD 0 0 then 0 else if i < b.getD 0 0 + b.getD 1 0 then 1 else 2
  if digestBytes (Config.digest 0 hashes) != (bs.drop 16).take 32 then some 0
  else ((List.range n).find? (fun i =>
    digestBytes (Config.digest 0 ((bs.drop (4096 + 32 * n + 4096 * i)).take 4096)) != (hashes.drop (32 * i)).take 32)).map cls

/-- The blocks of a class in an update image. -/
def fwClassImage (bs : List Byte) (c : Nat) : List Byte :=
  let b := fwBlocks bs
  let n := b.foldl (· + ·) 0
  let first := (b.take c).foldl (· + ·) 0
  (bs.drop (4096 + 32 * n + 4096 * first)).take (4096 * b.getD c 0)

/-- The firmware check of stage 2 (R481): the class that fails it. -/
def fwCheck (fs : Fuses) (o : Option (List Byte)) : Option Nat := match o with
  | none => some 0
  | some bs =>
    match [0, 1, 2].find? (fun c => (fwBlocks bs).getD c 0 == 0) with
    | some c => some c
    | none =>
      if vendorCode fs (fwSlot bs) (fwKey bs) (bs.take 1844) ((bs.drop 1844).take 1280) != 0 then some 0
      else match fwClassBad bs with
        | some c => some c
        | none => [0, 1, 2].find? (fun c => decide (fwVersion bs c < fs.minVer.getD c 0))

/-- Stage 2 (R480, R481, R489, R490): per region, 0 its first copy holds, 1 its second, 2 neither. -/
def Dev.stage2 (d : Dev) (fs : Fuses) (selfTest : BitVec 4) (copies : List (Fin 3)) : Dev :=
  if !d.atStage 1 then d
  else
    let d := d.enterStage 2
    let bad (r : Nat) : Nat := max ((copies.getD r 0).val) (((fs.badCopy.find? (fun e => e.1 == r)).map (·.2)).getD 0)
    match (List.range 8).find? (fun r => 2 ≤ bad r) with
    | some r => d.bupStop 4 r
    | none =>
      let d := ((List.range 8).filter (fun r => bad r == 1)).foldl (fun d r =>
        ({ d with bup := { d.bup with fuseSecond := d.bup.fuseSecond + 1 } }).raise 0 { cls := 0, kind := 0, src := r, code := 0x0003 }) d
      let d := [1, 2, 3].foldl (fun d s => if selfTest.getLsbD s then d else d.stackLeft s) d
      if !selfTest.getLsbD 0 then d.bupStop 5 0
      else
        let ss := (imageSecs d.bup.image).getD []
        let fw := secBytes ss 10
        match fwCheck fs fw with
        | some c => d.bupStop 6 c
        | none =>
          let bs := fw.getD []
          let d := { d with sec := { d.sec with keyReady := true, fuseDigest := fs.digest, images := [0, 1, 2].map (fun c => (c, fwClassImage bs c))
                                                versions := [0, 1, 2].map (fwVersion bs) } }
          d.applyImage fs ss

/-! ### Stage 3 (R493) -/

/-- Outcomes of R273 apply at once before any frame runs; a retired rhizoid is logged with its reason. -/
def Dev.rhzNow (d : Dev) (reason f : Nat) : Dev :=
  let r := d.rhiz f
  let d := if r.pend == 0 && !r.out then d
    else d.setRhz f { r with pend := 0, out := false, mode := if r.pend == 0 then r.mode else r.pend }
  let d := if r.pend == 2 then d.retireLog 3 f reason else d
  if r.out then (d.retireLog 0 f 4).willRetire f else d

def Dev.testLanes (d : Dev) (fs : Fuses) (env : MemTestEnv) : Dev :=
  let d := fs.lanes.foldl (fun d e => d.laneFail e.1 false e.2) d
  let d := fs.ccLanes.foldl (fun d e => d.laneFail e.1 true e.2) d
  let d := (List.range 256).foldl (fun d f => d.rhzNow 0 f) d
  let d := env.failedLanes.foldl (fun d e => d.laneFail e.1 false e.2) d
  let d := env.failedChannelLanes.foldl (fun d e => d.laneFail e.1 true e.2) d
  let d := env.failedGroups.foldl (fun d e => d.groupFail e.1 e.2) d
  (List.range 256).foldl (fun d f => d.rhzNow 1 f) d

/-- The image's runtime-map entry (R493 step 5): applied, moved or ignored. -/
def Dev.imageEntry (d : Dev) (w : Word) : Dev :=
  let b := bf w 12 0
  let r := bf w 26 13
  let k := bf w 30 27
  let bk := d.bank b
  let skip := { d with bup := { d.bup with ignored := d.bup.ignored + 1 } }
  if !w.getLsbD 31 || bk.fused.contains r || (bk.slotOf r).isSome || (bk.slots.find k).isSome ||
      (d.frond (b / 32)).pendRetire || d.bup.downStacks.contains (d.stk (b / 32)) then skip
  else
    let put (d : Dev) (k : Nat) : Dev :=
      let d := d.setBank b { bk with slots := bk.slots.put k r }
      { d with bup := { d.bup with applied := d.bup.applied + 1 } }
    if !bk.badSlots.contains k then put d k
    else match bk.freeSlot with
      | some k' =>
        let d := put d k'
        { d with mem := { d.mem with rtlog := d.mem.rtlog.put (d.mem.rthead % 256) (rtEntry b r k'), rthead := d.mem.rthead + 1 } }
      | none => skip

/-- A row bad by test takes a runtime spare (R491). -/
def Dev.testRow (d : Dev) (b r : Nat) : Dev :=
  match (d.bank b).freeSlot with
  | some k =>
    let bk := d.bank b
    let d := match bk.slotOf r with
      | some old => d.setBank b { bk with slots := bk.slots.drop old, badSlots := old :: bk.badSlots }
      | none => d
    let d := d.mapRow b r k
    { d with bup := { d.bup with remapped := d.bup.remapped + 1 } }
  | none => d

/-- Stage 3. -/
def Dev.stage3 (d : Dev) (fs : Fuses) (env : MemTestEnv) : Dev :=
  if !d.atStage 2 then d
  else
    let d := d.enterStage 3
    let up (s : Nat) : Bool := !d.bup.downStacks.contains s
    let d := (List.range 56).foldl (fun d i => if up (i / 14) && 8 ≤ i % 14 && i % 14 < 12 then d.modDom i (fun x => { x with st := 4 }) else d) d
    let d := d.testLanes fs env
    let d := env.badSpares.foldl (fun d e => d.setBank e.1 { d.bank e.1 with badSlots := (e.2 :: (d.bank e.1).badSlots).eraseDups }) d
    let d := fs.spares.foldl (fun d e => d.setBank e.1 { d.bank e.1 with fused := e.2 }) d
    -- banks bad by fuse retire their frond (R492)
    let d := (List.range 8192).foldl (fun d b => match d.fuseBad fs 2 b with
      | (true, img) => if (d.frond (b / 32)).pendRetire then d else (d.retireLog 0 (b / 32) (if img then 3 else 0)).willRetire (b / 32)
      | _ => d) d
    let d := d.bup.rtmapImage.foldl (fun d w => d.imageEntry w) d
    let rows := (env.failedRows ++ env.badFused).eraseDups
    let banks := (rows.map (·.1)).eraseDups
    let d := banks.foldl (fun d b =>
      let mine := rows.filter (fun e => e.1 == b)
      let free := ((List.range 16).filter (fun k => ((d.bank b).slots.find k).isNone && !(d.bank b).badSlots.contains k)).length
      if free < mine.length then
        if (d.frond (b / 32)).pendRetire then d
        else ((d.retireLog 0 (b / 32) 1).willRetire (b / 32)).raise (d.stk (b / 32)) { cls := 2, kind := 1, src := b / 32, code := 0x0004 }
      else mine.foldl (fun d e => d.testRow b e.2) d) d
    let fill := (d.reg 0x07000004).getLsbD 0
    let d := (List.range 32).foldl (fun d i => if up (i / 8) then (d.wipeLayer i).marchLayer i fill else d) d
    d.setRecord 12 (pack [(min 65535 d.bup.remapped, 0), (min 65535 d.bup.applied, 16)])

/-! ### Stages 4-7 (R480, R482, R494) -/

/-- Stage 4: enabled ports of the stacks that are up train; the others are disabled (11 R366). -/
def Dev.stage4 (d : Dev) (t : Nat) : Dev :=
  let d := { d with now := max d.now t }
  if !d.atStage 3 then d
  else
    let d := d.enterStage 4
    (List.range 6).foldl (fun d p =>
      if d.portEn p && !d.bup.downStacks.contains (portStack p) then d.modPort p (fun x => { x with st := 1, stAt := d.now }) else d) d

/-- Stage 5 begins when no port is in its first training any more, or that training's limit has passed (R480). -/
def Dev.stage5 (d : Dev) (t : Nat) : Dev :=
  let d := { d with now := max d.now t }
  if !d.atStage 4 || ((List.range 6).any (fun p => (d.port p).st == 1) && t < d.bup.stageAt + 2089300000) then d
  else d.enterStage 5

/-- A wave of stage 6: local half-layer w / 4 of stack w mod 4. The first one begins the stage when no port is in QUALIFY. -/
def Dev.wave (d : Dev) (fs : Fuses) (w : Nat) (bad : List BadUnit) (fault : Bool) : Dev :=
  let d := if d.atStage 5 && !(List.range 6).any (fun p => (d.port p).st == 2 && !(d.port p).ready) then d.enterStage 6 else d
  let s := w % 4
  let h := 8 * s + w / 4
  let i := halfDom h
  if !d.atStage 6 || d.bup.downStacks.contains s || (d.dom i).st == 4 || (d.dom i).st == 5 then d
  else if fault then
    let d := d.modDom i (fun x => { x with st := 5, faultAt := some d.now })
    let d := (d.raise s { cls := 2, kind := 10, src := i, code := 0x0C05 }).inc (cDom i 12)
    ((List.range 8).map (8 * h + ·)).foldl (fun d f =>
      (d.retireLog 0 f 5).modFrond f (fun x => { x with up := true, retired := true, pendRetire := false })) d
  else
    let req := bf (d.reg (0x0C000100 + 4 * i)) 1 0
    let d := (d.modDom i (fun x => { x with st := 4, req := if req == 3 then 1 else req })).inc (cDom i 9)
    let isBad (kind index : Nat) : Bool := bad.any (fun b => b.kind.val == kind && b.index == index)
    ((List.range 8).map (8 * h + ·)).foldl (fun d f =>
      let (d, out) := d.verdict fs 0 f f (isBad 0 f)
      let d := d.modFrond f (fun x => { x with up := true, retired := out || x.pendRetire, pendRetire := false })
      (gemmasOf f).foldl (fun d g =>
        let (d, out) := d.verdict fs 1 g g (isBad 1 g)
        d.modGemma g (fun x => { x with up := true, retired := out })) d) d

/-- The bases that no REGISTER entry set: in the first 3 MiB of the lowest partition in service (R489). -/
def Dev.setBases (d : Dev) : Dev :=
  match (List.range 256).find? (fun f => !d.isRetired f) with
  | none => d
  | some p =>
    let put (d : Dev) (k lo v : Nat) : Dev :=
      if d.bup.basesSet.contains k then d else (d.setReg lo (BitVec.ofNat 32 v)).setReg (lo + 4) (BitVec.ofNat 32 p)
    put (put (put (put d 0 0x01000010 0) 1 0x01000018 0x100000) 2 0x01000020 0x200000) 3 0x0E000010 0x280000

/-- The counts that stage 6 leaves in the bring-up record (R500). -/
def Dev.bootCounts (d : Dev) : Dev :=
  let nf (st : Nat) : Nat := ((List.range 256).filter (fun f => d.frondState f == st)).length
  let gs := List.range 2048
  let d := d.setRecord 10 (pack [(nf 1, 0), (nf 2, 9), (nf 3, 18)])
  d.setRecord 11 (pack [((gs.filter d.gemReady).length, 0), ((gs.filter (fun g => bf (d.gemState g) 2 0 == 3)).length, 12)])

/-- Entry to stage 7 (R482). -/
def Dev.stage7 (d : Dev) (t : Nat) : Dev :=
  let d := { d with now := max d.now t }
  if !d.atStage 6 || (List.range 32).any (fun h => !d.bup.downStacks.contains (h / 8) && (d.dom (halfDom h)).st != 4 && (d.dom (halfDom h)).st != 5)
  then d
  else
    let d := (List.range 256).foldl (fun d f =>
      if d.bup.downStacks.contains (f / 64) then (d.retireLog 0 f 6).modFrond f (fun x => { x with retired := true }) else d) d
    let d := d.enterStage 7
    let d := { d with bup := { d.bup with state := 1, upStacks := (List.range 4).filter (fun s => !d.bup.downStacks.contains s) } }
    let d := d.setBases
    let d := (List.range 256).foldl (fun d f => d.modFrond f (fun x => { x with seed := d.reg (0x02000400 + 4 * f), seedPend := false })) d
    let d := { d with inForce := d.regs, lastTick := d.now, frm := { d.frm with entry7 := d.now } }
    let d := (d.zeroHeader 0).zeroHeader 1
    let d := (List.range 6).foldl (fun d p => if (d.port p).ready && (d.port p).st == 2 then d.portEnter p else d) d
    let d := d.bootCounts
    let d := if (d.reg 4).getLsbD 1 then { d with bup := { d.bup with lock := true } } else d
    d.logWaiting

end Sys2Proof.Machine
end

