-- ==== Sys2Proof/Machine/Link.lean ====
section
/-! DEFINITION. Transactions over the link ports: requests that arrive, the window of sequence numbers, forwarding, control
accesses, and the requests that this module's own masters send (11 R373-R385, 03 R79, R82, R84, R91). -/

namespace Sys2Proof.Machine

/-! ### Status of several parts (03 R84) -/

def statusOrder : List Nat := [6, 5, 4, 7, 8, 10, 11, 12, 9, 1, 3, 2, 0]

/-- The status of two that stands first in R84's order. -/
def worseStatus (a b : Nat) : Nat := (statusOrder.find? (fun s => s == a || s == b)).getD a

/-! ### Arrival (R378, R379) -/

/-- A request is malformed (R374). -/
def malformed (r : ReqHdr) : Bool :=
  let k := r.pkt.toNat
  let a := r.addr.toNat
  let n := r.len.toNat
  let el : Nat := if r.afmt == 1#2 then 2 else 4
  !(decide (1 ≤ k) && decide (k ≤ 4)) || r.space == 3#2 || n == 0 || decide (4096 < n) ||
  (k == 1 && decide (64 < (a % 64 + n + 63) / 64)) ||
  (k == 3 && (r.aop == 3#2 || r.afmt == 3#2 || r.space == 2#2 || a % el != 0 || n % el != 0)) ||
  (r.space == 2#2 && decide (2 ^ 32 ≤ a)) || (k == 4 && r.space != 0#2)

/-- The signed difference of two sequence numbers modulo 2^48 (R378). -/
def rsnDiff (a b : Nat) : Int :=
  let m : Nat := (a + 2 ^ 48 - b % 2 ^ 48) % 2 ^ 48
  if m < 2 ^ 47 then (m : Int) else (m : Int) - 2 ^ 48

/-- What an arriving sequence number means (R379). -/
inductive Arrival where
  | fresh
  | done (e : WinE)
  | drop
  | stale

/-- A packet that the flit layer extracted is performed by its own row; it leaves the list of packets received. -/
def Dev.takePacket (d : Dev) (p : Nat) (bs : List Byte) : Dev :=
  let x := d.port p
  match x.packets.findIdx? (fun y => y.bytes == bs) with
  | some i => d.setPort p { x with packets := dropIdx x.packets i }
  | none => d

/-- The flits that brought a packet received whole. -/
def Dev.packetFlits (d : Dev) (p : Nat) (bs : List Byte) : List Nat :=
  (((d.port p).packets.find? (fun y => y.bytes == bs)).map (·.flits)).getD []

/-- A packet reaches the transaction layer of a port: the port carries flits, or it did when it received the packet. -/
def Dev.carries (d : Dev) (p : Nat) (bs : List Byte) : Bool := (d.port p).st == 3 || (d.port p).packets.any (fun y => y.bytes == bs)

/-- The sequence number of a request is looked up, counted and, where it is new, entered in the window. -/
def Dev.arrive (d : Dev) (p : Nat) (r : ReqHdr) : Dev × Arrival :=
  let d := if 1 ≤ r.pkt.toNat && r.pkt.toNat ≤ 4 then d.inc (cPort p (21 + r.pkt.toNat)) else d
  let x := d.port p
  let n := r.rsn.toNat
  let entry : WinE := { rsn := n, hdr := { r with data := [] } }
  let df := match x.high with
    | none => 1
    | some h => rsnDiff n h
  if 0 < df then
    let keep := x.win.filter (fun e => decide (-4096 < rsnDiff e.rsn n))
    (d.setPort p { x with high := some n, win := keep ++ [entry] }, .fresh)
  else if df ≤ -4096 then (d.inc (cPort p 30), .stale)
  else match x.win.find? (fun e => e.rsn == n) with
    | none => (d.setPort p { x with win := x.win ++ [entry] }, .fresh)
    | some e => if e.done then (d.inc (cPort p 28), .done e) else (d.inc (cPort p 29), .drop)

/-- A completion that answers a duplicate carries its TAG and DUP (R375, R379). -/
def dupCpl (r : ReqHdr) (st seals result : Nat) (data : List Byte) (pm : BitVec 64) : CplHdr :=
  { status := BitVec.ofNat 4 st, sealRes := BitVec.ofNat 3 seals, dup := true, rsn := r.rsn, tag := r.tag
    result := BitVec.ofNat 16 result, pmask := pm, data := if 4 ≤ st then [] else data }

def staleCpl (r : ReqHdr) : CplHdr := { dupCpl r 11 0 0 [] 0#64 with dup := false }

/-! ### Memory requests (R376) -/

/-- The mask of the bytes of piece i that a request of n bytes at a touches. -/
def pieceMask (a n i : Nat) : BitVec 64 :=
  let b := a / 64 * 64 + 64 * i
  byteMask (max a b - b) (min (a + n) (b + 64) - max a b)

/-- The bytes of a request that lie in piece i, at their places. -/
def pieceBytes (a i : Nat) (bs : List Byte) : Gran :=
  let b := a / 64 * 64 + 64 * i
  if i == 0 then gOfBytes (List.replicate (a % 64) 0#8 ++ bs.take (64 - a % 64))
  else gOfBytes ((bs.drop (b - a)).take 64)

/-- Pieces that the window check refuses: from the first refused line of each part on (03 R79, R89). The parts of an
interleaved request are its pages. DESIGN CHOICE (log 67): the lines of a port's request before its first refused line are
performed, as R89 says of a stream access. -/
def Dev.refusedPieces (d : Dev) (x : Xfer) : List Nat × List Nat :=
  let is := List.range x.n
  let part (i : Nat) : Nat := if x.host.isSome then (x.base + 64 * i) / 4096 else 0
  let bad (i : Nat) : Bool := !d.allowedAt x.wset x.kind.acc (x.addr i)
  let firsts := is.filter (fun i => bad i && !(List.range i).any (fun j => part j == part i && bad j))
  (firsts, is.filter (fun i => firsts.any (fun j => part j == part i && decide (j ≤ i))))

/-- Pieces of a port's request that are not to be performed are passed over. -/
def Xfer.skip : Nat → Xfer → Xfer
  | 0, x => x
  | n + 1, x => if x.next < x.limit && x.masks.find x.next == some 0#64 then Xfer.skip n { x with next := x.next + 1 } else x

def Dev.portSkip (d : Dev) : Dev :=
  if d.xfers.all (fun x => x.mid < 0x910) then d
  else { d with xfers := d.xfers.map (fun x => if 0x910 ≤ x.mid then Xfer.skip x.n x else x) }

/-- The bytes of a READ from its pieces. -/
def readBytes (x : Xfer) (a n : Nat) : List Byte :=
  (((List.range x.n).flatMap (fun i => gBytes (x.data.get i 0#512))).drop (a % 64)).take n

/-- A port's request has completed in every piece: the seal check of a READ, and the completion (R376, 10 R341). -/
def Dev.portDone (d : Dev) (x : Xfer) : Dev :=
  let p := x.mid - 0x910
  let d := d.endXfer x.id
  match (d.port p).win.find? (fun e => e.rsn == x.ip) with
  | none => d
  | some e =>
    let a := e.hdr.addr.toNat
    let n := e.hdr.len.toNat
    let rd := x.kind == .portRead
    let bs := if rd then readBytes x a n else []
    let pm := (List.range x.n).foldl (fun (m : BitVec 64) i => if x.pois.contains i then m ||| BitVec.ofNat 64 (2 ^ i) else m) 0#64
    let pages := ((List.range x.n).map (fun i => x.addr i / 4096)).eraseDups
    let (d, seals) :=
      if !rd || notPerformed x.worst then (d, 0)
      else pages.foldl (fun (s : Dev × Nat) g =>
        -- where the page begins in the request
        let i := ((List.range x.n).find? (fun i => x.addr i / 4096 == g)).getD 0
        let whole := x.addr i % 4096 == 0 && (i != 0 || a % 64 == 0) && decide (a / 64 * 64 + 64 * i + 4096 ≤ a + n)
        let pb := if whole then (bs.drop (a / 64 * 64 + 64 * i - a)).take 4096 else []
        let (d, c) := s.1.sealCheck (g * 4096) x.worst pb (x.clear.contains g)
        (d, max s.2 c)) (d, 0)
    if x.flag == some 1 then
      let h : ReqHdr := { e.hdr with tag := BitVec.ofNat 32 x.loc }
      d.sendCpl p (dupCpl h x.worst seals 0 bs pm)
    else d.reply p x.ip x.worst seals 0 bs pm

/-- A request for device memory begins: an accepted piece is performed by the cache rows (R376). `dup`: the new read for a
duplicate, with no mark and no window check (R380). -/
def Dev.portMemory (d : Dev) (p : Nat) (r : ReqHdr) (dup : Bool) : Dev :=
  let a := r.addr.toNat
  let n := r.len.toNat
  let np := (a % 64 + n + 63) / 64
  let kind : XKind := if r.pkt == 1#4 then .portRead else if r.pkt == 2#4 then .portWrite else .portAtomic
  let x : Xfer := { id := d.nextX, mid := portMid p, kind := kind, base := a / 64 * 64, n := np, limit := np
                    masks := (List.range np).map (fun i => (i, pieceMask a n i))
                    data := if kind == .portRead then [] else (List.range np).map (fun i => (i, pieceBytes a i r.data))
                    lu := r.lu && !dup, aop := r.aop.toNat, afmt := r.afmt.toNat, flag := if dup then some 1 else none
                    ip := r.rsn.toNat, order := d.nextX, loc := r.tag.toNat, wset := d.portSet p
                    host := if r.space == 1#2 then some d.swizzle else none }
  let (firsts, ref) := if dup then ([], []) else d.refusedPieces x
  let x := { x with masks := x.masks.map (fun e => if ref.contains e.1 then (e.1, 0#64) else e), done := ref.length
                    worst := if ref.isEmpty then 0 else 5 }
  let d := firsts.foldl (fun d i => d.freeze x.mid kind.acc.code x.wset (x.addr i) r.rsn.toNat false) d
  let d := { d with nextX := d.nextX + 1 }
  if x.done == x.n then d.portDone x else { d with xfers := d.xfers ++ [Xfer.skip x.n x] }

/-- A completed piece of a port's request is gathered. -/
def Dev.portDeliver (d : Dev) (x : Xfer) (r : XGr) : Dev :=
  let y := { x with gr := x.gr.filter (fun g => g.i != r.i), done := x.done + 1, worst := worseStatus x.worst r.status
                    data := if x.kind == .portRead then x.data.put r.i r.data else x.data
                    pois := if r.status == 1 then r.i :: x.pois else x.pois }
  let d := d.modXfer x.id (fun _ => y)
  if y.done == y.n then d.portDone y else d

/-! ### Control requests (03 R82) -/

/-- A CONTROL request is checked in R84's order and performed; `dup`: read again, unchecked. -/
def Dev.portControl (d : Dev) (fs : Fuses) (p : Nat) (r : ReqHdr) (dup : Bool) : Dev :=
  let a := r.addr.toNat
  let n := r.len.toNat
  let set := d.portSet p
  let rd := r.pkt == 1#4
  let acc : AccK := if rd then .read else .write
  let lines := (List.range ((a % 256 + n + 255) / 256)).map (fun k => a / 256 * 256 + 256 * k)
  let fin (d : Dev) (st : Nat) (bs : List Byte) : Dev :=
    if dup then d.sendCpl p (dupCpl r st 0 0 bs 0#64) else d.reply p r.rsn.toNat st 0 0 bs 0#64
  match (if dup then none else lines.find? (fun l => !d.allowed set 1 acc (l / 4096))) with
  | some l => fin (d.freeze (portMid p) (if rd then 4 else 5) set l r.rsn.toNat false) 5 []
  | none =>
    if 0x11 ≤ blk a then fin d 4 []
    else if n != 4 || a % 4 != 0 then fin (d.inc (cMod 6)) 7 []
    else if rd then
      let (d, w) := d.ctlRead fs p a
      fin d 0 (leBytes 4 w.toNat)
    else if authOnly a then fin (d.inc (cMod 7)) 8 []
    else fin (d.writeReg (some p) a 0xFFFFFFFF (leNat (r.data.take 4))) 0 []

/-- A port's 4-B write of a control word without its packet, as the rows of single registers name it (log 18): checked as R84
orders it, frozen port and window first; a refused write freezes the port, with the RSN its next request would carry. -/
def Dev.portWrite (d : Dev) (p a : Nat) (v : Word) : Dev :=
  let set := d.portSet p
  if d.isFrozen (portMid p) then d
  else if !d.allowed set 1 .write (a / 4096) then
    d.freeze (portMid p) 5 set (a / 256 * 256) ((((d.port p).high.getD 0) + 1) % 2 ^ 48) false
  else if 0x11 ≤ blk a then d
  else if a % 4 != 0 then d.inc (cMod 6)
  else if authOnly a then d.inc (cMod 7)
  else d.writeReg (some p) a 0xFFFFFFFF v.toNat

/-! ### Forwarding (R384, R385) -/

/-- A request is queued on an egress port as this module's own: RSN, TAG, timer, replay queue. Its entry among the outstanding
ones, of which a port has 4,096, is the room that a READ's data needs (R365, R377). -/
def Dev.sendReq (d : Dev) (e : Nat) (h : ReqHdr) (o : OutReq) : Dev :=
  let (d, v) := d.draw
  let x := d.port e
  let h := { h with rsn := BitVec.ofNat 48 x.nextRsn, tag := v.setWidth 32 }
  let o := { o with rsn := x.nextRsn, queued := x.active d.now }
  let d := d.setPort e { x with nextRsn := (x.nextRsn + 1) % 2 ^ 48, outs := x.outs ++ [o], reqQ := x.reqQ ++ [reqBytes h] }
  (d.inc (cPort e (17 + h.pkt.toNat))).pumpPort e

def Dev.routeOf (d : Dev) (m : Nat) : Nat := bf (d.reg (0x0A010000 + 4 * m)) 2 0

/-- The way between two stacks meets a bridge that failed in this frame (16 R517). -/
def Dev.ringFails (d : Dev) (s t a : Nat) : Bool := s != t && (d.ring s t a).any (fun b => d.bridgeFail.contains b)

/-- A request for another module, whose window entry stands; `fl`: its flits, whose buffers it keeps while it waits for room
(R385). -/
def Dev.forward (d : Dev) (p : Nat) (r : ReqHdr) (fl : List Nat) : Dev :=
  let e := d.routeOf r.dst.toNat
  let n := r.rsn.toNat
  if e == 0 || 8 ≤ r.hops.toNat then (d.inc (cPort p 34)).reply p n 4 0 0 [] 0#64
  else if (d.port e).st != 3 && (d.port e).st != 4 then d.reply p n 10 0 0 [] 0#64
  else if d.ringFails (portStack p) (portStack e) r.addr.toNat then d.reply p n 12 0 0 [] 0#64
  else if 4096 ≤ (d.port e).outs.length then d.modPort p (fun x => { x with held := x.held ++ [(r, fl)] })
  else
    let o : OutReq := { rsn := 0, pkt := r.pkt.toNat, addr := r.addr.toNat, len := r.len.toNat, ing := some (p, n, r.tag)
                        queued := 0, limit := 2 * d.lnkTimeout * 10000 }
    ((d.modPort p (fun x => { x with win := x.win.map (fun w => if w.rsn == n then { w with fwd := true } else w) })).inc
      (cPort p 35)).sendReq e { r with hops := BitVec.ofNat 4 (r.hops.toNat + 1) } o

/-- Requests held for room on their egress port are tried again, in order. -/
def Dev.forwardHeld (d : Dev) : Dev :=
  (List.range 6).foldl (fun d p =>
    match (d.port p).held with
    | [] => d
    | l => l.foldl (fun d r => d.forward p r.1 r.2) (d.modPort p (fun x => { x with held := [] }))) d

/-! ### READ_REQUEST, WRITE_REQUEST, ATOMIC_REQUEST -/

/-- What a frozen port still performs of the requests that are not commands (03 R91). -/
def secRead (r : ReqHdr) : Bool := r.pkt == 1#4 && r.space == 2#2 && r.addr.toNat / 2 ^ 24 == 0x0B

/-- A duplicate of a completed request (R380): a READ of this module is read again, everything else is answered as stored. -/
def Dev.answerDup (d : Dev) (fs : Fuses) (p : Nat) (r : ReqHdr) (e : WinE) : Dev :=
  if e.hdr.pkt == 1#4 && !e.fwd && !notPerformed e.status then
    let h : ReqHdr := { e.hdr with tag := r.tag }
    if h.space == 2#2 then d.portControl fs p h true else d.portMemory p h true
  else d.sendCpl p (dupCpl r e.status e.sealRes e.result e.data e.pmask)

/-- A READ, WRITE or ATOMIC packet arrives on port p. DESIGN CHOICE (log 66): a frozen port answers FROZEN whatever module the
packet is for; the exceptions of R91 are for what is addressed to this module. -/
def Dev.request (d : Dev) (fs : Fuses) (p : Nat) (r : ReqHdr) (t : Nat) : Dev :=
  let d := { d with now := max d.now t }
  let own := r.dst.toNat == d.moduleId
  if !d.carries p (reqBytes r) || r.pkt == 8#4 || (own && r.pkt == 4#4 && !malformed r) then d
  else
    let fl := d.packetFlits p (reqBytes r)
    let d := d.takePacket p (reqBytes r)
    match d.arrive p r with
    | (d, .drop) => d
    | (d, .stale) => d.sendCpl p (staleCpl r)
    | (d, .done e) => d.answerDup fs p r e
    | (d, .fresh) =>
      let n := r.rsn.toNat
      if d.isFrozen (portMid p) && !(secRead r && own && !malformed r) then d.reply p n 6 0 0 [] 0#64
      else if malformed r then (d.inc (cPort p 33)).reply p n 4 0 0 [] 0#64
      else if !own then d.forward p r fl
      else if r.space == 2#2 then d.portControl fs p r false
      else d.portMemory p r false

/-! ### COMPLETION and TRANSACTION_TIMEOUT (R382) -/

def Dev.completion (d : Dev) (p : Nat) (c : CplHdr) (t : Nat) : Dev :=
  let d := { d with now := max d.now t }
  if !d.carries p (cplBytes c) then d
  else
    let d := (d.takePacket p (cplBytes c)).inc (cPort p 27)
    match (d.port p).outs.find? (fun o => o.rsn == c.rsn.toNat) with
    | none => d.inc (cPort p 32)
    | some o => d.outEnd p o c.status.toNat c.sealRes.toNat c.result.toNat c.data c.pmask

def Dev.timeout (d : Dev) (p rsn t : Nat) : Dev :=
  let d := { d with now := max d.now t }
  match (d.port p).outs.find? (fun o => o.rsn == rsn) with
  | none => d
  | some o =>
    if (d.port p).st != 3 || (d.port p).active d.now < o.queued + o.limit then d
    else
      let d := d.modPort p (fun x => { x with expired := match x.expired with
        | some (n, f, s) => some (n + 1, f, s)
        | none => some (1, d.frame % 2 ^ 32, (d.now - d.lastTick) % 2 ^ 32) })
      (d.inc (cPort p 31)).outEnd p o 10 0 0 [] 0#64

/-! ### Requests of this module's own masters (R377, R384) -/

/-- The next piece of a remote transfer may leave. -/
def Dev.mayLeave (d : Dev) (x : Xfer) : Bool :=
  x.remote.isSome && decide (x.next < x.limit) && !d.atomHeld x x.next && !d.behind x x.next && !d.sigHeld x

/-- How many pieces from `next` on one request takes: the rest of the row, at most 4 KiB, within 4 KiB. -/
def Xfer.burst (x : Xfer) : Nat :=
  if x.size != 64 then 1
  else
    let inRow := x.rowG - x.next % x.rowG
    let inPage := (4096 - x.addr x.next % 4096 + 63) / 64
    min (min inRow inPage) (x.limit - x.next)

/-- The bytes that a piece puts into a request; where it is poisoned, values that nothing gives (log 42), and the unit's journal
marks the poison (02 R71, 05 R170). -/
def Dev.pieceOut (d : Dev) (x : Xfer) (i : Nat) : Dev × List Byte :=
  let (g, p) := d.pieceData x i
  if p then
    (List.range 8).foldl (fun (s : Dev × List Byte) _ => let (d, v) := s.1.draw; (d, s.2 ++ leBytes 8 v.toNat))
      (d.markPoison x.unit (x.named i), [])
  else (d, gBytes g)

/-- One link request of a remote transfer. A write or atomic marks the unit's regions by the address named (02 R64, 07 R240). -/
def Dev.sendBurst (d : Dev) (x : Xfer) (m : Nat) : Dev :=
  let i := x.next
  let k := x.burst
  let is := (List.range k).map (i + ·)
  let e := d.routeOf m
  let src := (d.place x.mid).1
  let fail (d : Dev) (st : Nat) : Dev :=
    is.foldl (fun d j => d.finishGr x.id j st 0#512)
      (d.modXfer x.id (fun y => { y with next := i + k, gr := y.gr ++ is.map (fun j => { i := j }) }))
  let d := if x.kind.isRead then d else is.foldl (fun d j => d.markTouch x.unit (x.named j)) d
  if e == 0 then fail (d.inc (cMod 52)) 4
  else if (d.port e).st != 3 && (d.port e).st != 4 then fail d 10
  else if d.ringFails src (portStack e) (x.addr i) then fail d 12
  else
    let mask := x.maskOf i
    let lo := if x.size == 64 then 0 else ((List.range 64).find? (fun j => mask.getLsbD j)).getD 0
    let len := if x.size == 64 then 64 * k else x.size
    let addr := x.addr i + lo
    let pkt := if x.kind.isRead then 1 else if x.kind.isAtomic then 3 else 2
    let (d, bs) := if pkt == 1 then (d, []) else is.foldl (fun (s : Dev × List Byte) j =>
      let (d, b) := s.1.pieceOut x j
      (d, s.2 ++ b)) (d, [])
    let bs := if x.size == 64 then bs else (bs.drop lo).take len
    let h : ReqHdr := { pkt := BitVec.ofNat 4 pkt, space := 0, lu := false, dst := BitVec.ofNat 12 m, hops := 0
                        len := BitVec.ofNat 13 len, aop := BitVec.ofNat 2 x.aop, afmt := BitVec.ofNat 2 (if pkt == 3 then x.afmt else 0)
                        addr := BitVec.ofNat 40 addr, rsn := 0, tag := 0, data := bs }
    let o : OutReq := { rsn := 0, pkt := pkt, x := x.id, pcs := is, addr := addr, len := len, queued := 0
                        limit := d.lnkTimeout * 10000 }
    let rsn := (d.port e).nextRsn
    let d := d.modXfer x.id (fun y => { y with next := i + k, sent := y.sent ++ is.map (fun j => (rsn, j)) })
    let d := if x.mid < 0x100 then d.bump (cFrd x.mid (if pkt == 1 then 13 else 14)) len
      else if x.mid < 0x900 then d.bump (cGem (x.mid - 0x100) 3) len else d
    d.sendReq e h o

/-- Remote transfers leave while their port has room. -/
def Dev.pumpXfer : Nat → Nat → Dev → Dev
  | 0, _, d => d
  | n + 1, id, d =>
    match d.xfer id with
    | none => d
    | some x =>
      match x.remote with
      | none => d
      | some m =>
        let e := d.routeOf m
        if d.mayLeave x && d.sigFails x then (d.endXfer id).stopUnit x.unit 7 0
        else if !d.mayLeave x || (e != 0 && 4096 ≤ (d.port e).outs.length) then d
        else (d.sendBurst x m).pumpXfer n id

def Dev.pumpRemote (d : Dev) : Dev :=
  (d.xfers.filter (fun x => x.remote.isSome)).foldl (fun d x => d.pumpXfer (x.limit - x.next) x.id) d

end Sys2Proof.Machine
end

