-- ==== Sys2Proof/Machine/Security.lean ====
section
/-! DEFINITION. Commands, sessions, attestation, firmware updates and debug (12 R397-R421). -/

namespace Sys2Proof

open Machine

/-! ### Fields of a command packet (12 R401, R405) -/

/-- Word i of a command's body. -/
def CmdPkt.word (c : CmdPkt) (i : Nat) : Word := c.body.getD i 0#32

/-- The body's bytes. -/
def CmdPkt.bytes (c : CmdPkt) : List Byte := c.body.flatMap (fun w => leBytes 4 w.toNat)

/-- The types whose session key must have ADMIN. -/
def CmdPkt.admin (c : CmdPkt) (ty : Nat) : Bool :=
  ty == 0x10 || ty == 0x30 || ty == 0x31 || ty == 0x51 || (ty == 0x80 && bf (c.word 0) 1 0 == 2)

/-- Bytes of a type's body. A key is padded to a multiple of 4, as in R410's manifest (log 47). -/
def CmdPkt.bodySize (c : CmdPkt) (ty : Nat) : Nat := match ty with
  | 0x01 => 2892
  | 0x02 => 40
  | 0x10 => 12
  | 0x20 => 4 + 12 * (bf (c.word 0) 5 0 + 1)
  | 0x30 => 36 + 1796 + 1280
  | 0x31 => 4 + 1796 + 1280
  | 0x50 => 8
  | 0x60 => 260
  | 0x80 => if bf (c.word 0) 1 0 == 2 then 4 + 1796 + 1280 else 4
  | _ => 4

/-- The 40-bit address in two words of a body, with its upper bits 0. -/
def CmdPkt.addr (c : CmdPkt) (i : Nat) : Option Nat := if (c.word (i + 1)).toNat < 256 then some (addrOf (c.word i) (c.word (i + 1))) else none

def CmdPkt.entries (c : CmdPkt) : List (Nat × Nat × Nat) :=
  (List.range (bf (c.word 0) 5 0 + 1)).map (fun i =>
    ((c.word (1 + 3 * i)).toNat, (c.word (2 + 3 * i)).toNat, (c.word (3 + 3 * i)).toNat))

end Sys2Proof

namespace Sys2Proof.Machine

/-! ### Types (R405) -/

/-- The defined command types in the order of R405. -/
def cmdTypes : List Nat := [0x01, 0x02, 0x10, 0x20, 0x21, 0x30, 0x31, 0x40, 0x50, 0x51, 0x60, 0x61, 0x70, 0x80]

def cmdTagged (ty : Nat) : Bool := ty != 1 && ty != 2 && cmdTypes.contains ty

/-- The bits of body word 0 that a type's layout names. -/
def bodyMask (ty : Nat) : Nat := match ty with
  | 0x01 => 0xF
  | 0x20 => 0x3F
  | 0x21 => 0xFFF
  | 0x31 => 0x303
  | 0x40 => 0xFFF
  | 0x50 => 1
  | 0x51 => 0xFFFF03
  | 0x60 => 0x1FF
  | 0x61 => 0xFF07
  | 0x70 => 0xFF03
  | 0x80 => 0x303
  | _ => 0xFFFFFFFF

/-- R403 step 1. -/
def Dev.cmdFormat (d : Dev) (c : CmdPkt) (ty : Nat) : Bool :=
  cmdTypes.contains ty && c.len == 32 + c.bodyLen && c.bodyLen % 4 == 0 && decide (c.bodyLen ≤ 4064) &&
  4 * c.body.length == c.bodyLen && c.bodyLen == c.bodySize ty && c.modl.toNat == d.moduleId && c.reserved &&
  (ty != 2 || (d.reg 0x0B000704).getLsbD 0)

/-- The input of the tag: the ingress port, LNK_SESSION, and the command's bytes 0 to 15 + BODY_LEN (R402). -/
def Dev.tagInput (d : Dev) (c : CmdPkt) (ty : Nat) : List Byte :=
  leBytes 1 c.port.val ++ leBytes 4 d.sec.session.toNat ++ leBytes 4 (ty + c.bodyLen * 2 ^ 16) ++ leBytes 4 c.modl.toNat ++
  leBytes 8 c.counter.toNat ++ c.bytes

def Dev.sess (d : Dev) (p : Nat) : Sess := d.sec.sess.get p {}
def Dev.setSess (d : Dev) (p : Nat) (s : Sess) : Dev := { d with sec := { d.sec with sess := d.sec.sess.put p s } }

/-- A port's session ends (R408). -/
def Dev.endSession (d : Dev) (p : Nat) : Dev := { d with sec := { d.sec with sess := d.sec.sess.drop p } }

/-- Steps 2 to 5 of R403, and whether LAST_CTR advances: 0 passes. -/
def Dev.cmdAuth (d : Dev) (c : CmdPkt) (ty : Nat) : Nat × Bool :=
  if !cmdTagged ty then (0, false)
  else
    let s := d.sess c.port.val
    if !s.active then (2, false)
    else if Config.kmac256 s.key (d.tagInput c ty) != c.tag then (3, false)
    else if c.counter.toNat ≤ s.last.toNat then (4, false)
    else if c.admin ty && !s.admin then (5, true)
    else (0, true)

/-- A rejection at steps 1 to 4 (R403). -/
def Dev.cmdReject (d : Dev) (p : Nat) : Dev :=
  let d := d.inc (cPort p 36)
  if (d.port p).cmdErr then d
  else (d.modPort p (fun x => { x with cmdErr := true })).portErr p 0 0x0B02

/-- The request header of a command packet. -/
def Dev.cmdHdr (d : Dev) (c : CmdPkt) : ReqHdr :=
  { pkt := 4, space := c.space, lu := false, dst := BitVec.ofNat 12 d.moduleId, hops := 0, len := BitVec.ofNat 13 c.len
    aop := 0, afmt := 0, addr := 0, rsn := c.rsn, tag := c.rtag, data := [] }

/-- A packet received whole on the port is this command: a CMD with its RSN. -/
def isCmd (c : CmdPkt) (k : RxPkt) : Bool := atBytes k.bytes 0 1 % 16 == 4 && atBytes k.bytes 16 6 == c.rsn.toNat

/-- A command reaches its target (R83, R91, R374, R379, R403): the state after it, and whether the command was accepted.
`act`: the type's own checks and effect, and its result. -/
def Dev.cmdGo (d : Dev) (fs : Fuses) (c : CmdPkt) (ty : Nat) (act : Dev → Dev × Fuses × Nat) : Dev × Fuses × Bool :=
  let d := { d with now := max d.now c.t }
  let p := c.port.val
  let x := d.port p
  let got := x.packets.findIdx? (isCmd c)
  if x.st != 3 && got.isNone then (d, fs, false)
  else
    let d := match got with
      | some i => d.setPort p { x with packets := dropIdx x.packets i }
      | none => d
    let r := d.cmdHdr c
    let n := c.rsn.toNat
    match d.arrive p r with
    | (d, .drop) => (d, fs, false)
    | (d, .stale) => (d.sendCpl p (staleCpl r), fs, false)
    | (d, .done e) => (d.sendCpl p (dupCpl r e.status e.sealRes e.result e.data e.pmask), fs, false)
    | (d, .fresh) =>
      if d.isFrozen (portMid p) && !(ty == 1 || cmdTagged ty) then (d.reply p n 6 0 0 [] 0#64, fs, false)
      else if c.space != 0#2 || c.len == 0 || 4096 < c.len then ((d.inc (cPort p 33)).reply p n 4 0 0 [] 0#64, fs, false)
      else if !d.cmdFormat c ty then ((d.cmdReject p).reply p n 0 0 1 [] 0#64, fs, false)
      else
        let (res, adv) := d.cmdAuth c ty
        let d := if adv then d.setSess p { d.sess p with last := c.counter } else d
        if res != 0 then ((if res == 5 then d else d.cmdReject p).reply p n 0 0 res [] 0#64, fs, false)
        else if (c.word 0).toNat &&& bodyMask ty != (c.word 0).toNat then (d.reply p n 0 0 1 [] 0#64, fs, false)
        else
          let (d, fs, res) := act d
          let d := if res == 0 then d.inc (cPort p (37 + cmdTypes.findIdx (· == ty))) else d
          (d.reply p n 0 0 res [] 0#64, fs, res == 0)

/-! ### Sessions (R407) and attestation (R409) -/

/-- The draw that randomises an encapsulation. -/
def Dev.draws8 (d : Dev) : List Byte := leBytes 8 d.sec.draws

/-- An identity signature over bytes (R397). -/
def signed (fs : Fuses) (msg : List Byte) : List Byte := (List.range 1280).map (Config.signatureByte 2 (idSource fs ++ msg))

/-- The port's window set grants a kind on device memory (R406). -/
def Dev.cmdGrants (d : Dev) (p : Nat) (k : AccK) (a n : Nat) : Bool := d.allowedRange (d.portSet p) k a n

/-- The checks of SESSION_INIT, in R407's order. -/
def Dev.initCheck (d : Dev) (c : CmdPkt) : Nat :=
  let p := c.port.val
  let body := c.bytes
  match c.addr 9 with
  | none => 1
  | some a =>
    if a % 64 != 0 then 1
    else if p != 0 && !(d.reg 0x0B000704).getLsbD 1 then 13
    else match d.sec.trust.find (bf (c.word 0) 3 0) with
      | none => 12
      | some (ports, _, key) =>
        if !ports.testBit p || d.sec.keyGone then 13
        else if !Config.falconVerify key (body.take 1612 ++ leBytes 4 d.sec.session.toNat) (body.drop 1612) then 11
        else if !d.cmdGrants p .write a 2944 then 6 else 0

/-- An accepted SESSION_INIT: the response and the key of the session it will open. -/
def Dev.initGo (d : Dev) (fs : Fuses) (c : CmdPkt) : Dev × Fuses × Nat :=
  let res := d.initCheck c
  if res != 0 then (d, fs, res)
  else
    let p := c.port.val
    let body := c.bytes
    let ek := (body.drop 44).take 1568
    let ct := (List.range 1568).map (Config.signatureByte 1 (ek ++ d.draws8))
    let shared := digestBytes (Config.digest 1 (ek ++ d.draws8))
    let transcript := digestBytes (Config.digest 0 (body ++ ct))
    let key := Config.digest 0 (shared ++ transcript ++ strBytes "UFK7730-KEY")
    let sig := signed fs (digestBytes (Config.digest 0 body) ++ ct ++ leBytes 4 d.sec.session.toNat)
    let i := bf (c.word 0) 3 0
    let adm := (d.sec.trust.get i (0, false, [])).2.1
    let next := (key, i, adm, (c.addr 9).getD 0, ct ++ sig ++ List.replicate 32 0#8)
    let d := d.setSess p { d.sess p with next := (d.sess p).next ++ [next] }
    ({ d with sec := { d.sec with draws := d.sec.draws + 1 } }, fs, 0)

/-- A stipe writes whole 64-B granules from an address on. -/
def Dev.stipeArea (d : Dev) (a : Nat) (bs : List Byte) : Dev :=
  (List.range ((bs.length + 63) / 64)).foldl (fun d i => (d.stipeWrite (a / 64 + i) (gOfBytes ((bs.drop (64 * i)).take 64)) fullMask).1) d

/-- SESSION_RESPONSE_WRITE: the oldest response, its status granule last, and the new session in force with it. -/
def Dev.responseWrite (d : Dev) (p : Nat) : Dev :=
  match (d.sess p).next with
  | [] => d
  | (key, i, adm, a, bs) :: rest =>
    let d := d.stipeArea (a + 64) bs
    let d := d.stipeArea a (leBytes 64 1)
    (d.setSess p { d.sess p with active := true, key := key, index := i, admin := adm, last := 0#64, next := rest }).inc (cMod 11)

/-- The checks of ATTEST. -/
def Dev.attestGo (d : Dev) (fs : Fuses) (c : CmdPkt) : Dev × Fuses × Nat :=
  let p := c.port.val
  match c.addr 8 with
  | none => (d, fs, 1)
  | some a =>
    if a % 64 != 0 then (d, fs, 1)
    else if d.sec.keyGone then (d, fs, 13)
    else if !d.cmdGrants p .write a 1664 then (d, fs, 6)
    else ({ d with sec := { d.sec with reports := d.sec.reports ++ [(p, a, c.bytes.take 32)] } }, fs, 0)

/-- Fenced fronds and gemmas. -/
def Dev.fencedList (d : Dev) : List Nat :=
  (List.range 256).filter (fun f => (d.frond f).fenced) ++
    ((List.range 2048).filter (fun g => (d.gemma g).fenced)).map (256 + ·)

/-- The runtime map's entries in ascending order (R409). -/
def Dev.mapEntries (d : Dev) : List Word :=
  d.mem.banks.flatMap (fun e => e.2.slots.map (fun s => rtEntry e.1 s.2 s.1))

def wordBytes (ws : List Word) : List Byte := ws.flatMap (fun w => leBytes 4 w.toNat)

/-- Window sets and port bindings, written out: words by number, installed sets, bindings (log 46). -/
def Dev.windowBytes (d : Dev) : List Byte :=
  d.win.win.flatMap (fun e => leBytes 4 e.1 ++ leBytes 4 e.2.toNat) ++ d.win.installed.flatMap (leBytes 4) ++
    (List.range 6).flatMap (fun p => leBytes 1 (d.portSet p))

/-- The report of R409, bytes 0-383. -/
def Dev.reportHead (d : Dev) (fs : Fuses) (nonce : List Byte) : List Byte :=
  let fenced := d.fencedList
  let sha (bs : List Byte) : List Byte := digestBytes (Config.digest 0 bs)
  let w0 := pack [(1, 0), (1, 1), (d.moduleId, 8), (d.bup.stage, 20)]
  let flags := pack [(b2n d.bup.lock, 0), (d.sec.level, 1), (b2n fs.owner.isSome, 3), (fs.revoked.toNat, 4), (b2n (!fenced.isEmpty), 8)]
  leBytes 4 w0.toNat ++ leBytes 8 d.frame ++ leBytes 4 d.sec.session.toNat ++ nonce ++ leBytes 4 flags.toNat ++
    leBytes 2 fenced.length ++ leBytes 2 d.win.frozen.length ++ (List.range 3).flatMap (fun c => leBytes 2 (d.sec.versions.getD c 0)) ++
    leBytes 2 0 ++ digestBytes (d.idDigest fs) ++ (List.range 3).flatMap (fun c => sha (d.sec.images.get c [])) ++ sha d.bup.image ++
    digestBytes d.sec.fuseDigest ++ sha (wordBytes d.mapEntries) ++ digestBytes (Config.digest 2 d.windowBytes) ++ List.replicate 64 0#8

/-- ATTEST_REPORT_WRITE: the port's oldest report, its first granule last. -/
def Dev.reportWrite (d : Dev) (fs : Fuses) (p : Nat) : Dev :=
  match d.sec.reports.find? (fun r => r.1 == p) with
  | none => d
  | some (q, a, nonce) =>
    let head := d.reportHead fs nonce
    let bs := head ++ signed fs head
    let d := (d.stipeArea (a + 64) (bs.drop 64)).stipeArea a (bs.take 64)
    Dev.inc { d with sec := { d.sec with reports := d.sec.reports.erase (q, a, nonce) } } (cMod 10)

/-! ### Firmware updates (R410-R413) -/

/-- FW_UPDATE. -/
def Dev.updateGo (d : Dev) (fs : Fuses) (c : CmdPkt) : Dev × Fuses × Nat :=
  match c.addr 0 with
  | none => (d, fs, 1)
  | some a =>
    if 8 ≤ (c.word 2).toNat then (d, fs, 1)
    else if 1 ≤ d.sec.fw.st && d.sec.fw.st ≤ 5 then (d, fs, 14)
    else if !d.cmdGrants c.port.val .read a 4096 then (d, fs, 6)
    else
      let fw : FwS := { st := 1, mask := (c.word 2).toNat, base := a }
      ({ d with sec := { d.sec with fw := fw } }, fs, 0)

def Dev.setFw (d : Dev) (f : FwS) : Dev := { d with sec := { d.sec with fw := f } }

/-- Bytes read by a stipe from an address on: none where a word cannot be read or is poison. -/
def Dev.stipeBytes (d : Dev) (a n : Nat) : Dev × Option (List Byte) :=
  let (d, ok, bs) := (List.range ((a % 64 + n + 63) / 64)).foldl (fun (s : Dev × Bool × List Byte) i =>
    let (d, st, g) := s.1.stipeRead (a / 64 + i)
    (d, s.2.1 && !readBad st, s.2.2 ++ gBytes g)) (d, true, [])
  (d, if ok then some ((bs.drop (a % 64)).take n) else none)

/-- Blocks of an image, and the number of a class's first one. -/
def FwS.count (f : FwS) : Nat := f.blocks.foldl (· + ·) 0
def FwS.first (f : FwS) (c : Nat) : Nat := (f.blocks.take c).foldl (· + ·) 0
/-- The classes an update replaces (R410). -/
def FwS.classes (f : FwS) : List Nat := [0, 1, 2].filter (fun c => f.blocks.getD c 0 != 0 && f.mask.testBit c)

/-- The receivers of a class that are not retired, and do not retire at this boundary (R413). -/
def Dev.receivers (d : Dev) (c : Nat) : List Nat :=
  let out (f : Nat) : Bool := d.isRetired f || (d.frond f).pendRetire
  if c == 0 then (List.range 256).filter (fun f => !out f)
  else if c == 1 then ((List.range 2048).filter (fun g => !(d.gemma g).retired && !(d.gemma g).pendRetire && !out (g / 8))).map (256 + ·)
  else ((List.range 4).filter (fun s => !d.bup.downStacks.contains s)).map (2304 + ·)

def classOf (r : Nat) : Nat := if r < 256 then 0 else if r < 2304 then 1 else 2

def Dev.fwFail (d : Dev) (code : Nat) : Dev := d.setFw { d.sec.fw with st := 7, code := code }

/-- FW_VERIFY_END (R411). -/
def Dev.verifyEnd (d : Dev) (fs : Fuses) : Dev :=
  let f := d.sec.fw
  if f.st != 1 then d
  else
    match d.stipeBytes f.base 4096 with
    | (d, none) => d.fwFail 5
    | (d, some m) =>
      let f := { f with blocks := fwBlocks m, versions := [0, 1, 2].map (fwVersion m) }
      if 256 < f.blocks.getD 0 0 || 64 < f.blocks.getD 1 0 || 4096 < f.blocks.getD 2 0 then d.fwFail 4
      else
        match d.stipeBytes (f.base + 4096) (32 * f.count) with
        | (d, none) => d.fwFail 5
        | (d, some hs) =>
          let v := vendorCode fs (fwSlot m) (fwKey m) (m.take 1844) ((m.drop 1844).take 1280)
          if v == 12 then d.fwFail 2
          else if v != 0 then d.fwFail 1
          else if digestBytes (Config.digest 0 hs) != (m.drop 16).take 32 then d.fwFail 4
          else if [0, 1, 2].any (fun c => decide (fwVersion m c < fs.minVer.getD c 0)) then d.fwFail 3
          else d.setFw { f with st := 2, hashes := hs }

/-- A block is read: it is kept where it matches the hash list. -/
def Dev.fetchBlock (d : Dev) (n : Nat) : Dev × Bool :=
  let f := d.sec.fw
  match d.stipeBytes (f.base + 4096 + 32 * f.count + 4096 * n) 4096 with
  | (d, none) => (d, false)
  | (d, some bs) =>
    if digestBytes (Config.digest 0 bs) != (f.hashes.drop (32 * n)).take 32 then (d, false)
    else (d.setFw { d.sec.fw with data := d.sec.fw.data.put n bs }, true)

/-- Several blocks are read; those that did not match. -/
def Dev.fetchBlocks (d : Dev) (ns : List Nat) : Dev × List Nat :=
  ns.foldl (fun (s : Dev × List Nat) n =>
    let (d, ok) := s.1.fetchBlock n
    (d, if ok then s.2 else s.2 ++ [n])) (d, [])

/-- FW_BROADCAST_END: pairs that some receiver missed, and blocks that match nowhere. -/
def Dev.broadcastEnd (d : Dev) (missing : List (Nat × Nat)) : Dev :=
  let f := d.sec.fw
  if f.st != 2 then d
  else
    let ns := f.classes.flatMap (fun c => (List.range (f.blocks.getD c 0)).map (f.first c + ·))
    let (d, bad) := d.fetchBlocks ns
    let mine (c n : Nat) : Bool := decide (f.first c ≤ n) && decide (n < f.first c + f.blocks.getD c 0)
    let lost := f.classes.flatMap (fun c => (bad.filter (mine c)).flatMap (fun n => (d.receivers c).map (fun r => (r, n))))
    let told := missing.filter (fun e => f.classes.contains (classOf e.1) && mine (classOf e.1) e.2 && (d.receivers (classOf e.1)).contains e.1)
    d.setFw { d.sec.fw with st := 3, round := 1, missing := (d.sec.fw.missing ++ told ++ lost).eraseDups }

/-- FW_REPAIR_ROUND: the missing blocks are sent again; `missing`: pairs whose block arrived wrong again. -/
def Dev.repairRound (d : Dev) (missing : List (Nat × Nat)) : Dev :=
  let f := d.sec.fw
  if f.st != 3 || f.last then d
  else
    let (d, bad) := d.fetchBlocks (f.missing.map (·.2)).eraseDups
    let left := f.missing.filter (fun e => bad.contains e.2 || missing.contains e)
    if f.round < 3 then d.setFw { d.sec.fw with missing := left, round := f.round + 1 }
    else
      let stipes := left.any (fun e => 2304 ≤ e.1)
      d.setFw { d.sec.fw with missing := left, last := true, code := if stipes then 6 else d.sec.fw.code }

/-- A receiver runs no unit and carries none. -/
def Dev.receiverIdle (d : Dev) (r : Nat) : Bool :=
  if 2304 ≤ r then true
  else
    let f := if r < 256 then r else (r - 256) / 8
    d.units.all (fun u => u.phase == 3 || (u.phase == 0 && u.carried == 0) ||
      (if r < 256 then !(u.kind == 0 && u.target == f)
        else !((u.kind == 1 && u.target == f && u.gemMask.getLsbD ((r - 256) % 8)) || (u.kind == 3 && u.target == f))))

def Dev.fence (d : Dev) (r : Nat) : Dev :=
  let d := if r < 256 then d.modFrond r (fun x => { x with fenced := true }) else d.modGemma (r - 256) (fun x => { x with fenced := true })
  let d := d.setFw { d.sec.fw with fenced := d.sec.fw.fenced ++ [r], waiting := d.sec.fw.waiting.filter (· != r) }
  if r < 256 then d.raise (d.stk r) { cls := 2, kind := 1, src := r, code := 0x0B04 }
  else d.raise (d.stk ((r - 256) / 8)) { cls := 2, kind := 2, src := r - 256, code := 0x0B04 }

/-- A receiver switches its stores; it is released where it was fenced (R413). -/
def Dev.switchTo (d : Dev) (r : Nat) : Dev :=
  let d := if r < 256 then d.modFrond r (fun x => { x with fenced := false })
    else if r < 2304 then d.modGemma (r - 256) (fun x => { x with fenced := false }) else d
  let f := d.sec.fw
  let c := classOf r
  let img := (List.range (f.blocks.getD c 0)).flatMap (fun i => f.data.get (f.first c + i) [])
  let d := { d with sec := { d.sec with images := d.sec.images.put c img } }
  d.setFw { f with switched := f.switched ++ [r], waiting := f.waiting.filter (· != r) }

/-- Every receiver has switched or been fenced: DONE, and the versions of classes that switched whole (R411, R412). -/
def Dev.fwDone (d : Dev) (fs : Fuses) : Dev × Fuses :=
  let f := d.sec.fw
  let whole := f.classes.filter (fun c => (d.receivers c).all f.switched.contains)
  let set (l : List Nat) : List Nat := [0, 1, 2].map (fun c => if whole.contains c then f.versions.getD c 0 else l.getD c 0)
  let d := { d with sec := { d.sec with versions := set d.sec.versions } }
  let d := d.setFw { d.sec.fw with st := 6 }
  let d := d.raise 0 { cls := 0, kind := 0, code := 0x0B05, detail := f.switched.length + f.fenced.length * 2 ^ 12 }
  (d, { fs with minVer := set fs.minVer })

/-- PREPARE, SWITCH and DONE at a frame boundary (R411, R412). -/
def Dev.fwBoundary (d : Dev) (fs : Fuses) : Dev × Fuses :=
  -- a unit that has been retired is dropped from the update (R413)
  let live (r : Nat) : Bool := (d.receivers (classOf r)).contains r
  let f := { d.sec.fw with switched := d.sec.fw.switched.filter live, fenced := d.sec.fw.fenced.filter live
                           waiting := d.sec.fw.waiting.filter live }
  if f.st == 3 && f.last then (d.setFw { f with st := 4 }, fs)
  else if f.st != 4 && f.st != 5 then (d, fs)
  else
    let d := if f.st == 5 then
        d.setFw { f with frames := f.frames + 1 }
      else
        let bad (r : Nat) : Bool := f.missing.any (fun e => e.1 == r)
        let noStipe := f.missing.any (fun e => 2304 ≤ e.1)
        let all := f.classes.flatMap d.receivers
        let d := d.setFw { f with st := 5, frames := 0, waiting := all.filter (fun r => !bad r && !(2304 ≤ r && noStipe)) }
        (all.filter (fun r => bad r && r < 2304)).foldl Dev.fence d
    let d := (d.sec.fw.waiting.filter d.receiverIdle).foldl Dev.switchTo d
    let d := if 16 ≤ d.sec.fw.frames then d.sec.fw.waiting.foldl Dev.fence d else d
    if d.sec.fw.waiting.isEmpty then d.fwDone fs else (d, fs)

/-! ### The tagged commands (R405, R406) -/

/-- CFG_WRITE: every entry is checked before any is applied. -/
def Dev.cfgCheck (d : Dev) (p : Nat) (e : Nat × Nat × Nat) : Nat :=
  let rm := regMasks e.1
  if !d.allowed (d.portSet p) 1 .write (e.1 / 4096) then 6
  else if e.1 % 4 != 0 || ((rm.1 ||| rm.2) == 0 && w1cMask e.1 == 0) then 10
  else if d.bup.lock && e.2.1 &&& rm.2 != 0 then 9 else 0

def Dev.cfgGo (d : Dev) (fs : Fuses) (c : CmdPkt) : Dev × Fuses × Nat :=
  match (c.entries.map (d.cfgCheck c.port.val)).find? (· != 0) with
  | some r => (d, fs, r)
  | none => (c.entries.foldl (fun d e => d.writeReg (some c.port.val) e.1 e.2.1 e.2.2) d, fs, 0)

/-- POWER_CAP (13 R433): a lower cap now, a higher one at the boundary. -/
def Dev.capGo (d : Dev) (fs : Fuses) (c : CmdPkt) : Dev × Fuses × Nat :=
  let n := bf (c.word 0) 11 0
  if n < 600 || 2400 < n then (d, fs, 1)
  else if n ≤ d.pwr.cap then ({ d with pwr := { d.pwr with cap := n, capNext := none } }, fs, 0)
  else ({ d with pwr := { d.pwr with capNext := some n } }, fs, 0)

/-- A fuse read back wrong after programming (R406). -/
def Dev.fuseFail (d : Dev) : Dev := d.raise 0 { cls := 2, kind := 0, code := 0x0B03 }

/-- Values that nothing gives. -/
def Dev.draw256 (d : Dev) : Dev × BitVec 256 :=
  let (d, a) := d.draw
  let (d, b) := d.draw
  let (d, e) := d.draw
  let (d, f) := d.draw
  (d, a ++ b ++ e ++ f)

/-- KEY_OWNER_SET. A slot that read back wrong holds, or does not, a digest that nothing gives (log 48). -/
def Dev.ownerGo (d : Dev) (fs : Fuses) (c : CmdPkt) (blown : Bool) : Dev × Fuses × Nat :=
  let bs := c.bytes
  let dg := bs.take 32
  if 4 ≤ (c.word 8).toNat then (d, fs, 1)
  else if fs.owner.isSome then (d, fs, 13)
  else
    let r := vendorCode fs (bf (c.word 8) 1 0) ((bs.drop 36).take 1793) (digestBytes (d.idDigest fs) ++ dg) (bs.drop 1832)
    if r != 0 then (d, fs, r)
    else if blown then (d, { fs with owner := some (BitVec.ofNat 256 (leNat dg)) }, 0)
    else
      let (d, v) := d.draw
      let (d, w) := d.draw256
      (d.fuseFail, { fs with owner := if v.getLsbD 0 then some w else none }, 15)

/-- The programmed vendor slots that are not revoked. -/
def Fuses.live (fs : Fuses) : List Nat := (List.range 4).filter (fun s => (fs.vendor.find s).isSome && !fs.revoked.getLsbD s)

/-- KEY_VENDOR_REVOKE. -/
def Dev.revokeGo (d : Dev) (fs : Fuses) (c : CmdPkt) (blown : Bool) : Dev × Fuses × Nat :=
  let bs := c.bytes
  let slot := bf (c.word 0) 1 0
  let by' := bf (c.word 0) 9 8
  if slot == by' || (fs.live.filter (fun s => s != slot)).isEmpty then (d, fs, 13)
  else
    let msg := digestBytes (d.idDigest fs) ++ strBytes "REVOKE" ++ leBytes 1 slot
    let r := vendorCode fs by' ((bs.drop 4).take 1793) msg (bs.drop 1800)
    if r != 0 then (d, fs, r)
    else if blown then (d, { fs with revoked := fs.revoked ||| BitVec.ofNat 4 (2 ^ slot) }, 0)
    else (d.fuseFail, fs, 15)

/-- UNFREEZE (03 R93). -/
def Dev.unfreezeGo (d : Dev) (fs : Fuses) (c : CmdPkt) : Dev × Fuses × Nat :=
  let m := bf (c.word 0) 11 0
  if !d.isFrozen m then (d, fs, 8)
  else ({ d with win := { d.win with pendUnfreeze := (d.win.pendUnfreeze ++ [m]).eraseDups } }, fs, 0)

/-- RTMAP_EDIT (08 R555). -/
def Dev.editGo (d : Dev) (fs : Fuses) (c : CmdPkt) : Dev × Fuses × Nat :=
  let add := !(c.word 0).getLsbD 0
  let w := c.word 1
  let b := bf w 12 0
  let r := bf w 26 13
  let k := bf w 30 27
  let m := d.slotsAfter b
  let bk := d.bank b
  let free := (List.range 16).any (fun j => (m.find j).isNone && !bk.badSlots.contains j)
  let ok := if add then !m.any (fun e => e.2 == r) && !bk.fused.contains r && (m.find k).isNone && !d.isRetired (b / 32) && free
    else m.find k == some r
  if !w.getLsbD 31 then (d, fs, 1)
  else if !ok then (d, fs, 10)
  else ({ d with mem := { d.mem with edits := d.mem.edits ++ [(add, b, r, k)] } }, fs, 0)

/-- FUSE_RETIRE. -/
def Dev.retireGo (d : Dev) (fs : Fuses) (c : CmdPkt) (blown : Bool) : Dev × Fuses × Nat :=
  let kind := bf (c.word 0) 1 0
  let i := bf (c.word 0) 23 8
  if kind == 3 then (d, fs, 1)
  else if [256, 2048, 8192].getD kind 0 ≤ i then (d, fs, 10)
  else if blown then (d, { fs with retired := (fs.retired ++ [(kind, i)]).eraseDups }, 0)
  else (d.fuseFail, fs, 15)

/-- WINDOW_SET (03 R87, R88, R92). -/
def Dev.windowGo (d : Dev) (fs : Fuses) (c : CmdPkt) : Dev × Fuses × Nat :=
  let set := bf (c.word 0) 7 0
  let install := (c.word 0).getLsbD 8
  let ws := (List.range 64).map (fun i => c.word (1 + i))
  let w (i : Nat) : Word := ws.getD i 0#32
  let bad (i : Nat) : Bool := winBad (w (4 * i)) (w (4 * i + 1)) ||
    ((w (4 * i + 1)).getLsbD 30 && (w (4 * i + 2) != 0#32 || w (4 * i + 3) != 0#32))
  let used := d.units.any (fun u => u.wset == set && u.busy)
  let bound := (List.range 6).any (fun p => d.portSet p == set) || d.win.pendBind.any (fun e => e.2 == set)
  if (List.range 16).any bad then (d, fs, 1)
  else if used || (!install && bound) then (d, fs, 7)
  else ({ d with win := { d.win with pendSet := d.win.pendSet ++ [(set, install, ws)] } }, fs, 0)

/-- PORT_BIND. -/
def Dev.bindGo (d : Dev) (fs : Fuses) (c : CmdPkt) : Dev × Fuses × Nat :=
  let p := bf (c.word 0) 2 0
  let set := bf (c.word 0) 15 8
  if 5 < p then (d, fs, 1)
  else if !d.win.installed.contains set || d.win.pendSet.any (fun e => e.1 == set && !e.2.1) then (d, fs, 10)
  else ({ d with win := { d.win with pendBind := d.win.pendBind ++ [(p, set)] } }, fs, 0)

/-- RESET (15 R495): level and index are the command's own. -/
def Dev.resetGo (d : Dev) (fs : Fuses) (c : CmdPkt) : Dev × Fuses × Nat :=
  let level := bf (c.word 0) 1 0
  let i := bf (c.word 0) 15 8
  if level == 0 || (level == 1 && 31 < i) || (level == 2 && 3 < i) then (d, fs, 1)
  else if level == 3 || (level == 2 && i == 0) then (d, fs, 0)
  else (d.rstRequest level i, fs, 0)

/-- A RESET command, with the module reset that level 3, or level 2 on stack 0, brings once it has completed. -/
def Dev.resetCmd (d : Dev) (fs : Fuses) (c : CmdPkt) : Dev × Fuses :=
  let (d, fs, ok) := d.cmdGo fs c 0x70 (fun d => d.resetGo fs c)
  if ok && (bf (c.word 0) 1 0 == 3 || (bf (c.word 0) 1 0 == 2 && bf (c.word 0) 15 8 == 0)) then (d.moduleReset, fs) else (d, fs)

/-- DEBUG_UNLOCK (R414): the level never falls. -/
def Dev.unlockGo (d : Dev) (fs : Fuses) (c : CmdPkt) : Dev × Fuses × Nat :=
  let level := bf (c.word 0) 1 0
  let bs := c.bytes
  if level == 0 || level == 3 || (level == 1 && (c.word 0).toNat != 1) then (d, fs, 1)
  else if level == 1 then ({ d with sec := { d.sec with level := max d.sec.level 1 } }, fs, 0)
  else
    let msg := digestBytes (d.idDigest fs) ++ strBytes "DEBUG" ++ leBytes 16 d.sec.nonce.toNat
    let r := vendorCode fs (bf (c.word 0) 9 8) ((bs.drop 4).take 1793) msg (bs.drop 1800)
    if r != 0 then (d, fs, r)
    else
      let d := { d with sec := { d.sec with level := 2, keyGone := true, sess := [], draws := d.sec.draws + 1,
                                            nonce := Config.randomNonce d.sec.draws } }
      (d.raise 0 { cls := 4, kind := 0, code := 0x0B06 }, fs, 0)

end Sys2Proof.Machine
end

