-- ==== Sys2Proof/Machine/Tick.lean ====
section
/-! DEFINITION. Ticks and frame boundaries: the sources of ticks, what ends and what is carried, the changes of the boundary,
the completion journal (02 R36-R43, R57-R69, 01 R23, R31). -/

namespace Sys2Proof.Machine

/-! ### Units at a tick (R60, R61) -/

/-- Fronds on which, or on whose partitions, a unit ran or was carried in the frame that closes (13 R440, 14 R467). -/
def Dev.ranFronds (d : Dev) : List Nat :=
  (d.units.filterMap (fun u =>
    if u.busy || (d.endedQ.contains u.key && (u.start.isSome || 0 < u.carried))
    then u.frondOf else none)).eraseDups

/-- A unit ends at the tick with a cause, or with the higher one of what stopped it before (05 R166). -/
def Dev.tickEnd (d : Dev) (u : WUnit) (cause : Nat) : Dev :=
  if u.phase == 0 then d.endUnitAs u.key 2 cause 0
  else
    let c := chooseStop (u.stops ++ if cause == 0 then [] else [(cause, 0)])
    d.endUnitAs u.key (stateOf c.1) c.1 c.2

/-- Step 1: units that may not be carried end; so does one whose master is frozen (R72). -/
def Dev.tickEnds (d : Dev) : Dev :=
  (d.units.filter (fun u => u.phase != 3)).foldl (fun d u =>
    if !u.cont then d.tickEnd u 1
    else if u.budget ≤ u.carried then d.tickEnd u 2
    else if u.phase == 2 && u.stops.any (fun s => s.1 == 6) then d.tickEnd u 0 else d) d

/-- Step 3: what remains is carried, at most 512 units: those carried before first, then by descriptor index (R61). -/
def Dev.tickCarry (d : Dev) : Dev :=
  let live := d.units.filter (fun u => u.phase != 3)
  let old := (live.filter (fun u => 0 < u.carried)).length
  let new := (live.filter (fun u => u.carried == 0)).mergeSort (fun a b => decide (a.key ≤ b.key))
  let d := ((new.drop (512 - old)).foldl (fun d u => d.tickEnd u 3) d).depFail d.units.length
  let n := (d.units.filter (fun u => u.phase != 3)).length
  { (d.bump (cMod 4) n) with units := d.units.map (fun u => if u.phase != 3 then { u with carried := u.carried + 1 } else u) }

/-! ### The journal (R66-R69) -/

def Dev.jrnlBase (d : Dev) : Nat := bf (d.reg 0x01000024) 7 0 * 2 ^ 32 + bf (d.reg 0x01000020) 31 19 * 2 ^ 19

/-- LAP of the next record: 1 on the first pass. -/
def FrameS.lap (f : FrameS) : Nat := 1 - f.records / 16384 % 2

/-- A record is written at the ring's next place; one not acknowledged may be overwritten (R67). -/
def Dev.jrnlWrite (d : Dev) (ws : List Word) : Dev :=
  let f := d.frm
  let d := d.stipeWords (d.jrnlBase + 32 * (f.records % 16384)) ws
  if f.ackAt + 16384 ≤ f.records then
    ({ d with frm := { d.frm with records := f.records + 1, overwrote := true } }).inc (cMod 5)
  else { d with frm := { d.frm with records := f.records + 1 } }

/-- A unit's entry (R68). `tick`: the tick that opened the frame in which it ended. -/
def WUnit.entry (u : WUnit) (lap tick : Nat) : List Word :=
  [pack [(u.uid, 0), (u.state, 16), (u.cause, 18), (lap, 29), (2, 30)],
   pack [(u.lastCommit, 0), (u.uncertain.toNat, 16), (u.poisoned.toNat, 24)],
   pack [(b2n u.uncertainOther, 0), (b2n u.poisonOther, 1), (b2n u.deadref, 2), (b2n u.unstable, 3)],
   BitVec.ofNat 32 u.errSeq,
   (match u.start with
    | some t => BitVec.ofNat 32 (t - u.originT)
    | none => 0xFFFFFFFF#32),
   BitVec.ofNat 32 (u.ended - tick), pack [(u.carried % 256, 0), (u.seq, 8)], u.aux]

/-- The frame record (R69) of the frame that `f` and `n` describe, closed at time t. -/
def frameRecord (f : FrameS) (lap n frame length : Nat) (internal fallback over' : Bool) : List Word :=
  [pack [(f.taken.getD 0xFFFFFF, 0), (f.role, 24), (lap, 29), (1, 30)],
   pack [(f.phase, 0), (b2n internal, 4), (b2n fallback, 5), (b2n over', 6), (b2n f.reject.isSome, 7), (f.reject.getD 0, 8)],
   pack [(n % 2 ^ 16, 0)], BitVec.ofNat 32 frame, BitVec.ofNat 32 (frame / 2 ^ 32 % 2 ^ 16), BitVec.ofNat 32 length, 0#32, 0#32]

/-- The entries of the closed frame in order of ending, and its record. -/
def Dev.journal (d : Dev) (old : Dev) (ended : List Nat) (internal fallback : Bool) : Dev :=
  let us := ended.filterMap d.unit
  let d := us.foldl (fun d u => d.jrnlWrite (u.entry d.frm.lap old.lastTick)) d
  let d := if old.frm.opened then
      let ov := d.frm.overwrote
      let r := frameRecord old.frm d.frm.lap us.length old.frame (d.now - old.lastTick) internal fallback ov
      ({ d with frm := { d.frm with overwrote := false } }).jrnlWrite r
    else d
  -- a plan's units are kept until the last of them has its entry
  let done (u : WUnit) : Bool := d.units.all (fun v => v.origin != u.origin || v.seq != u.seq || (v.phase == 3 && !(d.endedQ.drop ended.length).contains v.key))
  { d with endedQ := d.endedQ.drop ended.length, units := d.units.filter (fun u => !done u) }

/-! ### Changes at the boundary (R57) -/

/-- Values in force: all as set, but a stash's while its frond or its lent area is in use (07 R245, R246). -/
def Dev.regsInForce (d : Dev) : Dev :=
  let hold (a : Nat) : Bool :=
    blk a == 5 && (
      let f := off a % 0x400 / 4
      d.units.any (fun u => u.busy && u.kind == 0 && (u.target == f || (0xC00 ≤ off a && u.lender == f && u.stash == 0))))
  let evb := (List.range 256).filter (fun f =>
    let r (b : Nat) : Bool := d.reg (b + 4 * f) != d.inF (b + 4 * f)
    r 0x04000400 || r 0x04000800 || r 0x04000C00)
  let new := d.regs.map (fun e => if hold e.1 then (e.1, d.inF e.1) else e)
  let d := { d with inForce := new }
  evb.foldl (fun d f => (d.modFrond f (fun x => { x with evHead := 0, evAck := 0, evNext := 0 })).setReg (0x04001400 + 4 * f) 0#32) d

/-- Rounding generators are loaded after a write of their seed (04 R115). -/
def Dev.seedLoad (d : Dev) : Dev :=
  (List.range 256).foldl (fun d f =>
    if (d.frond f).seedPend then
      d.modFrond f (fun x => { x with seed := d.reg (0x02000400 + 4 * f), seedPend := false, arrs := x.arrs.map (fun e => (e.1, { e.2 with gen := [] })) })
    else d) d

/-- Accepted unfreezes, window sets and bindings (03 R92, R93). -/
def Dev.windowBoundary (d : Dev) : Dev :=
  let d := d.win.pendUnfreeze.foldl (fun d m =>
    let d := d.release m
    if m < 0x100 then (d.clearFrond m).modFrond m (fun x => { x with store := [], storeP := [], len := 0 })
    else if m < 0x900 then (d.clearGemma (m - 0x100)).modGemma (m - 0x100) (fun x => { x with running := false, len := 0 }) else d) d
  let w := d.win
  let w := w.pendSet.foldl (fun (w : SecWin) e =>
    { w with win := ((List.range 64).zip e.2.2).foldl (fun m x => if x.2 == 0#32 then m.drop (e.1 * 64 + x.1) else m.put (e.1 * 64 + x.1) x.2) w.win,
             installed := if e.2.1 then (w.installed ++ [e.1]).eraseDups else w.installed.filter (fun s => s != e.1) }) w
  let w := w.pendBind.foldl (fun (w : SecWin) e => { w with bind := w.bind.put e.1 e.2 }) w
  { d with win := { w with pendSet := [], pendBind := [], pendUnfreeze := [] } }

/-- Rhizoids change mode or retire (08 R273), and the frame's failing rows are forgotten (08 R271). -/
def Dev.rhzBoundary (d : Dev) : Dev :=
  d.rhz.foldl (fun d e =>
    let f := e.1
    let r := d.rhiz f
    let d := d.setRhz f { r with pend := 0, out := false, laneRows := [], mode := if r.pend == 0 then r.mode else r.pend }
    if r.out then d.willRetire f else d) d

/-- Rows of accepted adds leave their bank's queue: the edit maps them (log 50). -/
def Dev.editBoundary (d : Dev) (bad : List Nat) : Dev :=
  let d := d.mem.edits.foldl (fun d e =>
    if e.1 then d.setBank e.2.1 { d.bank e.2.1 with queue := (d.bank e.2.1).queue.filter (· != e.2.2.1) } else d) d
  (d.applyEdits bad).remapAll bad

/-- Fronds and gemmas that are to retire do: the partition's seals and lines go (09 R303, 10 R344). -/
def Dev.retireBoundary (d : Dev) : Dev :=
  let d := d.fronds.foldl (fun d e =>
    if (d.frond e.1).pendRetire then
      let was := (d.frond e.1).retired
      let d := d.modFrond e.1 (fun x => { x with retired := true, pendRetire := false })
      if was then d else (d.sealRetire e.1).dropPart e.1 false
    else d) d
  d.gemmas.foldl (fun d e =>
    if (d.gemma e.1).pendRetire then d.modGemma e.1 (fun x => { x with retired := true, pendRetire := false }) else d) d

/-- A record whose moment is given (11 R382). -/
def Dev.raiseAs (d : Dev) (s : Nat) (r : ErrRec) : Dev :=
  if s == 0 then d.enterRec r
  else { d with err := { d.err with waiting := modify d.err.waiting s [] (fun l => l ++ [r]) } }

/-- LNK_TIMEOUT records of the closed frame; command rejections may be reported again (11 R382, 12 R403). -/
def Dev.portBoundary (d : Dev) : Dev :=
  (List.range 6).foldl (fun d p =>
    let x := d.port p
    let d := match x.expired with
      | some (n, f, ns) => d.raiseAs (portStack p) { cls := 0, kind := 4, src := p, code := 0x0A05, frame := f, ns := ns, detail := n }
      | none => d
    if x.expired.isSome || x.cmdErr then d.modPort p (fun x => { x with expired := none, cmdErr := false }) else d) d

/-- Every change of a frame boundary. `ran`: as ranFronds; `planned`: the closed frame ran a plan; its role and phase. -/
def Dev.boundary (d : Dev) (fs : Fuses) (ran : List Nat) (planned : Bool) (role phase : Nat) (env : TickEnv) : Dev × Fuses :=
  let d := ((d.regsInForce).seedLoad).windowBoundary
  let d := (d.rhzBoundary).editBoundary env.copyFail
  let d := { d with bridgeOff := (d.bridgeOff ++ d.bridgeFail).eraseDups, bridgeFail := [] }
  let d := (d.derates).rotBoundary
  let d := d.warmBoundary ran
  let d := d.domBoundary d.thm.warm
  -- a clamp's first step holds from this tick on (13 R441)
  let d := (List.range 56).foldl (fun d i =>
    if (d.dom i).clamp.isSome && (d.dom i).st == 4 && i % 14 < 12 then d.settleDom fs i else d) d
  let d := if planned && role < 4 && (d.inF pwrCtrl).getLsbD 24 then d.learn role phase env.measured else d
  let d := (d.pwrFrame).allocate env.measured
  let (d, fs) := d.fwBoundary fs
  ((d.rstBoundary).retireBoundary.portBoundary, fs)

/-! ### The tick (R57) -/

def tickCtrl : Nat := 0x01000000
def tickStatus : Nat := 0x01000004

/-- A tick at time t, from the internal generator or not, as a fallback or not. DESIGN CHOICE (log 64): the tick's own counts,
of carried units, empty frames and fallbacks, fall after the latch and so in the counters of the new frame. -/
def Dev.tickGo (d : Dev) (fs : Fuses) (t : Nat) (internal fallback : Bool) (env : TickEnv) : Dev × Fuses :=
  let d := { d with now := t }
  let ran := d.ranFronds
  let d := d.countIdle ran
  let d := { d with stat := { d.stat with shadow := d.stat.live, live := [] } }
  let d := (d.tickEnds).depFail d.units.length
  let old := d.tickCarry
  let ended := old.endedQ
  -- the new frame
  let frame := if old.frm.opened then (old.frame + 1) % 2 ^ 48 else old.frame
  let d := { old with frame := frame, lastTick := t }
  let fresh (e : Nat × PlanSlot) : Nat × PlanSlot := (e.1, { e.2 with reported := false })
  let d := { d with frm := { d.frm with opened := true, taken := none, reject := none, slots := d.frm.slots.map fresh } }
  let moved (i : Nat) : Bool := d.reg (0x01000010 + 8 * i) != d.inF (0x01000010 + 8 * i) || d.reg (0x01000014 + 8 * i) != d.inF (0x01000014 + 8 * i)
  let slots := [0, 1].filter moved
  let d := { d with inForce := [0x01000000, 0x01000010, 0x01000014, 0x01000018, 0x0100001C].foldl (fun m a => m.put a (d.reg a)) d.inForce }
  let d := slots.foldl (fun d i => d.zeroHeader i) d
  let d := d.sampleSlots
  let d := if d.frm.taken.isNone && (d.slot 0).st != 2 && (d.slot 1).st != 2 then d.inc (cMod 3) else d
  let d := if (d.reg tickCtrl).getLsbD 1 then { d with pin := { d.pin with tickOut := d.pin.tickOut + 1 } } else d
  let (d, fs) := d.boundary fs ran old.frm.taken.isSome old.frm.role old.frm.phase env
  (d.journal old ended internal fallback, fs)

/-! ### Sources of ticks (R36-R43, R541) -/

def Dev.srcInternal (d : Dev) : Bool := (d.inF tickCtrl).getLsbD 0
/-- P in ns, in force at the last tick. -/
def Dev.periodNs (d : Dev) : Nat := bf (d.inF tickCtrl) 24 8 * 1000

def Dev.setTick (d : Dev) (f : Word → Word) : Dev := d.setReg tickStatus (f (d.reg tickStatus))

/-- FRAME_TICK_EDGE: an edge that stays high for at least 10 ns, from stage 7 on. -/
def Dev.tickEdge (d : Dev) (fs : Fuses) (t high : Nat) (env : TickEnv) : Dev × Fuses :=
  let p := d.periodNs
  let f := d.frm
  let d1 := { d with now := max d.now t }
  if d.bup.stage != 7 || high < 10 || d.srcInternal || t < d.lastTick then (d, fs)
  else if f.opened && 2 * (t - d.lastTick) < p then (d1.inc (cMod 0), fs)
  else if f.standIn then
    let near := match f.lastEdge with
      | some e => decide (7 * p ≤ 8 * (t - e)) && decide (8 * (t - e) ≤ 9 * p)
      | none => false
    ({ d1 with frm := { f with lastEdge := some t, restore := f.restore || near } }, fs)
  else if d.lastTick + 4 * p < t then (d, fs)
  else (d1.setTick (fun w => w &&& 0xFFFFFFFE#32)).tickGo fs t false false env

/-- INTERNAL_TICK: the generator's tick, P after the last one, or at entry to stage 7. -/
def Dev.internalTick (d : Dev) (fs : Fuses) (t : Nat) (env : TickEnv) : Dev × Fuses :=
  let f := d.frm
  let due := if f.opened then d.lastTick + d.periodNs else f.entry7
  if d.bup.stage != 7 || !(d.srcInternal || f.standIn) || t != due then (d, fs)
  else
    -- SRC as it is in force from this tick on
    let src := (d.reg tickCtrl).getLsbD 0
    if f.standIn && (f.restore || src) then
      let d := { d with frm := { f with standIn := false, restore := false, lastEdge := none } }
      (d.setTick (fun w => (w &&& 0xFFFFFFFE#32) ||| (if src then 1#32 else 4#32))).tickGo fs t true false env
    else (d.setTick (fun w => (w &&& 0xFFFFFFFE#32) ||| (if src || f.standIn then 1#32 else 0#32))).tickGo fs t true false env

/-- FALLBACK_TICK: 4P after the last tick, or after entry to stage 7, with no edge accepted (R38, R39). -/
def Dev.fallbackTick (d : Dev) (fs : Fuses) (t : Nat) (env : TickEnv) : Dev × Fuses :=
  let f := d.frm
  if d.bup.stage != 7 || d.srcInternal || f.standIn || t != d.lastTick + 4 * d.periodNs then (d, fs)
  else
    let d := { d with frm := { f with standIn := !(d.reg tickCtrl).getLsbD 0, lastEdge := none, restore := false } }
    let d := d.setTick (fun w => w ||| 3#32)
    let (d, fs) := d.tickGo fs t true true env
    (((d.inc (cMod 1)).raise 0 { cls := 0, kind := 0, code := 0x0101 }), fs)

end Sys2Proof.Machine
end

