-- ==== Sys2Proof/Machine/Pins.lean ====
section
/-! DEFINITION. The pins: power and reset, sideband inputs, ALERT_N, the management bus and the test port (17, 12 R414), and
what follows every step. -/

namespace Sys2Proof.Machine

/-! ### Power and reset (R533-R535, 13 R422, 15 R495) -/

/-- The module runs: powered, out of reset, not tripped, and no double fault has stopped it. -/
def Dev.alive (d : Dev) : Bool := d.bup.powered && !d.pin.resetLow && !d.thm.tripped && !d.err.double

/-- A loss of power: every state is lost; the inputs' levels stay (R534). -/
def Dev.powerOff (d : Dev) : Dev :=
  let layers := (List.range 32).map (fun i => (i, { ({} : MemLayer) with epoch := d.mem.epochs }))
  let doms := (List.range 56).map (fun i => (i, { ({} : Dom) with st := 0 }))
  let pin : PinS := {}
  let e : Dev := {}
  { e with now := d.now, free := d.free, mem := { e.mem with layers := layers, epochs := d.mem.epochs }, pwr := { e.pwr with dom := doms },
           bup := { e.bup with powered := false }, sec := { e.sec with draws := d.sec.draws },
           pin := { pin with pwrEn := d.pin.pwrEn, strap := d.pin.strap, fellAt := d.pin.fellAt, vinBad := d.pin.vinBad,
                             resetLow := d.pin.resetLow, refclk := d.pin.refclk, flashSel := d.pin.flashSel } }

/-- Stage 1 is on: PGOOD rises, the strap is sampled, and stage 0 begins unless RESET_N is low (R533). -/
def Dev.powerOn (d : Dev) (strap : BitVec 3) (romOk : BitVec 4) (refclk : Bool) : Dev :=
  let d := { d with pin := { d.pin with strap := strap, refclk := refclk } }
  if d.pin.resetLow then d.freshBoot else d.boot romOk refclk

/-- PWR_EN has been low for 100 ms, or has not fallen yet (R534). -/
def Dev.mayRise (d : Dev) (t : Nat) : Bool := match d.pin.fellAt with
  | some f => decide (f + 100000000 ≤ t)
  | none => true

def Dev.enRise (d : Dev) (t : Nat) (strap : BitVec 3) (romOk : BitVec 4) (refclk : Bool) : Dev :=
  if d.pin.pwrEn then d
  else
    let ok := d.mayRise t && !d.pin.vinBad
    let d := { d with now := max d.now t, pin := { d.pin with pwrEn := true } }
    if ok then d.powerOn strap romOk refclk else d

/-- PWR_EN_HONOURED: a rise that came too early. -/
def Dev.enHonoured (d : Dev) (t : Nat) (strap : BitVec 3) (romOk : BitVec 4) (refclk : Bool) : Dev :=
  if d.pin.pwrEn && !d.bup.powered && d.pin.fellAt.isSome && d.mayRise t && !d.pin.vinBad then
    Dev.powerOn { d with now := max d.now t } strap romOk refclk
  else d

def Dev.enFall (d : Dev) (t : Nat) : Dev :=
  if !d.pin.pwrEn then d
  else Dev.powerOff { d with now := max d.now t, pin := { d.pin with pwrEn := false, fellAt := some t } }

/-- The input voltage, in mV, is below 42 V or above 58 V for long enough, or in a range that is reported. -/
def Dev.vinLow (d : Dev) (mv held : Nat) : Dev :=
  if mv < 42000 && 100000 ≤ held then Dev.powerOff { d with pin := { d.pin with vinBad := true } }
  else if d.alive && 42000 ≤ mv && mv < 44000 then d.vinErrors (mv / 10) else d

def Dev.vinHigh (d : Dev) (mv held : Nat) : Dev :=
  if 58000 < mv && 10000 ≤ held then Dev.powerOff { d with pin := { d.pin with vinBad := true } }
  else if d.alive && 56000 < mv && mv ≤ 58000 then d.vinErrors ((mv + 9) / 10) else d

/-- VIN_RISE: the input is in its operating range again. -/
def Dev.vinRise (d : Dev) (mv t : Nat) (romOk : BitVec 4) (refclk : Bool) : Dev :=
  if !d.pin.vinBad || mv < 44000 || 56000 < mv then d
  else
    let ok := d.pin.pwrEn && d.mayRise t
    let d := { d with now := max d.now t, pin := { d.pin with vinBad := false }, pwr := { d.pwr with vin := mv / 10 } }
    if ok then d.powerOn d.pin.strap romOk refclk else d

/-- RESET_N has been low for a time in ns: under 1 µs ignored; under 10 µs a reset or none; then a module reset, held. -/
def Dev.resetLow (d : Dev) (low t : Nat) : Dev :=
  if low < 1000 then d
  else
    let d := { d with now := max d.now t }
    let (d, v) := if low < 10000 then d.draw else (d, 1#64)
    if !v.getLsbD 0 then d
    else
      let d := { d with pin := { d.pin with resetLow := true } }
      if d.bup.powered then d.freshBoot else d

def Dev.resetHigh (d : Dev) (t : Nat) (romOk : BitVec 4) (refclk : Bool) : Dev :=
  if !d.pin.resetLow then d
  else
    let d := { d with now := max d.now t, pin := { d.pin with resetLow := false } }
    if d.bup.powered then d.boot romOk refclk else d

/-- STOP_ACTION = RESET: a stopped module resets (16 R513). -/
def Dev.stopAction (d : Dev) : Dev :=
  if d.bup.powered && !d.pin.resetLow && (d.err.double || d.bup.state == 2) && (d.reg 0x0E000000).getLsbD 3 then d.moduleReset else d

/-! ### Sideband inputs (R536, R540, R548) -/

def Dev.throttleOn (d : Dev) (t : Nat) : Dev :=
  if d.pwr.throttle then d
  else { d with now := max d.now t, pwr := { d.pwr with throttle := true, throttleUse := true },
                pin := { d.pin with throttleAt := some (max d.now t), throttleErr := false } }

/-- Released: the cap follows at the next frame boundary. -/
def Dev.throttleOff (d : Dev) (t : Nat) : Dev :=
  if !d.pwr.throttle then d
  else { d with now := max d.now t, pwr := { d.pwr with throttle := false }, pin := { d.pin with throttleAt := none } }

def Dev.throttleHeld (d : Dev) (t : Nat) : Dev :=
  match d.pin.throttleAt with
  | none => d
  | some a =>
    if d.pin.throttleErr || t < a + 10000000000 then d
    else Dev.raise { d with now := max d.now t, pin := { d.pin with throttleErr := true } } 0 { cls := 0, kind := 0, code := 0x0C07 }

def Dev.clockLoss (d : Dev) (held t : Nat) : Dev :=
  if held < 10000 || !d.pin.refclk then d
  else
    let d := { d with now := max d.now t, pin := { d.pin with refclk := false } }
    if d.atStage 0 then d.bupStop 2 0
    else if d.alive then (List.range 6).foldl (fun d p => d.portRetrain p) d else d

def Dev.clockBack (d : Dev) (held t : Nat) : Dev :=
  if held < 10000000 then d else { d with now := max d.now t, pin := { d.pin with refclk := true } }

/-! ### The management bus (R542-R544) -/

/-- The I3C target answers once stage 0 has passed. -/
def Dev.i3cUp (d : Dev) : Bool := d.bup.powered && !d.pin.resetLow && !(d.bup.stage == 0 && d.bup.state == 2)

def Dev.setPin (d : Dev) (f : PinS → PinS) : Dev := { d with pin := f d.pin }

/-- Control space as the target shows it. -/
def Dev.i3cWord (d : Dev) (fs : Fuses) (a : Nat) : Word :=
  if (blk a == 0 || blk a == 0x0C || blk a == 0x0D || blk a == 0x0E) && off a < 0x1000 then d.readReg fs a else 0#32

def Dev.i3cWrite (d : Dev) (bs : List Byte) : Dev :=
  if d.i3cUp && bs.length == 4 then d.setPin (fun p => { p with i3cAddr := leNat bs / 4 * 4 }) else d

def Dev.i3cRead (d : Dev) (fs : Fuses) (n : Nat) : Dev :=
  if !d.i3cUp then d
  else d.setPin (fun p => { p with i3cOut := (List.range n).map (fun i => d.i3cWord fs ((p.i3cAddr + 4 * i) % 2 ^ 32)),
                                   i3cAddr := (p.i3cAddr + 4 * n) % 2 ^ 32 })

/-- The provisional ID, most significant byte first: its low 32 bits are the serial number's. -/
def pid (fs : Fuses) : List Byte := [Config.i3cByte 0, Config.i3cByte 1] ++ (leBytes 4 fs.serial.toNat).reverse

def Dev.staticAddr (d : Dev) : Nat := 0x48 + d.pin.strap.toNat

/-- A common command that the target answers with bytes, at its dynamic address. -/
def Dev.i3cAnswer (d : Dev) (bs : List Byte) : Dev :=
  if d.i3cUp && d.pin.dyn != 0#7 then d.setPin (fun p => { p with i3cReply := bs }) else d

/-- SETDASA and ENTDAA give an address to a target that has none. -/
def Dev.setdasa (d : Dev) (static dyn : BitVec 7) : Dev :=
  if d.i3cUp && static.toNat == d.staticAddr && d.pin.dyn == 0#7 then d.setPin (fun p => { p with dyn := dyn }) else d

def Dev.entdaa (d : Dev) (fs : Fuses) (dyn : BitVec 7) : Dev :=
  if d.i3cUp && d.pin.dyn == 0#7 then
    d.setPin (fun p => { p with dyn := dyn, i3cReply := pid fs ++ [Config.i3cByte 2, Config.i3cByte 3] })
  else d

/-- An in-band interrupt goes out (R544); where no record is at ERR_ALERT_SEQ, its class is nothing's. -/
def Dev.raiseIbi (d : Dev) : Dev :=
  let (d, v) := d.draw
  let c := if d.err.alertSeq == 0 then v.toNat % 8 else d.err.alertCls
  let b := c + 8 * b2n (d.thm.coolState != 0 || d.err.double)
  d.setPin (fun p => { p with ibis := p.ibis + 1, ibiByte := b, ibiAt := d.now })

def Dev.ibiRetry (d : Dev) (t : Nat) : Dev :=
  if d.i3cUp && d.pin.ibi && d.pin.alert && 0 < d.pin.ibis && d.pin.ibiAt + 1000000 ≤ t then Dev.raiseIbi { d with now := max d.now t } else d

/-! ### The test port (R545, 12 R414) -/

def Dev.testUp (d : Dev) (level : Nat) : Bool := d.bup.powered && decide (level ≤ d.sec.level)

/-- IDCODE: version 1, part 0x7730, the identity code. -/
def Dev.jtagId (d : Dev) : Dev :=
  if d.bup.powered then d.setPin (fun p => { p with extest := false, tdo := pack [(Config.idCode.toNat, 0), (0x7730, 12), (1, 28)] }) else d

/-- BYPASS: the bypass register captures 0. -/
def Dev.jtagBypass (d : Dev) : Dev := if d.bup.powered then d.setPin (fun p => { p with extest := false, tdo := 0#32 }) else d

def Dev.jtagExtest (d : Dev) (drive : BitVec 40) : Dev :=
  if d.testUp 1 then d.setPin (fun p => { p with extest := true, drive := drive }) else d

/-- A control access: a read from OBSERVE on, a write at FULL. -/
def Dev.jtagControl (d : Dev) (fs : Fuses) (a : Word) (op : JtagOp) : Dev := match op with
  | .read =>
    if d.testUp 1 then
      let (d, w) := d.ctlRead fs 6 (a.toNat / 4 * 4)
      d.setPin (fun p => { p with tdo := w })
    else d
  | .write v => if d.testUp 2 then d.writeReg none (a.toNat / 4 * 4) 0xFFFFFFFF v.toNat else d

/-- A word of memory, without a window check; the data of a poisoned word is nothing's. -/
def Dev.jtagMemory (d : Dev) (a : Nat) (op : JtagOp) : Dev :=
  if !d.testUp 2 then d
  else match op with
    | .read =>
      let (d, st, g) := d.stipeRead (a / 64)
      let (d, w) := if st == 1 then (let (d, v) := d.draw; (d, v.setWidth 32)) else (d, gWord g (a % 64 / 4))
      d.setPin (fun p => { p with tdo := w })
    | .write v => d.stipeWords (a / 4 * 4) [v]

def Dev.jtagHalt (d : Dev) (s : Nat) : Dev :=
  if d.testUp 2 then d.setPin (fun p => { p with halted := (p.halted ++ [s]).eraseDups }) else d

/-- TRST_N low for a time in ns: the test logic is in reset. -/
def Dev.trstLow (d : Dev) (low : Nat) : Dev := if low < 1000 then d else d.setPin (fun p => { p with extest := false })

/-! ### What follows every step -/

/-- ALERT_N follows its conditions, and a new assertion raises an in-band interrupt (R539, R544, 16 R516). -/
def Dev.alertPin (d : Dev) : Dev :=
  let a := d.alerting
  if a == d.pin.alert then d
  else
    let d := d.setPin (fun p => { p with alert := a })
    if a && d.pin.ibi then d.raiseIbi else d

/-- Ports that are stopped go DOWN; a double fault powers the compute domains down as well (16 R513). -/
def Dev.stops (d : Dev) : Dev :=
  let d := if d.err.double then d.allDown else d
  ((List.range 6).filter d.portStopped).foldl (fun d p => if (d.port p).st == 0 then d else d.portDown p) d

/-- A run of the attention sequencer stops with its unit (06 R210). -/
def Dev.runStops (d : Dev) : Dev :=
  d.fronds.foldl (fun d e =>
    if (d.frond e.1).att.running && !d.units.any (fun u => u.phase == 1 && u.kind == 0 && u.target == e.1) then
      (d.modFrond e.1 (fun x => { x with att := { x.att with running := false } })).inc (cFrd e.1 29)
    else d) d

/-- What follows a step without a command of its own: requests leave, held ones are tried again, receive buffers are freed, resets that waited begin,
and outputs follow. -/
def Dev.finish (d : Dev) : Dev :=
  if !d.bup.powered then d
  else ((d.runStops.portSkip.pumpRemote.forwardHeld.freeBufs.rstFollow).stops).alertPin

end Sys2Proof.Machine
end

