-- ==== Sys2Proof/Machine/Act.lean ====
section
/-! DEFINITION. How a command acts on the module: its effect on the device, then what follows every step. -/

namespace Sys2Proof.Machine

/-- What a command answers. -/
abbrev Out := Host.Outcome State Fault Refusal

/-- The state once a command's own effect has left the device at d: what follows every step follows (log 21). -/
def State.ran (s : State) (d : Dev) : State := { s with dev := d.finish }

/-- A command of a running module. A module that is unpowered, held in reset, tripped or stopped by a double fault does
nothing (13 R422, 14 R465, 15 R495, 16 R513). -/
def onDev (f : Dev → Dev) (s : State) : Out := if s.dev.alive then .next (s.ran (f s.dev)) else .next s

/-- A command of a running module that may also blow fuses. -/
def onFuse (f : Dev → Fuses → Dev × Fuses) (s : State) : Out :=
  if s.dev.alive then
    let r := f s.dev s.fuse
    .next { s.ran r.1 with fuse := r.2 }
  else .next s

/-- A pin, the management bus or the test port, which act in every state of the module. -/
def onPin (f : Dev → Dev) (s : State) : Out := .next (s.ran (f s.dev))

end Sys2Proof.Machine
end

