-- ==== Sys2Proof/Machine/ExecCommands.lean ====
section
/-! DEFINITION. The meanings of commands over the links and of what they start (12, 15). -/

namespace Sys2Proof.Machine

/-- A command of one type, by its shared checks (12 R406); the row goes by the type. -/
def Dev.cmdRow (d : Dev) (fs : Fuses) (c : CmdPkt) (ty : Nat) (act : Dev → Dev × Fuses × Nat) : Dev × Fuses :=
  let r := d.cmdGo fs c ty act
  (r.1, r.2.1)

/-- SESSION_INIT (12 R407). -/
def execSessionInit (c : CmdPkt) (s : State) : Out :=
  onFuse (fun d fs => d.cmdRow fs c 0x01 (fun d => d.initGo fs c)) s

/-- SESSION_RESPONSE_WRITE (12 R407) for port p. -/
def execSessionResponseWrite (p : Fin 6) (s : State) : Out := onDev (fun d => d.responseWrite p) s

/-- ATTEST (12 R409). -/
def execAttest (c : CmdPkt) (s : State) : Out :=
  onFuse (fun d fs => d.cmdRow fs c 0x02 (fun d => d.attestGo fs c)) s

/-- ATTEST_REPORT_WRITE (12 R409) for port p. -/
def execAttestReportWrite (p : Fin 6) (s : State) : Out := onDev (fun d => d.reportWrite s.fuse p) s

/-- FW_UPDATE (12 R411). -/
def execFwUpdate (c : CmdPkt) (s : State) : Out :=
  onFuse (fun d fs => d.cmdRow fs c 0x10 (fun d => d.updateGo fs c)) s

/-- FW_VERIFY_END (12 R411). -/
def execFwVerifyEnd (s : State) : Out := onDev (fun d => d.verifyEnd s.fuse) s

/-- FW_BROADCAST_END (12 R411): the (receiver, block) pairs that are missing. -/
def execFwBroadcastEnd (missing : List (Nat × Nat)) (s : State) : Out := onDev (fun d => d.broadcastEnd missing) s

/-- FW_REPAIR_ROUND (12 R411): the pairs still missing after the round. -/
def execFwRepairRound (missing : List (Nat × Nat)) (s : State) : Out := onDev (fun d => d.repairRound missing) s

/-- CFG_WRITE (12 R406). -/
def execCfgWrite (c : CmdPkt) (s : State) : Out :=
  onFuse (fun d fs => d.cmdRow fs c 0x20 (fun d => d.cfgGo fs c)) s

/-- POWER_CAP (13 R433). -/
def execPowerCap (c : CmdPkt) (s : State) : Out :=
  onFuse (fun d fs => d.cmdRow fs c 0x21 (fun d => d.capGo fs c)) s

/-- KEY_OWNER_SET (12 R405); `blown`: the fuses took. -/
def execKeyOwnerSet (c : CmdPkt) (blown : Bool) (s : State) : Out :=
  onFuse (fun d fs => d.cmdRow fs c 0x30 (fun d => d.ownerGo fs c blown)) s

/-- KEY_VENDOR_REVOKE (12 R405). -/
def execKeyVendorRevoke (c : CmdPkt) (blown : Bool) (s : State) : Out :=
  onFuse (fun d fs => d.cmdRow fs c 0x31 (fun d => d.revokeGo fs c blown)) s

/-- UNFREEZE (03 R93). -/
def execUnfreeze (c : CmdPkt) (s : State) : Out :=
  onFuse (fun d fs => d.cmdRow fs c 0x40 (fun d => d.unfreezeGo fs c)) s

/-- RTMAP_EDIT (08 R555). -/
def execRtmapEdit (c : CmdPkt) (s : State) : Out :=
  onFuse (fun d fs => d.cmdRow fs c 0x50 (fun d => d.editGo fs c)) s

/-- FUSE_RETIRE (12 R405). -/
def execFuseRetire (c : CmdPkt) (blown : Bool) (s : State) : Out :=
  onFuse (fun d fs => d.cmdRow fs c 0x51 (fun d => d.retireGo fs c blown)) s

/-- WINDOW_SET (03 R92). -/
def execWindowSet (c : CmdPkt) (s : State) : Out :=
  onFuse (fun d fs => d.cmdRow fs c 0x60 (fun d => d.windowGo fs c)) s

/-- PORT_BIND (03 R92). -/
def execPortBind (c : CmdPkt) (s : State) : Out :=
  onFuse (fun d fs => d.cmdRow fs c 0x61 (fun d => d.bindGo fs c)) s

/-- HALF_LAYER_RESET (15 R496): RESET; the packet's level says which unit. -/
def execHalfLayerReset (c : CmdPkt) (s : State) : Out := onFuse (fun d fs => d.resetCmd fs c) s

/-- STACK_RESET (15 R496): RESET; the packet's level says which unit. -/
def execStackReset (c : CmdPkt) (s : State) : Out := onFuse (fun d fs => d.resetCmd fs c) s

/-- MODULE_RESET (15 R495): RESET; the packet's level says which unit. -/
def execModuleReset (c : CmdPkt) (s : State) : Out := onFuse (fun d fs => d.resetCmd fs c) s

/-- DEBUG_UNLOCK (12 R414). -/
def execDebugUnlock (c : CmdPkt) (s : State) : Out :=
  onFuse (fun d fs => d.cmdRow fs c 0x80 (fun d => d.unlockGo fs c)) s

/-- UNLISTED_CMD_TYPE (12 R405): a TYPE that no command has. -/
def execUnlistedCmdType (type : BitVec 16) (c : CmdPkt) (s : State) : Out :=
  onFuse (fun d fs => if cmdTypes.contains type.toNat then (d, fs) else d.cmdRow fs c type.toNat (fun d => (d, fs, 0))) s

end Sys2Proof.Machine
end

