-- ==== Sys2Proof/Machine/ExecFrames.lean ====
section
/-! DEFINITION. The meanings of ticks, plans and work units (02). -/

namespace Sys2Proof.Machine

/-- FRAME_TICK_EDGE (02 R37, R57): an edge on FRAME_TICK, at t, high for `high` ns. -/
def execFrameTickEdge (t high : Nat) (env : TickEnv) (s : State) : Out := onFuse (fun d fs => d.tickEdge fs t high env) s

/-- INTERNAL_TICK (02 R36): the internal generator's period expires. -/
def execInternalTick (t : Nat) (env : TickEnv) (s : State) : Out := onFuse (fun d fs => d.internalTick fs t env) s

/-- FALLBACK_TICK (02 R38): 4P pass without an accepted edge. -/
def execFallbackTick (t : Nat) (env : TickEnv) (s : State) : Out := onFuse (fun d fs => d.fallbackTick fs t env) s

/-- PLAN_COMMIT (02 R48): stipe 0 samples a slot's commit word. -/
def execPlanCommit (slot : Fin 2) (s : State) : Out := onDev (fun d => d.planCommit slot) s

/-- PLAN_CHECK_END (02 R50). -/
def execPlanCheckEnd (slot : Fin 2) (t : Nat) (s : State) : Out :=
  onDev (fun d => Dev.planTaken { d with now := max d.now t } slot) s

/-- UNIT_DISPATCH (02 R55): unit number u starts if it is ready and first in order. -/
def execUnitDispatch (u t : Nat) (s : State) : Out := onDev (fun d => d.dispatch u t) s

/-- UNIT_END (05 R165, R166): a stopped unit has drained. -/
def execUnitEnd (u t : Nat) (s : State) : Out := onDev (fun d => d.unitEndGo u t) s

end Sys2Proof.Machine
end

