-- ==== Sys2Proof/Machine/ExecFronds.lean ====
section
/-! DEFINITION. The meanings of a frond's instructions and of their ends (04, 05, 06). -/

namespace Sys2Proof.Machine

/-- NOP (05 R142). -/
def execNop (f : Fin 256) (s : State) : Out :=
  onDev (fun d => d.frondGo f (hasOp 0x00) (fun d _ _ => d.advance f)) s

/-- FEND (05 R164). -/
def execFend (f : Fin 256) (s : State) : Out :=
  onDev (fun d => d.frondGo f (hasOp 0x01) (fun d u _ => d.doFend f u)) s

/-- COMMIT (05 R164, 02 R62). -/
def execCommit (f : Fin 256) (s : State) : Out :=
  onDev (fun d => d.frondGo f (hasOp 0x02) (fun d u b => d.doCommit f u b)) s

/-- SALU (05 R145). -/
def execSalu (f : Fin 256) (s : State) : Out :=
  onDev (fun d => d.frondGo f (hasOp 0x08) (fun d _ b => d.doSalu f b)) s

/-- SLD (05 R148). -/
def execSld (f : Fin 256) (s : State) : Out :=
  onDev (fun d => d.frondGo f (hasOp 0x0A) (fun d u b => d.doSld f u b)) s

/-- SST (05 R148). -/
def execSst (f : Fin 256) (s : State) : Out :=
  onDev (fun d => d.frondGo f (hasOp 0x0B) (fun d u b => d.doSst f u b)) s

/-- SRD (05 R146), at t. -/
def execSrd (f : Fin 256) (t : Nat) (s : State) : Out :=
  onDev (fun d => d.frondGo f (hasOp 0x0C) (fun d u b => d.doSrd f t u b)) s

/-- BR (05 R147). -/
def execBr (f : Fin 256) (s : State) : Out :=
  onDev (fun d => d.frondGo f (hasOp 0x10) (fun d _ b => d.doBr f b)) s

/-- LOOP (05 R147). -/
def execLoop (f : Fin 256) (s : State) : Out :=
  onDev (fun d => d.frondGo f (hasOp 0x11) (fun d _ b => d.doLoop f b)) s

/-- WAITF (05 R139). -/
def execWaitf (f : Fin 256) (s : State) : Out :=
  onDev (fun d => d.frondGo f (hasOp 0x14) (fun d _ b => d.doWaitf f b)) s

/-- WAITM (05 R152). -/
def execWaitm (f : Fin 256) (s : State) : Out :=
  onDev (fun d => d.frondGo f (hasOp 0x15) (fun d u b => d.doWaitm f u b)) s

/-- WAITM_POLL (05 R152): the poll interval has passed. -/
def execWaitmPoll (f : Fin 256) (s : State) : Out := onDev (fun d => d.waitmPoll f) s

/-- SIG (05 R152). -/
def execSig (f : Fin 256) (s : State) : Out :=
  onDev (fun d => d.frondGo f (hasOp 0x16) (fun d u b => d.doSig f u b)) s

/-- FENCE (05 R152). -/
def execFence (f : Fin 256) (s : State) : Out :=
  onDev (fun d => d.frondGo f (hasOp 0x17) (fun d _ _ => d.doFence f)) s

/-- LDS (05 R148). -/
def execLds (f : Fin 256) (s : State) : Out :=
  onDev (fun d => d.frondGo f (hasOp 0x20) (fun d u b => d.doLds f u b)) s

/-- STS (05 R148). -/
def execSts (f : Fin 256) (s : State) : Out :=
  onDev (fun d => d.frondGo f (hasOp 0x21) (fun d u b => d.doSts f u b)) s

/-- ATOM (05 R153). -/
def execAtom (f : Fin 256) (s : State) : Out :=
  onDev (fun d => d.frondGo f (hasOp 0x22) (fun d u b => d.doAtom f u b)) s

/-- TOP (05 R155, R156). -/
def execTop (f : Fin 256) (s : State) : Out :=
  onDev (fun d => d.frondGo f (hasOp 0x30) (fun d _ b => d.checked f (checks (topCodes (d.frond f).classAhead (topF b)) false false []) (fun d => d.cqIssue f b 0#64))) s

/-- TZERO (04 R118). -/
def execTzero (f : Fin 256) (s : State) : Out :=
  onDev (fun d => d.frondGo f (hasOp 0x31) (fun d _ b => d.checked f (checks ([(fld b 12 2 == 3 || fld b 8 4 == 0, 1)]) false false []) (fun d => d.cqIssue f b 0#64))) s

/-- TMOVI (05 R157). -/
def execTmovi (f : Fin 256) (s : State) : Out :=
  onDev (fun d => d.frondGo f (hasOp 0x32) (fun d _ b => d.checked f (checks (tmoviCodes b) false false []) (fun d => d.cqIssue f b 0#64))) s

/-- TMOVO (05 R157). -/
def execTmovo (f : Fin 256) (s : State) : Out :=
  onDev (fun d => d.frondGo f (hasOp 0x33) (fun d _ b => d.checked f (checks (tmovoCodes (d.frond f).classAhead b) false false []) (fun d => d.cqIssue f b 0#64))) s

/-- TMOVR (05 R158): it takes s[IDX] at issue. -/
def execTmovr (f : Fin 256) (s : State) : Out :=
  onDev (fun d => d.frondGo f (hasOp 0x34) (fun d _ b =>
    let ix := fld b 30 6
    d.checked f (checks (tmovrCodes (d.frond f).classAhead b) (d.pendingReg f ix) ((d.frond f).pois ix) [])
      (fun d => d.cqIssue f b ((d.frond f).r ix)))) s

/-- TURN (05 R159). -/
def execTurn (f : Fin 256) (s : State) : Out :=
  onDev (fun d => d.frondGo f (hasOp 0x38) (fun d _ b => d.checked f (checks (turnCodes b) false false []) (fun d => d.cqIssue f b 0#64))) s

/-- ROW (05 R161, R162). -/
def execRow (f : Fin 256) (s : State) : Out :=
  onDev (fun d => d.frondGo f (hasOp 0x40) (fun d _ b => d.checked f (checks (rowCodes b) false false []) (fun d => d.cqIssue f b 0#64))) s

/-- TOPKR (05 R158). -/
def execTopkr (f : Fin 256) (s : State) : Out :=
  onDev (fun d => d.frondGo f (hasOp 0x41) (fun d _ b => d.checked f (checks (topkrCodes b) false false []) (fun d => d.cqIssue f b 0#64))) s

/-- ROWCFG (05 R160). -/
def execRowcfg (f : Fin 256) (s : State) : Out :=
  onDev (fun d => d.frondGo f (hasOp 0x42) (fun d _ b => d.checked f (checks ([]) false false []) (fun d => d.cqIssue f b 0#64))) s

/-- COMPUTE_INSTRUCTION_END (05 R139): the queue's instruction with issue number n ends. -/
def execComputeInstructionEnd (f : Fin 256) (n : Nat) (s : State) : Out := onDev (fun d => d.cqEnd f n) s

/-- STREAM_END (05 R139): transfer x, whose last piece has been delivered, completes. -/
def execStreamEnd (x : Nat) (s : State) : Out :=
  onDev (fun d => match d.xfer x with
    | some xf => d.streamEnd xf
    | none => d) s

/-- ATT_SETUP (05 R163): ATT with every SUB but 1. -/
def execAttSetup (f : Fin 256) (s : State) : Out :=
  onDev (fun d => d.frondGo f (fun b => hasOp 0x48 b && fld b 8 2 != 1) (fun d u b => d.doAttSetup f u b)) s

/-- ATT_RUN (06 R200): ATT with SUB 1. -/
def execAttRun (f : Fin 256) (s : State) : Out :=
  onDev (fun d => d.frondGo f (fun b => hasOp 0x48 b && fld b 8 2 == 1) (fun d _ b => d.doAttRun f b)) s

/-- ATT_ITEM_END (06 R201): the item in progress completes. -/
def execAttItemEnd (f : Fin 256) (s : State) : Out := onDev (fun d => d.attItemEnd f) s

end Sys2Proof.Machine
end

