-- ==== Sys2Proof/Machine/ExecGemmas.lean ====
section
/-! DEFINITION. The meanings of a gemma's instructions and of their ends (10). -/

namespace Sys2Proof.Machine

/-- GEMMA_BASE_INSTRUCTION (10 R311): the base instructions of RV32IMFC. -/
def execGemmaBaseInstruction (g : Fin 2048) (s : State) : Out :=
  onDev (fun d => d.gemGo g (fun _ k => k == .base) (fun d _ i => d.gemBase g i)) s

/-- GEMMA_ECALL (10 R311, R333): ECALL, EBREAK, MRET or WFI raises ECALL. -/
def execGemmaEcall (g : Fin 2048) (s : State) : Out :=
  onDev (fun d => d.gemGo g (fun _ k => k == .ecall) (fun d _ _ => d.gemExc g 2 (d.gemma g).pc 0)) s

/-- GEMMA_CSR_ACCESS (10 R322). -/
def execGemmaCsrAccess (g : Fin 2048) (s : State) : Out :=
  onDev (fun d => d.gemGo g (fun _ k => k == .csr) (fun d u i => d.gemCsrOp g u i)) s

/-- GB.LD (10 R319, R326). -/
def execGbLd (g : Fin 2048) (tries : List ReadTry) (s : State) : Out :=
  onDev (fun d => d.gemGo g (fun i k => k == .transfer && i.f3 == 0) (fun d u i => d.doGbLd g u i tries)) s

/-- GB.ST (10 R319, R326). -/
def execGbSt (g : Fin 2048) (tries : List WriteTry) (s : State) : Out :=
  onDev (fun d => d.gemGo g (fun i k => k == .transfer && i.f3 == 1) (fun d u i => d.doGbSt g u i tries)) s

/-- GB.FILL (10 R319, R326). -/
def execGbFill (g : Fin 2048) (tries : List WriteTry) (s : State) : Out :=
  onDev (fun d => d.gemGo g (fun i k => k == .transfer && i.f3 == 2) (fun d u i => d.doGbFill g u i tries)) s

/-- GB.CRD (10 R319, R336). -/
def execGbCrd (g : Fin 2048) (s : State) : Out :=
  onDev (fun d => d.gemGo g (fun i k => k == .transfer && i.f3 == 3) (fun d u i => d.doGbC g u i false)) s

/-- GB.CWR (10 R319, R336). -/
def execGbCwr (g : Fin 2048) (s : State) : Out :=
  onDev (fun d => d.gemGo g (fun i k => k == .transfer && i.f3 == 4) (fun d u i => d.doGbC g u i true)) s

/-- GB.ATOM (10 R319). -/
def execGbAtom (g : Fin 2048) (s : State) : Out :=
  onDev (fun d => d.gemGo g (fun i k => k == .transfer && i.f3 == 5) (fun d u i => d.doGbAtom g u i)) s

/-- GB.WAIT (10 R319). -/
def execGbWait (g : Fin 2048) (s : State) : Out :=
  onDev (fun d => d.gemGo g (fun i k => k == .transfer && i.f3 == 6) (fun d _ i => d.doGbWait g i)) s

/-- GV.LD (10 R320, R324). -/
def execGvLd (g : Fin 2048) (s : State) : Out :=
  onDev (fun d => d.gemGo g (fun i k => k == .vector && i.f7 == 0) (fun d _ i => d.doGvLd g i)) s

/-- GV.ST (10 R320, R324). -/
def execGvSt (g : Fin 2048) (s : State) : Out :=
  onDev (fun d => d.gemGo g (fun i k => k == .vector && i.f7 == 1) (fun d _ i => d.doGvSt g i)) s

/-- GV.DOT (10 R320, R324). -/
def execGvDot (g : Fin 2048) (s : State) : Out :=
  onDev (fun d => d.gemGo g (fun i k => k == .vector && i.f7 == 2) (fun d _ i => d.doGvDot g i)) s

/-- GV.AXPY (10 R320, R324). -/
def execGvAxpy (g : Fin 2048) (s : State) : Out :=
  onDev (fun d => d.gemGo g (fun i k => k == .vector && i.f7 == 3) (fun d _ i => d.doGvAxpy g i)) s

/-- GV.MINADD (10 R320, R324). -/
def execGvMinadd (g : Fin 2048) (s : State) : Out :=
  onDev (fun d => d.gemGo g (fun i k => k == .vector && i.f7 == 4) (fun d _ i => d.doGvMinadd g i)) s

/-- GV.MAXADD (10 R320, R324). -/
def execGvMaxadd (g : Fin 2048) (s : State) : Out :=
  onDev (fun d => d.gemGo g (fun i k => k == .vector && i.f7 == 5) (fun d _ i => d.doGvMaxadd g i)) s

/-- GV.MAC (10 R320, R324). -/
def execGvMac (g : Fin 2048) (s : State) : Out :=
  onDev (fun d => d.gemGo g (fun i k => k == .vector && i.f7 == 6) (fun d _ i => d.doGvMac g i)) s

/-- GV.SCAL (10 R320, R324). -/
def execGvScal (g : Fin 2048) (s : State) : Out :=
  onDev (fun d => d.gemGo g (fun i k => k == .vector && i.f7 == 7) (fun d _ i => d.doGvScal g i)) s

/-- GV.ZERO (10 R320, R324). -/
def execGvZero (g : Fin 2048) (s : State) : Out :=
  onDev (fun d => d.gemGo g (fun i k => k == .vector && i.f7 == 8) (fun d _ i => d.doGvZero g i)) s

/-- GV.RSUM (10 R320, R324). -/
def execGvRsum (g : Fin 2048) (s : State) : Out :=
  onDev (fun d => d.gemGo g (fun i k => k == .vector && i.f7 == 9) (fun d _ i => d.doGvRsum g i)) s

/-- GV.RMIN (10 R320, R324). -/
def execGvRmin (g : Fin 2048) (s : State) : Out :=
  onDev (fun d => d.gemGo g (fun i k => k == .vector && i.f7 == 10) (fun d _ i => d.doGvRmin g i)) s

/-- GV.RMAX (10 R320, R324). -/
def execGvRmax (g : Fin 2048) (s : State) : Out :=
  onDev (fun d => d.gemGo g (fun i k => k == .vector && i.f7 == 11) (fun d _ i => d.doGvRmax g i)) s

/-- GV.ARGMIN (10 R320, R324). -/
def execGvArgmin (g : Fin 2048) (s : State) : Out :=
  onDev (fun d => d.gemGo g (fun i k => k == .vector && i.f7 == 12) (fun d _ i => d.doGvArgmin g i)) s

/-- GV.ARGMAX (10 R320, R324). -/
def execGvArgmax (g : Fin 2048) (s : State) : Out :=
  onDev (fun d => d.gemGo g (fun i k => k == .vector && i.f7 == 13) (fun d _ i => d.doGvArgmax g i)) s

/-- GB.COMMIT (10 R321, R332): the ID stands in bits 31 to 16. -/
def execGbCommit (g : Fin 2048) (s : State) : Out :=
  onDev (fun d => d.gemGo g (fun i k => k == .control && i.f3 == 0) (fun d u i => d.doGbCommit g u (i.f7 * 512 + i.rs2 * 16 + i.rs1 / 2) (i.rd == 0 && i.rs1 % 2 == 0))) s

/-- GB.FEND (10 R321, R332). -/
def execGbFend (g : Fin 2048) (s : State) : Out :=
  onDev (fun d => d.gemGo g (fun i k => k == .control && i.f3 == 1) (fun d u i => d.doGbFend g u (i.rd == 0 && i.rs1 == 0 && i.rs2 == 0 && i.f7 == 0))) s

/-- GB.SIG (10 R321). -/
def execGbSig (g : Fin 2048) (s : State) : Out :=
  onDev (fun d => d.gemGo g (fun i k => k == .control && i.f3 == 2) (fun d u i => d.doGbSig g u i)) s

/-- GB.WAITM (10 R321). -/
def execGbWaitm (g : Fin 2048) (s : State) : Out :=
  onDev (fun d => d.gemGo g (fun i k => k == .control && i.f3 == 3) (fun d u i => d.doGbWaitm g u i)) s

/-- GB.INFL (10 R329). -/
def execGbInfl (g : Fin 2048) (s : State) : Out :=
  onDev (fun d => d.gemGo g (fun i k => k == .control && i.f3 == 4) (fun d _ i => d.doGbInfl g i)) s

/-- GB.CRC (10 R321). -/
def execGbCrc (g : Fin 2048) (s : State) : Out :=
  onDev (fun d => d.gemGo g (fun i k => k == .control && i.f3 == 5) (fun d _ i => d.doGbCrc g i)) s

/-- FEXP2 (10 R324). -/
def execFexp2 (g : Fin 2048) (s : State) : Out :=
  onDev (fun d => d.gemGo g (fun i k => k == .control && i.f3 == 6) (fun d _ i => d.doFexp2 g i)) s

/-- GB.FENCE (10 R321). -/
def execGbFence (g : Fin 2048) (s : State) : Out :=
  onDev (fun d => d.gemGo g (fun i k => k == .control && i.f3 == 7) (fun d _ i => d.doGbFence g i (i.rd == 0 && i.rs1 == 0 && i.rs2 == 0 && i.f7 == 0))) s

/-- GEMMA_TRANSFER_END (10 R319, R335): the ready pieces of transfer x are delivered, and it ends if none is left. A FILL
unit's transfer, which no program issued, goes on with its next piece of a bank. -/
def execGemmaTransferEnd (g : Fin 2048) (x : Nat) (s : State) : Out :=
  onDev (fun d => d.transferEnd g x) s

/-- GEMMA_COMMIT_BARRIER (10 R332) of unit u. -/
def execGemmaCommitBarrier (u : Nat) (s : State) : Out := onDev (fun d => d.gemBarrier u) s

/-- CLAIM_END (10 R328): the gemma's claims in a local bank end. -/
def execClaimEnd (g : Fin 2048) (bank : Fin 4) (s : State) : Out := onDev (fun d => d.claimEnd g bank) s

/-- GB_WAITM_POLL (10 R321): the poll interval has passed. -/
def execGbWaitmPoll (g : Fin 2048) (s : State) : Out := onDev (fun d => d.gemPoll g) s

end Sys2Proof.Machine
end

