-- ==== Sys2Proof/Machine/ExecHost.lean ====
section
/-! DEFINITION. The meanings of register writes, seals, resets in progress, errors and the sweep (00, 10, 14, 15, 16). -/

namespace Sys2Proof.Machine

/-- FROND_RESET (15 R502): a write of BUP_FROND_RESET. -/
def execFrondReset (p : Fin 6) (v : Word) (t : Nat) (s : State) : Out :=
  onDev (fun d => Dev.portWrite { d with now := max d.now t } p 0x10 v) s

/-- RESET_DRAIN_END (15 R496); level 0 frond, 1 half-layer, 2 stack. -/
def execResetDrainEnd (level : Fin 4) (unit : Nat) (s : State) : Out := onDev (fun d => d.rstDrainEnd level unit) s

/-- RESET_WRITEBACK_END (15 R496). -/
def execResetWritebackEnd (level : Fin 4) (unit : Nat) (tries : List WriteTry) (s : State) : Out :=
  onDev (fun d => d.rstWritebackEnd level unit tries) s

/-- RESET_REINIT_END (15 R496): the units found bad. -/
def execResetReinitEnd (level : Fin 4) (unit : Nat) (bad : List BadUnit) (s : State) : Out :=
  onDev (fun d => d.rstReinitEnd s.fuse level unit bad) s

/-- CONFIG_LOCK (15 R483): a write of BUP_CTRL. -/
def execConfigLock (p : Fin 6) (v : Word) (s : State) : Out := onDev (fun d => d.portWrite p 4 v) s

/-- LNK_PORT_RETRAIN (11 R391): a write of port q's control register. -/
def execLnkPortRetrain (p q : Fin 6) (v : Word) (t : Nat) (s : State) : Out :=
  onDev (fun d => Dev.portWrite { d with now := max d.now t } p (portReg q 0) v) s

/-- SEAL_CMD with a command and a space (10 R347). -/
def sealWordOf (cmd : Nat) (interleaved : Bool) : Word := pack [(cmd, 0), (b2n interleaved, 3)]

/-- SEAL (10 R342). -/
def execSealSet (p : Fin 6) (interleaved : Bool) (s : State) : Out :=
  onDev (fun d => d.portWrite p (sealReg p 12) (sealWordOf 1 interleaved)) s

/-- UNSEAL (10 R342). -/
def execSealClear (p : Fin 6) (interleaved : Bool) (s : State) : Out :=
  onDev (fun d => d.portWrite p (sealReg p 12) (sealWordOf 2 interleaved)) s

/-- RESEAL (10 R343). -/
def execReseal (p : Fin 6) (interleaved : Bool) (s : State) : Out :=
  onDev (fun d => d.portWrite p (sealReg p 12) (sealWordOf 3 interleaved)) s

/-- SEAL_VERIFY (10 R343). -/
def execSealVerify (p : Fin 6) (interleaved : Bool) (s : State) : Out :=
  onDev (fun d => d.portWrite p (sealReg p 12) (sealWordOf 4 interleaved)) s

/-- SEAL_QUERY (10 R342). -/
def execSealQuery (p : Fin 6) (interleaved : Bool) (s : State) : Out :=
  onDev (fun d => d.portWrite p (sealReg p 12) (sealWordOf 5 interleaved)) s

/-- SEAL_CMD_BAD_COMMAND (10 R342): CMD 0, 6 or 7. -/
def execSealCmdBadCommand (p : Fin 6) (cmd : Fin 8) (s : State) : Out :=
  onDev (fun d => if 1 ≤ cmd.val && cmd.val ≤ 5 then d else d.portWrite p (sealReg p 12) (sealWordOf cmd false)) s

/-- SEAL_CRC_END (10 R343): the gemma has read the page of port p's command. -/
def execSealCrcEnd (p : Fin 6) (tries : List ReadTry) (s : State) : Out := onDev (fun d => d.sealCrcEnd p tries) s

/-- ROTATION_REQUEST (14 R469): GO in THM_ROT_REQ. -/
def execRotationRequest (a b : Fin 256) (copyMib : Nat) (s : State) : Out :=
  onDev (fun d => d.writeReg none 0x0D000708 0xFFFFFFFF (a.val + b.val * 2 ^ 8 + min copyMib 4096 * 2 ^ 16 + 2 ^ 29)) s

/-- ROTATION_COPY_END (14 R469): the words whose cells fail parity as the partitions are exchanged. -/
def execRotationCopyEnd (copyFail : List Nat) (s : State) : Out := onDev (fun d => d.rotCopyEnd copyFail) s

/-- ERR_LOG_ACK_WRITE (16 R516). -/
def execErrLogAckWrite (p : Fin 6) (v : Word) (s : State) : Out := onDev (fun d => d.portWrite p 0x0E00001C v) s

/-- STAT_LIVE_READ (16 R519): a port (0-5) or the test port (6) reads word 0 of a counter's live copy. -/
def execStatLiveRead (reader : Fin 7) (counter : Nat) (s : State) : Out := onDev (fun d => (d.statLive reader counter 0).1) s

/-- REGISTER_WRITE (00 R5). -/
def execRegisterWrite (p : Fin 6) (addr : Word) (v : Word) (s : State) : Out := onDev (fun d => d.portWrite p addr.toNat v) s

/-- ERROR_HANDLING (16 R511): the handling of the innermost record ends, or the next is selected. -/
def execErrorHandling (t : Nat) (s : State) : Out := onDev (fun d => Dev.handled { d with now := max d.now t }) s

/-- STOP_ACTION_RESET (16 R513). -/
def execStopActionReset (s : State) : Out := onPin (fun d => d.stopAction) s

/-- SWEEP_SLICE (16 R521-R523). -/
def execSweepSlice (item : SweepItem) (s : State) : Out := onDev (fun d => d.sweepSlice item) s

/-- COVERAGE_LATE (16 R524). -/
def execCoverageLate (t : Nat) (s : State) : Out := onDev (fun d => d.coverageLate t) s

/-- ERROR_RECORD_FORWARD (16 R506): the records of stack k reach stipe 0. -/
def execErrorRecordForward (k : Fin 4) (s : State) : Out := onDev (fun d => d.forwardRecs k) s

end Sys2Proof.Machine
end

