-- ==== Sys2Proof/Machine/ExecLinks.lean ====
section
/-! DEFINITION. The meanings of what arrives on a link port, and of its timers (11). -/

namespace Sys2Proof.Machine

/-- READ_REQUEST (11 R373, R380): a packet that is neither a WRITE nor an ATOMIC; commands for this module have rows of
their own. -/
def execReadRequest (p : Fin 6) (r : ReqHdr) (t : Nat) (s : State) : Out :=
  onDev (fun d => if r.pkt == 2#4 || r.pkt == 3#4 then d else d.request s.fuse p r t) s

/-- WRITE_REQUEST (11 R373). -/
def execWriteRequest (p : Fin 6) (r : ReqHdr) (t : Nat) (s : State) : Out :=
  onDev (fun d => if r.pkt == 2#4 then d.request s.fuse p r t else d) s

/-- ATOMIC_REQUEST (11 R373). -/
def execAtomicRequest (p : Fin 6) (r : ReqHdr) (t : Nat) (s : State) : Out :=
  onDev (fun d => if r.pkt == 3#4 then d.request s.fuse p r t else d) s

/-- COMPLETION (11 R375, R382). -/
def execCompletion (p : Fin 6) (c : CplHdr) (t : Nat) (s : State) : Out := onDev (fun d => d.completion p c t) s

/-- TRANSACTION_TIMEOUT (11 R382). -/
def execTransactionTimeout (p : Fin 6) (rsn : BitVec 48) (t : Nat) (s : State) : Out := onDev (fun d => d.timeout p rsn.toNat t) s

/-- FEC_BLOCK_RECEIVE (11 R354-R357, R370): the 10-bit symbols that each lane of the group received. -/
def execFecBlockReceive (p : Fin 6) (a b : List (List Nat)) (s : State) : Out := onDev (fun d => d.fecBlock p a b) s

/-- ALIGNMENT_BLOCK (11 R356, R370). -/
def execAlignmentBlock (p : Fin 6) (found : BitVec 8) (s : State) : Out := onDev (fun d => d.alignment p found) s

/-- A flit arrives whole: one that fails its CRC by any of the three rows, a good one by the row of its TYPE. -/
def Dev.flitRow (d : Dev) (p : Nat) (flit : List Byte) (own : Nat → Bool) : Dev :=
  let bad := flit.length != 256 || (crc64 (flit.take 248)).toNat != atBytes flit 248 8
  if bad || own (atBytes flit 0 4 % 16) then d.rxFlit p flit (fun d => d.endSession p) else d

/-- DATA_FLIT (11 R362-R364): TYPE 1, or one that is no type. -/
def execDataFlit (p : Fin 6) (flit : List Byte) (s : State) : Out := onDev (fun d => d.flitRow p flit (fun t => t != 0 && t != 2)) s

/-- NULL_FLIT (11 R359). -/
def execNullFlit (p : Fin 6) (flit : List Byte) (s : State) : Out := onDev (fun d => d.flitRow p flit (fun t => t == 0)) s

/-- REPLAY_TIMEOUT (11 R363). -/
def execReplayTimeout (p : Fin 6) (t : Nat) (s : State) : Out := onDev (fun d => d.replayTimeout p t) s

/-- HELLO (11 R371). -/
def execHello (p : Fin 6) (flit : List Byte) (t : Nat) (s : State) : Out :=
  onDev (fun d => Dev.flitRow { d with now := max d.now t } p flit (fun t => t == 2)) s

/-- TRAINING_END (11 R366, R394): the lanes that trained, and their equaliser settings. -/
def execTrainingEnd (p : Fin 6) (lanes : BitVec 8) (fast : Bool) (settings : List Word) (t : Nat) (s : State) : Out :=
  onDev (fun d => d.trainingEnd p lanes fast settings t) s

/-- QUALIFY_END (11 R368): the lanes that qualified. -/
def execQualifyEnd (p : Fin 6) (lanes : BitVec 8) (t : Nat) (s : State) : Out := onDev (fun d => d.qualifyEnd p lanes t) s

/-- RETRAIN_CHECK_END (11 R369). -/
def execRetrainCheckEnd (p : Fin 6) (lanes : BitVec 8) (settings : List Word) (t : Nat) (s : State) : Out :=
  onDev (fun d => d.retrainEnd p lanes settings t) s

/-- RETRAIN_TIMEOUT (11 R366). -/
def execRetrainTimeout (p : Fin 6) (t : Nat) (s : State) : Out := onDev (fun d => d.retrainTimeout p t) s

/-- DOWN_TIMEOUT (11 R366). -/
def execDownTimeout (p : Fin 6) (t : Nat) (s : State) : Out := onDev (fun d => d.downTimeout p t) s

end Sys2Proof.Machine
end

