-- ==== Sys2Proof/Machine/ExecMemory.lean ====
section
/-! DEFINITION. The meanings of accesses on their way: transfers, home halves, banks and drains (03, 08, 09). -/

namespace Sys2Proof.Machine

/-- A piece that is ready goes back to its master: to a frond, a gemma, a copy engine or a port. -/
def Dev.deliver (d : Dev) (x : Xfer) (r : XGr) : Dev :=
  if x.mid < 0x100 then (if x.kind.isRead then d.frondDeliver x r else d.frondLanded x r)
  else if x.mid < 0x900 then (if x.kind.isRead then d.gemDeliver x r else d.gemLanded x r)
  else if x.mid < 0x910 then (if x.kind.isRead then d.copyDeliver x r else d.copyLanded x r)
  else d.portDeliver x r

/-- Piece i of transfer x, if it is ready and the transfer reads or writes as the command says. -/
def Dev.deliverPiece (d : Dev) (x i : Nat) (read : Bool) : Dev :=
  match d.xfer x with
  | some xf =>
    if xf.kind.isRead != read then d
    else match xf.gr.find? (fun r => r.i == i && r.stage == 1) with
      | some r => d.deliver xf r
      | none => d
  | none => d

/-- READ_DATA_RETURN (05 R154). -/
def execReadDataReturn (x i : Nat) (s : State) : Out := onDev (fun d => d.deliverPiece x i true) s

/-- WRITE_LANDED (09 R293). -/
def execWriteLanded (x i : Nat) (s : State) : Out := onDev (fun d => d.deliverPiece x i false) s

/-- FREEZE_DRAIN_END (03 R90, R96): master m's work in flight has drained. -/
def execFreezeDrainEnd (m : BitVec 12) (t : Nat) (s : State) : Out :=
  onDev (fun d => Dev.drainEnd { d with now := max d.now t } m.toNat) s

/-- RHIZOID_READ (08 R254, R264). -/
def execRhizoidRead (x : Nat) (tr : ReadTry) (s : State) : Out :=
  onDev (fun d => match d.xfer x with
    | some xf => d.rhizoidRead xf tr
    | none => d) s

/-- RHIZOID_WRITE (08 R254, R262, R266). -/
def execRhizoidWrite (x : Nat) (tr : WriteTry) (s : State) : Out :=
  onDev (fun d => match d.xfer x with
    | some xf => d.rhizoidWrite xf tr
    | none => d) s

/-- CACHE_READ (09 R290). -/
def execCacheRead (x : Nat) (flt : CacheFault) (s : State) : Out :=
  onDev (fun d => match d.xfer x with
    | some xf => d.cacheGo xf 0 flt
    | none => d) s

/-- CACHE_WRITE (09 R290). -/
def execCacheWrite (x : Nat) (flt : CacheFault) (s : State) : Out :=
  onDev (fun d => match d.xfer x with
    | some xf => d.cacheGo xf 1 flt
    | none => d) s

/-- CACHE_ATOMIC (09 R304). -/
def execCacheAtomic (x : HomeTry) (s : State) : Out :=
  onDev (fun d => match d.xfer x.x with
    | some xf =>
      if d.mayPerform xf && d.sigFails xf then (d.endXfer x.x).stopUnit xf.unit 7 0 else d.cacheGo xf 2 x.flt
    | none => d) s

/-- FILL_RETURN (09 R297). -/
def execFillReturn (h : Fin 32) (line : Nat) (tries : FillTry) (s : State) : Out :=
  onDev (fun d => d.fillReturn h line tries.reads tries.flt) s

/-- EVICTION_WRITEBACK_ISSUE (09 R295). -/
def execEvictionWritebackIssue (h : Fin 32) (line : Nat) (s : State) : Out := onDev (fun d => d.evictIssue h line) s

/-- EVICTION_WRITEBACK_LANDED (09 R295). -/
def execEvictionWritebackLanded (h : Fin 32) (line : Nat) (tries : List WriteTry) (s : State) : Out :=
  onDev (fun d => d.evictLanded h line tries) s

/-- REFRESH_COMMAND (08 R257). -/
def execRefreshCommand (bank : Fin 8192) (t : Nat) (s : State) : Out := onDev (fun d => d.refresh bank t) s

end Sys2Proof.Machine
end

