-- ==== Sys2Proof/Machine/ExecPins.lean ====
section
/-! DEFINITION. The meanings of bring-up, pins, the management bus and the test port (15, 17, 12 R414). -/

namespace Sys2Proof.Machine

/-- PWR_EN_RISE (17 R533): the strap, the stipes whose self-check passes, and whether REFCLK locks. -/
def execPwrEnRise (t : Nat) (strap : BitVec 3) (romOk : BitVec 4) (refclk : Bool) (s : State) : Out :=
  onPin (fun d => d.enRise t strap romOk refclk) s

/-- PWR_EN_FALL (17 R534). -/
def execPwrEnFall (t : Nat) (s : State) : Out := onPin (fun d => d.enFall t) s

/-- PWR_EN_HONOURED (17 R534). -/
def execPwrEnHonoured (t : Nat) (strap : BitVec 3) (romOk : BitVec 4) (refclk : Bool) (s : State) : Out :=
  onPin (fun d => d.enHonoured t strap romOk refclk) s

/-- RESET_N_ASSERT (17 R535, 15 R495): low for `low` ns. -/
def execResetNAssert (low t : Nat) (s : State) : Out := onPin (fun d => d.resetLow low t) s

/-- RESET_N_RELEASE (17 R533, 15 R495). -/
def execResetNRelease (t : Nat) (romOk : BitVec 4) (refclk : Bool) (s : State) : Out := onPin (fun d => d.resetHigh t romOk refclk) s

/-- VIN_UNDERVOLTAGE (13 R422): the input in mV, for `held` ns. -/
def execVinUndervoltage (mv held : Nat) (s : State) : Out := onPin (fun d => d.vinLow mv held) s

/-- VIN_OVERVOLTAGE (13 R422). -/
def execVinOvervoltage (mv held : Nat) (s : State) : Out := onPin (fun d => d.vinHigh mv held) s

/-- VIN_RISE (13 R422). -/
def execVinRise (mv t : Nat) (romOk : BitVec 4) (refclk : Bool) (s : State) : Out := onPin (fun d => d.vinRise mv t romOk refclk) s

/-- CONFIG_IMAGE_LOAD (15 R486): which copies' reads fail. -/
def execConfigImageLoad (readFail : BitVec 2) (s : State) : Out := onDev (fun d => d.stage1 s.fuse s.flash readFail) s

/-- FUSE_MAP_LOAD (15 R489, R490): the stacks whose base self-test passes; for each region the copies that read well. -/
def execFuseMapLoad (selfTest : BitVec 4) (copies : List (Fin 3)) (s : State) : Out := onDev (fun d => d.stage2 s.fuse selfTest copies) s

/-- MEMORY_BRINGUP (15 R493). -/
def execMemoryBringup (env : MemTestEnv) (s : State) : Out := onDev (fun d => d.stage3 s.fuse env) s

/-- LINK_TRAINING (11 R367). -/
def execLinkTraining (t : Nat) (s : State) : Out := onDev (fun d => d.stage4 t) s

/-- QUALIFICATION (11 R368). -/
def execQualification (t : Nat) (s : State) : Out := onDev (fun d => d.stage5 t) s

/-- COMPUTE_WAVE (15 R494): the units found bad, and whether the domain faulted. -/
def execComputeWave (w : Fin 32) (bad : List BadUnit) (fault : Bool) (s : State) : Out := onDev (fun d => d.wave s.fuse w bad fault) s

/-- STAGE_7_ENTRY (15 R482). -/
def execStage7Entry (t : Nat) (s : State) : Out := onDev (fun d => d.stage7 t) s

/-- THROTTLE_ASSERT (17 R536). -/
def execThrottleAssert (t : Nat) (s : State) : Out := onDev (fun d => d.throttleOn t) s

/-- THROTTLE_RELEASE (17 R536). -/
def execThrottleRelease (t : Nat) (s : State) : Out := onDev (fun d => d.throttleOff t) s

/-- PWR_THROTTLE_HELD (17 R536). -/
def execPwrThrottleHeld (t : Nat) (s : State) : Out := onDev (fun d => d.throttleHeld t) s

/-- REFCLK_LOSS (17 R540): out of specification for `held` ns. -/
def execRefclkLoss (held t : Nat) (s : State) : Out := onPin (fun d => d.clockLoss held t) s

/-- REFCLK_RETURN (17 R540). -/
def execRefclkReturn (held t : Nat) (s : State) : Out := onPin (fun d => d.clockBack held t) s

/-- FLASH_SEL_CHANGE (17 R548). -/
def execFlashSelChange (high : Bool) (s : State) : Out := onPin (fun d => d.setPin (fun p => { p with flashSel := high })) s

/-- I3C_PRIVATE_WRITE (17 R543). -/
def execI3cPrivateWrite (bytes : List Byte) (s : State) : Out := onPin (fun d => d.i3cWrite bytes) s

/-- I3C_PRIVATE_READ (17 R543). -/
def execI3cPrivateRead (words : Nat) (s : State) : Out := onPin (fun d => d.i3cRead s.fuse words) s

/-- SETDASA (17 R542). -/
def execSetdasa (static dynamic : BitVec 7) (s : State) : Out := onPin (fun d => d.setdasa static dynamic) s

/-- ENTDAA (17 R542). -/
def execEntdaa (dynamic : BitVec 7) (s : State) : Out := onPin (fun d => d.entdaa s.fuse dynamic) s

/-- RSTDAA (17 R542). -/
def execRstdaa (s : State) : Out := onPin (fun d => if d.i3cUp then d.setPin (fun p => { p with dyn := 0#7 }) else d) s

/-- GETPID (17 R542). -/
def execGetpid (s : State) : Out := onPin (fun d => d.i3cAnswer (pid s.fuse)) s

/-- GETBCR (17 R542). -/
def execGetbcr (s : State) : Out := onPin (fun d => d.i3cAnswer [Config.i3cByte 2]) s

/-- GETDCR (17 R542). -/
def execGetdcr (s : State) : Out := onPin (fun d => d.i3cAnswer [Config.i3cByte 3]) s

/-- GETSTATUS (17 R542): two bytes that the manual leaves to its standard. -/
def execGetstatus (s : State) : Out :=
  onPin (fun d => let r := d.draw; r.1.i3cAnswer (leBytes 2 r.2.toNat)) s

/-- GETMXDS (17 R542). -/
def execGetmxds (s : State) : Out := onPin (fun d => d.i3cAnswer [Config.i3cByte 4, Config.i3cByte 5]) s

/-- ENEC (17 R542, R544). -/
def execEnec (s : State) : Out := onPin (fun d => if d.i3cUp then d.setPin (fun p => { p with ibi := true }) else d) s

/-- DISEC (17 R542). -/
def execDisec (s : State) : Out := onPin (fun d => if d.i3cUp then d.setPin (fun p => { p with ibi := false }) else d) s

/-- IBI_RETRY (17 R544). -/
def execIbiRetry (t : Nat) (s : State) : Out := onPin (fun d => d.ibiRetry t) s

/-- JTAG_BYPASS (12 R414). -/
def execJtagBypass (s : State) : Out := onPin (fun d => d.jtagBypass) s

/-- JTAG_IDCODE (17 R545). -/
def execJtagIdcode (s : State) : Out := onPin (fun d => d.jtagId) s

/-- JTAG_EXTEST (17 R545). -/
def execJtagExtest (drive : BitVec 40) (s : State) : Out := onPin (fun d => d.jtagExtest drive) s

/-- JTAG_CONTROL_ACCESS (03 R82, 12 R414). -/
def execJtagControlAccess (addr : Word) (op : JtagOp) (s : State) : Out := onPin (fun d => d.jtagControl s.fuse addr op) s

/-- JTAG_MEMORY_ACCESS (12 R414). -/
def execJtagMemoryAccess (addr : BitVec 40) (op : JtagOp) (s : State) : Out := onPin (fun d => d.jtagMemory addr.toNat op) s

/-- JTAG_HALT_STIPE (12 R414). -/
def execJtagHaltStipe (k : Fin 4) (s : State) : Out := onPin (fun d => d.jtagHalt k) s

/-- TRST_N_ASSERT (17 R535): low for `low` ns. -/
def execTrstNAssert (low : Nat) (s : State) : Out := onPin (fun d => d.trstLow low) s

end Sys2Proof.Machine
end

