-- ==== Sys2Proof/Machine/ExecPower.lean ====
section
/-! DEFINITION. The meanings of power and thermal control (13, 14). -/

namespace Sys2Proof.Machine

/-- TELEMETRY_SAMPLE (13 R431): the current of every domain's first rail and of the memory pairs' second, and the input. -/
def execTelemetrySample (t : Nat) (currents seconds : List Int) (vin iin : Nat) (s : State) : Out :=
  onDev (fun d => d.telemetry t currents seconds vin iin) s

/-- POWER_CONTROL_STEP (13 R437): raw estimates in mW by domain. -/
def execPowerControlStep (t : Nat) (raw : List Nat) (s : State) : Out := onDev (fun d => d.powerStep s.fuse t raw) s

/-- STACK_POOL_REBALANCE (13 R437). -/
def execStackPoolRebalance (s : State) : Out := onDev (fun d => d.rebalance) s

/-- GAIN_CALIBRATION (13 R432). -/
def execGainCalibration (raw meas : List Nat) (s : State) : Out := onDev (fun d => d.calibrate raw meas) s

/-- SWITCH_ON_TEST (13 R441): the load of the domain's converters. -/
def execSwitchOnTest (i : Fin 56) (load : List Nat) (t : Nat) (s : State) : Out := onDev (fun d => d.switchTest s.fuse i load t) s

/-- RAMP_END (13 R441). -/
def execRampEnd (i : Fin 56) (t : Nat) (s : State) : Out := onDev (fun d => d.rampEnd i t) s

/-- INIT_END (13 R425). -/
def execInitEnd (i : Fin 56) (t : Nat) (s : State) : Out := onDev (fun d => d.initEnd i t) s

/-- CLAMP_RELEASE (13 R441). -/
def execClampRelease (i : Fin 56) (t : Nat) (s : State) : Out := onDev (fun d => d.clampRelease i t) s

/-- CONVERTER_FAULT (13 R442); `stageOne`: a fault of the stack's first stage. -/
def execConverterFault (i : Fin 56) (stageOne : Bool) (t : Nat) (s : State) : Out := onDev (fun d => d.convFault i stageOne t) s

/-- DROOP_STRETCH (13 R428). -/
def execDroopStretch (h : Fin 32) (s : State) : Out := onDev (fun d => d.droop h) s

/-- DROOP_RELEASE (13 R428). -/
def execDroopRelease (h : Fin 32) (s : State) : Out := onDev (fun d => d.droopEnd h) s

/-- AGEING_CHECK (13 R430): fronds and the derates that the check computes. -/
def execAgeingCheck (k : Fin 4) (derates : List (Nat × Nat)) (s : State) : Out := onDev (fun d => d.ageing k derates) s

/-- SENSOR_SAMPLE (14 R453, R458). -/
def execSensorSample (t : Nat) (readings : List (Nat × Option Int)) (s : State) : Out := onDev (fun d => d.sensorSample t readings) s

/-- THERMAL_TRIP (14 R465). -/
def execThermalTrip (memory : Bool) (place : Nat) (s : State) : Out := onDev (fun d => d.trip memory place) s

/-- THERMAL_MODEL_STEP (14 R454) of a stack. -/
def execThermalModelStep (k : Fin 4) (env : ThermEnv) (s : State) : Out := onDev (fun d => d.modelStep k env) s

/-- TACH_SILENCE_TIMEOUT (14 R463). -/
def execTachSilenceTimeout (t : Nat) (s : State) : Out := onDev (fun d => d.tachSilence t) s

/-- LADDER_STEP_B (14 R464). -/
def execLadderStepB (t : Nat) (s : State) : Out := onDev (fun d => d.ladderB t) s

/-- LADDER_STEP_C (14 R464). -/
def execLadderStepC (t : Nat) (s : State) : Out := onDev (fun d => d.ladderC t) s

/-- ROTATION_HINT (14 R468): mean power by frond. -/
def execRotationHint (power : List Nat) (s : State) : Out := onDev (fun d => d.rotHint power) s

/-- LEAK_N_ASSERT (14 R463): low for `held` ns. -/
def execLeakNAssert (held t : Nat) (s : State) : Out := onDev (fun d => d.leakAssert held t) s

/-- TACH_EDGE (17 R537): a rising edge after a low of `width` ns. -/
def execTachEdge (input : Fin 2) (width t : Nat) (s : State) : Out := onDev (fun d => d.tachEdge input width t) s

/-- TACH_VALIDITY_CHECK (17 R537). -/
def execTachValidityCheck (t : Nat) (s : State) : Out := onDev (fun d => d.tachCheck t) s

/-- COOLANT_TEMP_SAMPLE (17 R538). -/
def execCoolantTempSample (t : Nat) (readings : List Int) (s : State) : Out := onDev (fun d => d.coolantSample t readings) s

end Sys2Proof.Machine
end

