-- ==== Sys2Proof/Machine/Dispatch.lean ====
section
/-! DEFINITION. One arm per command. -/

namespace Sys2Proof.Machine

def exec (i : Instr) (s : State) : Host.Outcome State Fault Refusal :=
  match i with
  | .frameTickEdge t high env => Sys2Proof.Machine.execFrameTickEdge t high env s
  | .internalTick t env => Sys2Proof.Machine.execInternalTick t env s
  | .fallbackTick t env => Sys2Proof.Machine.execFallbackTick t env s
  | .planCommit slot => Sys2Proof.Machine.execPlanCommit slot s
  | .planCheckEnd slot t => Sys2Proof.Machine.execPlanCheckEnd slot t s
  | .unitDispatch u t => Sys2Proof.Machine.execUnitDispatch u t s
  | .unitEnd u t => Sys2Proof.Machine.execUnitEnd u t s
  | .nop f => Sys2Proof.Machine.execNop f s
  | .fend f => Sys2Proof.Machine.execFend f s
  | .commit f => Sys2Proof.Machine.execCommit f s
  | .salu f => Sys2Proof.Machine.execSalu f s
  | .sld f => Sys2Proof.Machine.execSld f s
  | .sst f => Sys2Proof.Machine.execSst f s
  | .srd f t => Sys2Proof.Machine.execSrd f t s
  | .br f => Sys2Proof.Machine.execBr f s
  | .loop f => Sys2Proof.Machine.execLoop f s
  | .waitf f => Sys2Proof.Machine.execWaitf f s
  | .waitm f => Sys2Proof.Machine.execWaitm f s
  | .waitmPoll f => Sys2Proof.Machine.execWaitmPoll f s
  | .sig f => Sys2Proof.Machine.execSig f s
  | .fence f => Sys2Proof.Machine.execFence f s
  | .lds f => Sys2Proof.Machine.execLds f s
  | .sts f => Sys2Proof.Machine.execSts f s
  | .atom f => Sys2Proof.Machine.execAtom f s
  | .top f => Sys2Proof.Machine.execTop f s
  | .tzero f => Sys2Proof.Machine.execTzero f s
  | .tmovi f => Sys2Proof.Machine.execTmovi f s
  | .tmovo f => Sys2Proof.Machine.execTmovo f s
  | .tmovr f => Sys2Proof.Machine.execTmovr f s
  | .turn f => Sys2Proof.Machine.execTurn f s
  | .row f => Sys2Proof.Machine.execRow f s
  | .topkr f => Sys2Proof.Machine.execTopkr f s
  | .rowcfg f => Sys2Proof.Machine.execRowcfg f s
  | .computeInstructionEnd f n => Sys2Proof.Machine.execComputeInstructionEnd f n s
  | .streamEnd x => Sys2Proof.Machine.execStreamEnd x s
  | .readDataReturn x n => Sys2Proof.Machine.execReadDataReturn x n s
  | .writeLanded x n => Sys2Proof.Machine.execWriteLanded x n s
  | .attSetup f => Sys2Proof.Machine.execAttSetup f s
  | .attRun f => Sys2Proof.Machine.execAttRun f s
  | .attItemEnd f => Sys2Proof.Machine.execAttItemEnd f s
  | .freezeDrainEnd m t => Sys2Proof.Machine.execFreezeDrainEnd m t s
  | .gemmaBaseInstruction g => Sys2Proof.Machine.execGemmaBaseInstruction g s
  | .gemmaEcall g => Sys2Proof.Machine.execGemmaEcall g s
  | .gemmaCsrAccess g => Sys2Proof.Machine.execGemmaCsrAccess g s
  | .gbLd g tries => Sys2Proof.Machine.execGbLd g tries s
  | .gbSt g tries => Sys2Proof.Machine.execGbSt g tries s
  | .gbFill g tries => Sys2Proof.Machine.execGbFill g tries s
  | .gbCrd g => Sys2Proof.Machine.execGbCrd g s
  | .gbCwr g => Sys2Proof.Machine.execGbCwr g s
  | .gbAtom g => Sys2Proof.Machine.execGbAtom g s
  | .gbWait g => Sys2Proof.Machine.execGbWait g s
  | .gvLd g => Sys2Proof.Machine.execGvLd g s
  | .gvSt g => Sys2Proof.Machine.execGvSt g s
  | .gvDot g => Sys2Proof.Machine.execGvDot g s
  | .gvAxpy g => Sys2Proof.Machine.execGvAxpy g s
  | .gvMinadd g => Sys2Proof.Machine.execGvMinadd g s
  | .gvMaxadd g => Sys2Proof.Machine.execGvMaxadd g s
  | .gvMac g => Sys2Proof.Machine.execGvMac g s
  | .gvScal g => Sys2Proof.Machine.execGvScal g s
  | .gvZero g => Sys2Proof.Machine.execGvZero g s
  | .gvRsum g => Sys2Proof.Machine.execGvRsum g s
  | .gvRmin g => Sys2Proof.Machine.execGvRmin g s
  | .gvRmax g => Sys2Proof.Machine.execGvRmax g s
  | .gvArgmin g => Sys2Proof.Machine.execGvArgmin g s
  | .gvArgmax g => Sys2Proof.Machine.execGvArgmax g s
  | .gbCommit g => Sys2Proof.Machine.execGbCommit g s
  | .gbFend g => Sys2Proof.Machine.execGbFend g s
  | .gbSig g => Sys2Proof.Machine.execGbSig g s
  | .gbWaitm g => Sys2Proof.Machine.execGbWaitm g s
  | .gbInfl g => Sys2Proof.Machine.execGbInfl g s
  | .gbCrc g => Sys2Proof.Machine.execGbCrc g s
  | .fexp2 g => Sys2Proof.Machine.execFexp2 g s
  | .gbFence g => Sys2Proof.Machine.execGbFence g s
  | .gemmaTransferEnd g x => Sys2Proof.Machine.execGemmaTransferEnd g x s
  | .gemmaCommitBarrier u => Sys2Proof.Machine.execGemmaCommitBarrier u s
  | .claimEnd g bank => Sys2Proof.Machine.execClaimEnd g bank s
  | .rhizoidRead x tr => Sys2Proof.Machine.execRhizoidRead x tr s
  | .rhizoidWrite x tr => Sys2Proof.Machine.execRhizoidWrite x tr s
  | .cacheRead x flt => Sys2Proof.Machine.execCacheRead x flt s
  | .cacheWrite x flt => Sys2Proof.Machine.execCacheWrite x flt s
  | .cacheAtomic x => Sys2Proof.Machine.execCacheAtomic x s
  | .fillReturn h line tries => Sys2Proof.Machine.execFillReturn h line tries s
  | .evictionWritebackIssue h line => Sys2Proof.Machine.execEvictionWritebackIssue h line s
  | .evictionWritebackLanded h line tries => Sys2Proof.Machine.execEvictionWritebackLanded h line tries s
  | .refreshCommand bank t => Sys2Proof.Machine.execRefreshCommand bank t s
  | .readRequest p r t => Sys2Proof.Machine.execReadRequest p r t s
  | .writeRequest p r t => Sys2Proof.Machine.execWriteRequest p r t s
  | .atomicRequest p r t => Sys2Proof.Machine.execAtomicRequest p r t s
  | .completion p c t => Sys2Proof.Machine.execCompletion p c t s
  | .transactionTimeout p rsn t => Sys2Proof.Machine.execTransactionTimeout p rsn t s
  | .fecBlockReceive p a b => Sys2Proof.Machine.execFecBlockReceive p a b s
  | .alignmentBlock p found => Sys2Proof.Machine.execAlignmentBlock p found s
  | .dataFlit p flit => Sys2Proof.Machine.execDataFlit p flit s
  | .nullFlit p flit => Sys2Proof.Machine.execNullFlit p flit s
  | .replayTimeout p t => Sys2Proof.Machine.execReplayTimeout p t s
  | .hello p flit t => Sys2Proof.Machine.execHello p flit t s
  | .trainingEnd p lanes fast settings t => Sys2Proof.Machine.execTrainingEnd p lanes fast settings t s
  | .qualifyEnd p lanes t => Sys2Proof.Machine.execQualifyEnd p lanes t s
  | .retrainCheckEnd p lanes settings t => Sys2Proof.Machine.execRetrainCheckEnd p lanes settings t s
  | .retrainTimeout p t => Sys2Proof.Machine.execRetrainTimeout p t s
  | .downTimeout p t => Sys2Proof.Machine.execDownTimeout p t s
  | .sessionInit c => Sys2Proof.Machine.execSessionInit c s
  | .sessionResponseWrite p => Sys2Proof.Machine.execSessionResponseWrite p s
  | .attest c => Sys2Proof.Machine.execAttest c s
  | .attestReportWrite p => Sys2Proof.Machine.execAttestReportWrite p s
  | .fwUpdate c => Sys2Proof.Machine.execFwUpdate c s
  | .fwVerifyEnd => Sys2Proof.Machine.execFwVerifyEnd s
  | .fwBroadcastEnd missing => Sys2Proof.Machine.execFwBroadcastEnd missing s
  | .fwRepairRound missing => Sys2Proof.Machine.execFwRepairRound missing s
  | .cfgWrite c => Sys2Proof.Machine.execCfgWrite c s
  | .powerCap c => Sys2Proof.Machine.execPowerCap c s
  | .keyOwnerSet c blown => Sys2Proof.Machine.execKeyOwnerSet c blown s
  | .keyVendorRevoke c blown => Sys2Proof.Machine.execKeyVendorRevoke c blown s
  | .unfreeze c => Sys2Proof.Machine.execUnfreeze c s
  | .rtmapEdit c => Sys2Proof.Machine.execRtmapEdit c s
  | .fuseRetire c blown => Sys2Proof.Machine.execFuseRetire c blown s
  | .windowSet c => Sys2Proof.Machine.execWindowSet c s
  | .portBind c => Sys2Proof.Machine.execPortBind c s
  | .halfLayerReset c => Sys2Proof.Machine.execHalfLayerReset c s
  | .stackReset c => Sys2Proof.Machine.execStackReset c s
  | .moduleReset c => Sys2Proof.Machine.execModuleReset c s
  | .debugUnlock c => Sys2Proof.Machine.execDebugUnlock c s
  | .frondReset p v t => Sys2Proof.Machine.execFrondReset p v t s
  | .resetDrainEnd level unit => Sys2Proof.Machine.execResetDrainEnd level unit s
  | .resetWritebackEnd level unit tries => Sys2Proof.Machine.execResetWritebackEnd level unit tries s
  | .resetReinitEnd level unit bad => Sys2Proof.Machine.execResetReinitEnd level unit bad s
  | .configLock p v => Sys2Proof.Machine.execConfigLock p v s
  | .lnkPortRetrain p q v t => Sys2Proof.Machine.execLnkPortRetrain p q v t s
  | .sealSet p interleaved => Sys2Proof.Machine.execSealSet p interleaved s
  | .sealClear p interleaved => Sys2Proof.Machine.execSealClear p interleaved s
  | .reseal p interleaved => Sys2Proof.Machine.execReseal p interleaved s
  | .sealVerify p interleaved => Sys2Proof.Machine.execSealVerify p interleaved s
  | .sealQuery p interleaved => Sys2Proof.Machine.execSealQuery p interleaved s
  | .sealCrcEnd p tries => Sys2Proof.Machine.execSealCrcEnd p tries s
  | .rotationRequest a b copyMib => Sys2Proof.Machine.execRotationRequest a b copyMib s
  | .rotationCopyEnd copyFail => Sys2Proof.Machine.execRotationCopyEnd copyFail s
  | .errLogAckWrite p v => Sys2Proof.Machine.execErrLogAckWrite p v s
  | .statLiveRead reader counter => Sys2Proof.Machine.execStatLiveRead reader counter s
  | .registerWrite p addr v => Sys2Proof.Machine.execRegisterWrite p addr v s
  | .errorHandling t => Sys2Proof.Machine.execErrorHandling t s
  | .stopActionReset => Sys2Proof.Machine.execStopActionReset s
  | .sweepSlice item => Sys2Proof.Machine.execSweepSlice item s
  | .coverageLate t => Sys2Proof.Machine.execCoverageLate t s
  | .telemetrySample t currents seconds vin iin => Sys2Proof.Machine.execTelemetrySample t currents seconds vin iin s
  | .powerControlStep t raw => Sys2Proof.Machine.execPowerControlStep t raw s
  | .stackPoolRebalance => Sys2Proof.Machine.execStackPoolRebalance s
  | .gainCalibration raw meas => Sys2Proof.Machine.execGainCalibration raw meas s
  | .switchOnTest d load t => Sys2Proof.Machine.execSwitchOnTest d load t s
  | .rampEnd d t => Sys2Proof.Machine.execRampEnd d t s
  | .initEnd d t => Sys2Proof.Machine.execInitEnd d t s
  | .clampRelease d t => Sys2Proof.Machine.execClampRelease d t s
  | .converterFault d stageOne t => Sys2Proof.Machine.execConverterFault d stageOne t s
  | .droopStretch h => Sys2Proof.Machine.execDroopStretch h s
  | .droopRelease h => Sys2Proof.Machine.execDroopRelease h s
  | .ageingCheck ws derates => Sys2Proof.Machine.execAgeingCheck ws derates s
  | .sensorSample t readings => Sys2Proof.Machine.execSensorSample t readings s
  | .thermalTrip memory place => Sys2Proof.Machine.execThermalTrip memory place s
  | .thermalModelStep ws env => Sys2Proof.Machine.execThermalModelStep ws env s
  | .tachSilenceTimeout t => Sys2Proof.Machine.execTachSilenceTimeout t s
  | .ladderStepB t => Sys2Proof.Machine.execLadderStepB t s
  | .ladderStepC t => Sys2Proof.Machine.execLadderStepC t s
  | .rotationHint power => Sys2Proof.Machine.execRotationHint power s
  | .pwrEnRise t strap romOk refclk => Sys2Proof.Machine.execPwrEnRise t strap romOk refclk s
  | .pwrEnFall t => Sys2Proof.Machine.execPwrEnFall t s
  | .resetNAssert low t => Sys2Proof.Machine.execResetNAssert low t s
  | .resetNRelease t romOk refclk => Sys2Proof.Machine.execResetNRelease t romOk refclk s
  | .vinUndervoltage mv held => Sys2Proof.Machine.execVinUndervoltage mv held s
  | .vinOvervoltage mv held => Sys2Proof.Machine.execVinOvervoltage mv held s
  | .configImageLoad readFail => Sys2Proof.Machine.execConfigImageLoad readFail s
  | .fuseMapLoad selfTest copies => Sys2Proof.Machine.execFuseMapLoad selfTest copies s
  | .memoryBringup env => Sys2Proof.Machine.execMemoryBringup env s
  | .linkTraining t => Sys2Proof.Machine.execLinkTraining t s
  | .qualification t => Sys2Proof.Machine.execQualification t s
  | .computeWave w bad fault => Sys2Proof.Machine.execComputeWave w bad fault s
  | .stage7Entry t => Sys2Proof.Machine.execStage7Entry t s
  | .throttleAssert t => Sys2Proof.Machine.execThrottleAssert t s
  | .throttleRelease t => Sys2Proof.Machine.execThrottleRelease t s
  | .pwrThrottleHeld t => Sys2Proof.Machine.execPwrThrottleHeld t s
  | .leakNAssert held t => Sys2Proof.Machine.execLeakNAssert held t s
  | .tachEdge input width t => Sys2Proof.Machine.execTachEdge input width t s
  | .tachValidityCheck t => Sys2Proof.Machine.execTachValidityCheck t s
  | .coolantTempSample t readings => Sys2Proof.Machine.execCoolantTempSample t readings s
  | .refclkLoss held t => Sys2Proof.Machine.execRefclkLoss held t s
  | .refclkReturn held t => Sys2Proof.Machine.execRefclkReturn held t s
  | .flashSelChange high => Sys2Proof.Machine.execFlashSelChange high s
  | .i3cPrivateWrite bytes => Sys2Proof.Machine.execI3cPrivateWrite bytes s
  | .i3cPrivateRead words => Sys2Proof.Machine.execI3cPrivateRead words s
  | .setdasa static dynamic => Sys2Proof.Machine.execSetdasa static dynamic s
  | .entdaa dynamic => Sys2Proof.Machine.execEntdaa dynamic s
  | .rstdaa => Sys2Proof.Machine.execRstdaa s
  | .getpid => Sys2Proof.Machine.execGetpid s
  | .getbcr => Sys2Proof.Machine.execGetbcr s
  | .getdcr => Sys2Proof.Machine.execGetdcr s
  | .getstatus => Sys2Proof.Machine.execGetstatus s
  | .getmxds => Sys2Proof.Machine.execGetmxds s
  | .enec => Sys2Proof.Machine.execEnec s
  | .disec => Sys2Proof.Machine.execDisec s
  | .ibiRetry t => Sys2Proof.Machine.execIbiRetry t s
  | .jtagBypass => Sys2Proof.Machine.execJtagBypass s
  | .jtagIdcode => Sys2Proof.Machine.execJtagIdcode s
  | .jtagExtest drive => Sys2Proof.Machine.execJtagExtest drive s
  | .jtagControlAccess addr op => Sys2Proof.Machine.execJtagControlAccess addr op s
  | .jtagMemoryAccess addr op => Sys2Proof.Machine.execJtagMemoryAccess addr op s
  | .jtagHaltStipe ws => Sys2Proof.Machine.execJtagHaltStipe ws s
  | .vinRise mv t romOk refclk => Sys2Proof.Machine.execVinRise mv t romOk refclk s
  | .pwrEnHonoured t strap romOk refclk => Sys2Proof.Machine.execPwrEnHonoured t strap romOk refclk s
  | .unlistedCmdType type c => Sys2Proof.Machine.execUnlistedCmdType type c s
  | .sealCmdBadCommand p cmd => Sys2Proof.Machine.execSealCmdBadCommand p cmd s
  | .gbWaitmPoll g => Sys2Proof.Machine.execGbWaitmPoll g s
  | .errorRecordForward ws => Sys2Proof.Machine.execErrorRecordForward ws s
  | .trstNAssert low => Sys2Proof.Machine.execTrstNAssert low s

end Sys2Proof.Machine
end

