-- ==== Sys2Proof/WellFormed.lean ====
section
/-! DEFINITION. Which commands are well-formed: operands that their types do not bound lie in the ranges the manual gives
what they name. The meanings are total: an ill-formed command acts by the same rules. -/

namespace Sys2Proof

/-- A 64-B word of the module's memory: 256 partitions of 4 GiB (01 R13, 03 R75). -/
def wfWord (w : Nat) : Bool := decide (w < 2 ^ 34)

/-- The 10-bit symbols of one codeword of a block on at most 8 lanes (11 R355). -/
def wfBlock (l : List (List Nat)) : Bool := decide (l.length ≤ 8) && l.all (fun s => decide (s.length ≤ 272) && s.all (fun v => decide (v < 1024)))

/-- The outcomes of the reads or writes of at most n words. -/
def wfTries {α : Type} (n : Nat) (l : List α) : Bool := decide (l.length ≤ n)

/-- A frame boundary's environment: words of memory, and one power for each of 56 domains at most. -/
def TickEnv.wf (e : TickEnv) : Bool := e.copyFail.all wfWord && wfTries 56 e.measured

/-- A physical lane of a rhizoid (08 R253). -/
def wfLane (n : Nat) : Bool := decide (n < 272)

/-- A unit named by a test (15 R491). -/
def BadUnit.wf (u : BadUnit) : Bool :=
  match u.kind with
  | 0 => decide (u.index < 256)
  | 1 => decide (u.index < 2048)
  | 2 => decide (u.index < 8192)
  | 3 => decide (u.index < 131072) && decide (u.index % 512 < 272)
  | 4 => decide (u.index < 131072) && decide (u.index % 512 < 34)
  | 5 => decide (u.index < 1024)
  | 6 => decide (u.index < 131072)
  | 7 => decide (u.index < 134217728)

/-- A request packet carries data by its kind, at most 4 KiB (11 R373, R376). -/
def ReqHdr.wf (r : ReqHdr) : Bool :=
  decide (r.len.toNat ≤ 4096) && decide (r.data.length = if r.pkt = 2#4 ∨ r.pkt = 3#4 then r.len.toNat else 0)

/-- A completion carries at most 4 KiB (11 R375). -/
def CplHdr.wf (c : CplHdr) : Bool := decide (c.data.length ≤ 4096)

/-- A command's body has as many words as its length says, and at most 4 KiB (12 R401). -/
def CmdPkt.wf (c : CmdPkt) : Bool := decide (c.bodyLen ≤ 4096) && decide (c.body.length = (c.bodyLen + 3) / 4)

/-- A flit has 256 bytes (11 R359). -/
def wfFlit (f : List Byte) : Bool := decide (f.length = 256)

/-- A sensor (14 R453): 1,536 on logic, 512 on memory, 64 on base dies. -/
def wfSensor (n : Nat) : Bool := decide (n < 2112)

/-- What a slice names lies in its ranges (16 R522). A frond's SRAM: 393,216 granules of operand store, 32,768 of side memory
and 4,096 of instruction store. -/
def SweepItem.wf : SweepItem → Bool
  | .array _ _ => true
  | .frondSram _ _ l => l.all (fun g => decide (g < 430080))
  | .gemmaSram _ _ l => l.all (fun g => decide (g < 2048))
  | .cacheWay _ _ _ _ => true
  | .rhizoidLane _ n _ => wfLane n
  | .channelLane _ n _ => decide (n < 34)
  | .cmdGroup _ _ _ => true
  | .stackBridge _ _ => true
  | .stitchBridge _ _ => true
  | .latent w _ => wfWord w
  | .covered _ => true

/-- A unit of a reset: a frond, a half-layer or a stack (15 R496). -/
def wfReset (level : Fin 4) (unit : Nat) : Bool :=
  if level = 0 then decide (unit < 256) else if level = 1 then decide (unit < 32) else if level = 2 then decide (unit < 4) else false

/-- A command is well-formed. -/
def Instr.wf : Instr → Bool
  | .frameTickEdge _ _ e | .internalTick _ e | .fallbackTick _ e => e.wf
  | .planCommit _ | .planCheckEnd _ _ | .unitDispatch _ _ | .unitEnd _ _ => true
  | .nop _ | .fend _ | .commit _ | .salu _ | .sld _ | .sst _ | .srd _ _ | .br _ | .loop _ | .waitf _ | .waitm _
  | .waitmPoll _ | .sig _ | .fence _ | .lds _ | .sts _ | .atom _ | .top _ | .tzero _ | .tmovi _ | .tmovo _ | .tmovr _
  | .turn _ | .row _ | .topkr _ | .rowcfg _ | .computeInstructionEnd _ _ | .streamEnd _ | .readDataReturn _ _
  | .writeLanded _ _ | .attSetup _ | .attRun _ | .attItemEnd _ => true
  | .freezeDrainEnd m _ => decide (m.toNat < 0x916)
  | .gemmaBaseInstruction _ | .gemmaEcall _ | .gemmaCsrAccess _ => true
  | .gbLd _ l => wfTries 256 l
  | .gbSt _ l => wfTries 256 l
  | .gbFill _ l => wfTries 256 l
  | .gbCrd _ | .gbCwr _ | .gbAtom _ | .gbWait _ | .gvLd _ | .gvSt _ | .gvDot _ | .gvAxpy _ | .gvMinadd _ | .gvMaxadd _
  | .gvMac _ | .gvScal _ | .gvZero _ | .gvRsum _ | .gvRmin _ | .gvRmax _ | .gvArgmin _ | .gvArgmax _ | .gbCommit _
  | .gbFend _ | .gbSig _ | .gbWaitm _ | .gbInfl _ | .gbCrc _ | .fexp2 _ | .gbFence _ | .gemmaTransferEnd _ _
  | .gemmaCommitBarrier _ | .claimEnd _ _ | .gbWaitmPoll _ => true
  | .rhizoidRead _ _ | .rhizoidWrite _ _ | .cacheRead _ _ | .cacheWrite _ _ | .cacheAtomic _ => true
  | .fillReturn _ l t => decide (l < 2 ^ 32) && wfTries 4 t.reads
  | .evictionWritebackIssue _ l => decide (l < 2 ^ 32)
  | .evictionWritebackLanded _ l t => decide (l < 2 ^ 32) && wfTries 4 t
  | .refreshCommand _ _ => true
  | .readRequest _ r _ => r.wf && !(r.pkt == 2#4) && !(r.pkt == 3#4)
  | .writeRequest _ r _ => r.wf && r.pkt == 2#4
  | .atomicRequest _ r _ => r.wf && r.pkt == 3#4
  | .completion _ c _ => c.wf
  | .transactionTimeout _ _ _ => true
  | .fecBlockReceive _ a b => wfBlock a && wfBlock b
  | .alignmentBlock _ _ => true
  | .dataFlit _ f | .nullFlit _ f | .hello _ f _ => wfFlit f
  | .replayTimeout _ _ | .trainingEnd _ _ _ _ _ | .qualifyEnd _ _ _ | .retrainCheckEnd _ _ _ _ | .retrainTimeout _ _
  | .downTimeout _ _ => true
  | .sessionInit c | .attest c | .fwUpdate c | .cfgWrite c | .powerCap c | .keyOwnerSet c _ | .keyVendorRevoke c _
  | .unfreeze c | .rtmapEdit c | .fuseRetire c _ | .windowSet c | .portBind c | .halfLayerReset c | .stackReset c
  | .moduleReset c | .debugUnlock c => c.wf
  | .unlistedCmdType _ c => c.wf
  | .sessionResponseWrite _ | .attestReportWrite _ | .fwVerifyEnd => true
  | .fwBroadcastEnd m | .fwRepairRound m => m.all (fun e => decide (e.1 < 2308))
  | .frondReset _ _ _ => true
  | .resetDrainEnd l u => wfReset l u
  | .resetWritebackEnd l u _ => wfReset l u
  | .resetReinitEnd l u b => wfReset l u && b.all BadUnit.wf
  | .configLock _ _ | .lnkPortRetrain _ _ _ _ | .sealSet _ _ | .sealClear _ _ | .reseal _ _ | .sealVerify _ _
  | .sealQuery _ _ => true
  | .sealCrcEnd _ t => wfTries 64 t
  | .rotationRequest _ _ n => decide (n ≤ 4096)
  | .rotationCopyEnd l => l.all wfWord
  | .errLogAckWrite _ _ => true
  | .statLiveRead _ c => decide (c < 2 ^ 16)
  | .registerWrite _ a _ => decide (a.toNat % 4 = 0)
  | .errorHandling _ | .stopActionReset => true
  | .sweepSlice i => i.wf
  | .coverageLate _ => true
  | .telemetrySample _ c m _ _ => wfTries 56 c && wfTries 56 m
  | .powerControlStep _ r => wfTries 56 r
  | .stackPoolRebalance => true
  | .gainCalibration r m => wfTries 56 r && wfTries 56 m
  | .switchOnTest _ _ _ | .rampEnd _ _ | .initEnd _ _ | .clampRelease _ _ | .converterFault _ _ _ | .droopStretch _
  | .droopRelease _ => true
  | .ageingCheck _ l => l.all (fun e => decide (e.1 < 256))
  | .sensorSample _ l => l.all (fun e => wfSensor e.1)
  | .thermalTrip m n => if m then decide (n < 32) else decide (n < 16)
  | .thermalModelStep _ _ | .tachSilenceTimeout _ | .ladderStepB _ | .ladderStepC _ => true
  | .rotationHint p => wfTries 256 p
  | .pwrEnRise _ _ _ _ | .pwrEnFall _ | .resetNAssert _ _ | .resetNRelease _ _ _ | .vinUndervoltage _ _ | .vinOvervoltage _ _
  | .configImageLoad _ => true
  | .fuseMapLoad _ c => wfTries 8 c
  | .memoryBringup _ | .linkTraining _ | .qualification _ => true
  | .computeWave _ b _ => b.all BadUnit.wf
  | .stage7Entry _ | .throttleAssert _ | .throttleRelease _ | .pwrThrottleHeld _ | .leakNAssert _ _ | .tachEdge _ _ _
  | .tachValidityCheck _ => true
  | .coolantTempSample _ l => wfTries 4 l
  | .refclkLoss _ _ | .refclkReturn _ _ | .flashSelChange _ => true
  | .i3cPrivateWrite b => decide (b.length = 4)
  | .i3cPrivateRead _ | .setdasa _ _ | .entdaa _ | .rstdaa | .getpid | .getbcr | .getdcr | .getstatus | .getmxds | .enec
  | .disec | .ibiRetry _ | .jtagBypass | .jtagIdcode | .jtagExtest _ | .jtagControlAccess _ _ | .jtagMemoryAccess _ _
  | .jtagHaltStipe _ | .vinRise _ _ _ _ | .pwrEnHonoured _ _ _ _ => true
  | .sealCmdBadCommand _ c => decide (c = 0 ∨ c = 6 ∨ c = 7)
  | .errorRecordForward _ | .trstNAssert _ => true

end Sys2Proof
end

