-- ==== Sys2Proof/Safety.lean ====
section
/-! DEFINITION. The terms in which claims speak of the module. -/

namespace Sys2Proof.Machine

/-- Frond f stands, for unit u, at the instruction word b: a listed opcode with no reserved bit set. -/
structure Issues (d : Dev) (f : Nat) (u : WUnit) (b : BitVec 128) : Prop where
  unit : d.issuing f = some u
  inside : (d.frond f).pc < (d.frond f).len
  unpoisoned : (d.frond f).storeP.find (d.frond f).pc = none
  word : (d.frond f).store.get (d.frond f).pc 0#128 = b
  listed : (opFields (opOf b)).isSome = true
  clean : bitsClean b = true

/-- Gemma g stands, for unit u, at instruction i, which belongs to group k. -/
structure GemIssues (d : Dev) (g : Nat) (u : WUnit) (i : RvI) (k : GKind) : Prop where
  unit : d.gemIssuing g = some u
  fetched : (d.gemma g).fetch = .word (some i)
  kind : i.kind ((d.gemma g).fcsr / 32) = k

/-- None of the listed checks applies. -/
def noneOf (codes : List (Bool × Nat)) : Bool := codes.all (fun e => !e.1)

/-- Nothing follows a step by itself: no attention run is in progress, no transfer is remote or a port's, no request is held
for room, no reset runs, the ports are not stopped, and ALERT_N shows its condition. -/
structure Settled (d : Dev) : Prop where
  powered : d.bup.powered = true
  runs : ∀ e ∈ d.fronds, (d.frond e.1).att.running = false
  xfers : ∀ x ∈ d.xfers, x.remote = none ∧ x.mid < 0x910
  held : ∀ p : Fin 6, (d.port p).held = []
  bufs : ∀ e ∈ d.ports, ∀ q ∈ e.2.bufReq ++ e.2.bufCpl, e.2.busy q = true
  resets : d.bup.resets = []
  double : d.err.double = false
  ports : ∀ p : Fin 6, d.portStopped p = false
  alert : d.alerting = d.pin.alert

/-- One-time memory is one-way: b may follow a. -/
structure OneWay (a b : Fuses) : Prop where
  seed : b.seed = a.seed
  serial : b.serial = a.serial
  vendor : b.vendor = a.vendor
  revoked : ∀ i, a.revoked.getLsbD i = true → b.revoked.getLsbD i = true
  owner : a.owner.isSome = true → b.owner = a.owner
  retired : ∀ u ∈ a.retired, u ∈ b.retired
  units : b.bad = a.bad

/-- A command of the pins, of the management bus or of the test port, which acts in every state of the module. -/
def ofPins : Instr → Bool
  | .stopActionReset | .pwrEnRise .. | .pwrEnFall .. | .pwrEnHonoured .. | .resetNAssert .. | .resetNRelease .. => true
  | .vinUndervoltage .. | .vinOvervoltage .. | .vinRise .. | .refclkLoss .. | .refclkReturn .. | .flashSelChange .. => true
  | .i3cPrivateWrite .. | .i3cPrivateRead .. | .setdasa .. | .entdaa .. | .rstdaa | .getpid | .getbcr | .getdcr => true
  | .getstatus | .getmxds | .enec | .disec | .ibiRetry .. => true
  | .jtagBypass | .jtagIdcode | .jtagExtest .. | .jtagControlAccess .. | .jtagMemoryAccess .. | .jtagHaltStipe .. => true
  | .trstNAssert .. => true
  | _ => false

/-- The device once moment t has come. -/
def Dev.upTo (d : Dev) (t : Nat) : Dev := { d with now := max d.now t }

/-- The device once a command's packet has left the port's list of packets received. -/
def Dev.cmdTaken (d : Dev) (c : CmdPkt) : Dev :=
  let d := d.upTo c.t
  match (d.port c.port).packets.findIdx? (isCmd c) with
  | some i => d.setPort c.port { d.port c.port with packets := dropIdx (d.port c.port).packets i }
  | none => d

/-- A command of type ty comes whole and new to its port, which answers commands; the window holds its entry in d1. -/
structure CmdNew (d : Dev) (c : CmdPkt) (ty : Nat) (d1 : Dev) : Prop where
  carried : (d.port c.port).st = 3 ∨ ((d.port c.port).packets.findIdx? (isCmd c)).isSome = true
  fresh : (d.cmdTaken c).arrive c.port ((d.cmdTaken c).cmdHdr c) = (d1, .fresh)
  thawed : d1.isFrozen (portMid c.port) = false ∨ ty = 1 ∨ cmdTagged ty = true
  device : c.space = 0#2
  some : c.len ≠ 0
  fits : c.len ≤ 4096

/-- A command passes the shared checks; d2 has its counter. -/
structure CmdPasses (d : Dev) (c : CmdPkt) (ty : Nat) (d2 : Dev) : Prop where
  new : ∃ d1, CmdNew d c ty d1 ∧ d1.cmdFormat c ty = true ∧ (d1.cmdAuth c ty).1 = 0 ∧
    d2 = if (d1.cmdAuth c ty).2 = true then d1.setSess c.port { d1.sess c.port with last := c.counter } else d1
  body : (c.word 0).toNat &&& bodyMask ty = (c.word 0).toNat

/-- A command is answered with a result. -/
def Dev.cmdAnswer (d : Dev) (c : CmdPkt) (res : Nat) : Dev := d.reply c.port c.rsn.toNat 0 0 res [] 0#64

/-- A command of type ty is counted as accepted and answered. -/
def Dev.cmdDone (d : Dev) (c : CmdPkt) (ty : Nat) : Dev := (d.inc (cPort c.port (37 + cmdTypes.findIdx (· == ty)))).cmdAnswer c 0

/-- A run is safe as long as every step answers a state. -/
def Safe (s : State) : Prop := ∃ t, step s = .next t

end Sys2Proof.Machine
end

