-- ==== Sys2Proof/Certificates/Slice0/Obligations.lean ====
section
/-! DEFINITION. The statements for the provers. In every one `s.ran d` is the state once a command's own effect has left the
device at d: what follows every step (SettledModuleRests) follows. -/

open Sys2Proof Sys2Proof.Machine

/-! ### The queue and the machine -/

/-- A step with a command at the front of the queue is exec of that command with the queue's rest; with an empty queue the
module idles (the model's choice, log 3). -/
def Obligations.StepTakesFront : Prop :=
  (∀ (c : Instr) (rest : List Instr) (s : State),
    step { s with pending := c :: rest } = exec c { s with pending := rest }) ∧
  (∀ s : State, s.pending = [] → step s = .next s)

/-- What reset leaves (02 R42, 10 R347, 11 R366, 12 R414, 13 R434, 15 R480, R483), and the model's own choices: nothing
waits, no unit or transfer is in hand, and the one-time memory is unprogrammed (logs 4, 5). -/
def Obligations.ResetLeaves : Prop :=
  let d := State.reset.dev
  State.reset.pending = [] ∧ d.bup.stage = 0 ∧ d.bup.state = 0 ∧ d.bup.lock = false ∧ d.sec.level = 0 ∧ d.pwr.cap = 1600 ∧
  d.win.frozen = [] ∧ d.units = [] ∧ d.xfers = [] ∧ (∀ p : Fin 6, (d.port p).st = 0) ∧
  (∀ i < 56, (d.dom i).st = if 12 ≤ i % 14 then 4 else 0) ∧ (∀ f < 256, (d.frond f).up = false) ∧
  (∀ p < 6, d.reg (sealReg p 16) = 0x80000000#32) ∧ Memory.wf d = true ∧
  State.reset.fuse.owner = none ∧ State.reset.fuse.revoked = 0#4 ∧ State.reset.fuse.retired = []

/-- Every command answers a state; it leaves the queue and the flash as they are. -/
def Obligations.CommandsAnswer : Prop :=
  ∀ (c : Instr) (s : State), ∃ t, exec c s = .next t ∧ t.pending = s.pending ∧ t.flash = s.flash

/-- A module that is unpowered, held in reset, tripped or stopped by a double fault answers every command but those of the
pins, the management bus and the test port unchanged. -/
def Obligations.StoppedModuleKeeps : Prop :=
  ∀ (c : Instr) (s : State), s.dev.alive = false → ofPins c = false → exec c s = .next s

/-- Nothing follows a step of a settled module by itself. -/
def Obligations.SettledModuleRests : Prop := ∀ d : Dev, Settled d → d.finish = d

/-- One-time memory is one-way: every step keeps the seed, the serial number, the vendor slots' digests, every revocation, an
owner slot once programmed and every retirement. -/
def Obligations.OneTimeMemoryOneWay : Prop := ∀ s t : State, step s = .next t → OneWay s.fuse t.fuse

/-! ### A frond's scalar and control instructions (05) -/

/-- NOP, SALU (05 R145) and SRD. SALU's arithmetic wraps at 64 bits, shifts take the low six bits of X, comparisons give 0 or
1, and codes 17 to 31 raise ENCODING. SRD's selectors 1 to 5 read the time in the frame, the frame, the frames carried, the
last commit ID and the sticky flags. -/
def Obligations.FrondScalarResults : Prop :=
  (∀ a x : DWord,
    saluOp 0 a x = a + x ∧ saluOp 1 a x = a - x ∧ saluOp 2 a x = a * x ∧ saluOp 3 a x = a &&& x ∧ saluOp 4 a x = a ||| x ∧
    saluOp 5 a x = a ^^^ x ∧ saluOp 6 a x = a <<< (x.toNat % 64) ∧ saluOp 7 a x = a >>> (x.toNat % 64) ∧
    saluOp 8 a x = a.sshiftRight (x.toNat % 64) ∧
    (saluOp 9 a x).toInt = min a.toInt x.toInt ∧ (saluOp 10 a x).toInt = max a.toInt x.toInt ∧
    (saluOp 11 a x).toNat = min a.toNat x.toNat ∧ (saluOp 12 a x).toNat = max a.toNat x.toNat ∧
    saluOp 13 a x = (if a = x then 1#64 else 0#64) ∧ saluOp 14 a x = (if a.toInt < x.toInt then 1#64 else 0#64) ∧
    saluOp 15 a x = (if a.toNat < x.toNat then 1#64 else 0#64) ∧
    saluOp 16 a x = (if x.toInt ≤ a.toInt then 1#64 else 0#64)) ∧
  ∀ (s : State) (f : Fin 256) (u : WUnit) (b : BitVec 128), s.dev.alive = true → Issues s.dev f u b →
    let d := s.dev
    let x := d.frond f
    (opOf b = 0x00 → exec (.nop f) s = .next (s.ran (d.advance f))) ∧
    (let imm := fld b 8 1
     let rd := fld b 14 6
     let ra := fld b 20 6
     let rb := fld b 26 6
     let operand := if imm = 1 then BitVec.ofNat 64 (fld b 32 64) else x.r rb
     opOf b = 0x08 → fld b 9 5 ≤ 16 → d.pendingReg f rd = false → d.pendingReg f ra = false →
       (imm = 1 ∨ d.pendingReg f rb = false) →
       exec (.salu f) s = .next (s.ran ((d.modFrond f (fun y =>
         y.setR rd (saluOp (fld b 9 5) (x.r ra) operand) (x.pois ra || (imm != 1 && x.pois rb)))).advance f))) ∧
    (opOf b = 0x08 → 17 ≤ fld b 9 5 → exec (.salu f) s = .next (s.ran (d.frondExc f 1 x.pc 0))) ∧
    (∀ t, d.now ≤ t → opOf b = 0x0C → d.pendingReg f (fld b 8 6) = false → 1 ≤ fld b 14 6 → fld b 14 6 ≤ 5 →
       exec (.srd f t) s = .next (s.ran ((Dev.modFrond { d with now := t } f (fun y => y.setR (fld b 8 6) (BitVec.ofNat 64
         ([0, t - d.lastTick, d.frame, u.carried, x.lastCommit, x.sticky.toNat].getD (fld b 14 6) 0)) false)).advance f)))

/-- A gemma's integer operations, ALU and M extension by funct3 (10 R311, log 13): division by zero gives all ones and the
dividend as remainder. -/
def Obligations.IntegerOperations : Prop :=
  ∀ a b : Word,
    rvAlu 0 false a b = a + b ∧ rvAlu 0 true a b = a - b ∧ rvAlu 1 false a b = a <<< (b.toNat % 32) ∧
    rvAlu 2 false a b = (if a.toInt < b.toInt then 1#32 else 0#32) ∧
    rvAlu 3 false a b = (if a.toNat < b.toNat then 1#32 else 0#32) ∧ rvAlu 4 false a b = a ^^^ b ∧
    rvAlu 5 false a b = a >>> (b.toNat % 32) ∧ rvAlu 5 true a b = a.sshiftRight (b.toNat % 32) ∧
    rvAlu 6 false a b = a ||| b ∧ rvAlu 7 false a b = a &&& b ∧ rvMul 0 a b = a * b ∧
    rvMul 3 a b = BitVec.ofNat 32 (a.toNat * b.toNat / 2 ^ 32) ∧ rvMul 4 a 0#32 = BitVec.allOnes 32 ∧ rvMul 6 a 0#32 = a ∧
    rvMul 5 a b = (if b = 0#32 then BitVec.allOnes 32 else a / b) ∧ rvMul 7 a b = (if b = 0#32 then a else a % b)

/-- What issue does after an instruction (05 R147): the next index follows; at the last instruction of a loop body with
iterations left the body starts again; passing the program's last instruction raises FETCH_END. -/
def Obligations.FrondIssueAdvances : Prop :=
  ∀ (d : Dev) (f : Nat),
    let x := d.frond f
    let next (ls : List LoopLv) (pc : Nat) : Dev := (d.inc (cFrd f 5)).modFrond f (fun y =>
      { y with loops := ls, ip := x.pc, pc := pc, waiting := false, order := y.order + 1 })
    (x.loops = [] → x.pc + 1 < x.len → d.advance f = next [] (x.pc + 1)) ∧
    (x.loops = [] → x.len ≤ x.pc + 1 → d.advance f = (next [] (x.pc + 1)).frondExcAt f 10 x.pc 0 x.order) ∧
    (∀ l ls, x.loops = l :: ls → l.last ≠ x.pc → x.pc + 1 < x.len → d.advance f = next (l :: ls) (x.pc + 1)) ∧
    (∀ l ls, x.loops = l :: ls → l.last = x.pc → 1 < l.left → l.start < x.len →
      d.advance f = next ({ l with left := l.left - 1 } :: ls) l.start) ∧
    (∀ l, x.loops = [l] → l.last = x.pc → l.left ≤ 1 → x.pc + 1 < x.len → d.advance f = next [] (x.pc + 1))

/-- BR, LOOP, WAITF and FENCE (05 R139, R147, R152): a taken branch pops every level whose body it leaves. A wait holds issue;
how many cycles its counter counts is free (log 11). -/
def Obligations.FrondControlResults : Prop :=
  ∀ (s : State) (f : Fin 256) (u : WUnit) (b : BitVec 128), s.dev.alive = true → Issues s.dev f u b →
    let d := s.dev
    let x := d.frond f
    let wait := (d.bumpFree (cFrd f 6)).modFrond f (fun y => { y with waiting := true })
    (let c := fld b 8 3
     let ra := x.r (fld b 11 6)
     let rb := x.r (fld b 17 6)
     let tgt := fld b 23 14
     let taken := [true, ra == rb, ra != rb, ra.slt rb, !ra.slt rb, ra.ult rb, !ra.ult rb].getD c false
     opOf b = 0x10 → c < 7 → tgt < x.len → d.pendingReg f (fld b 11 6) = false → d.pendingReg f (fld b 17 6) = false →
       x.pois (fld b 11 6) = false → x.pois (fld b 17 6) = false →
       exec (.br f) s = .next (s.ran (if taken = true then
         (d.inc (cFrd f 5)).modFrond f (fun y =>
           { y with loops := x.loops.filter (fun l => decide (l.start ≤ tgt) && decide (tgt ≤ l.last))
                    ip := x.pc, pc := tgt, waiting := false, order := y.order + 1 })
         else d.advance f))) ∧
    (let n := if fld b 8 6 = 0 then fld b 14 32 else (x.r (fld b 8 6)).toNat
     let last := fld b 46 14
     opOf b = 0x11 → 0 < n → x.pc + 1 ≤ last → last < x.len → x.loops.length < 4 → d.pendingReg f (fld b 8 6) = false →
       x.pois (fld b 8 6) = false →
       exec (.loop f) s = .next (s.ran ((d.inc (cFrd f 5)).modFrond f (fun y =>
         { y with loops := { start := x.pc + 1, last := last, left := n } :: x.loops, ip := x.pc, pc := x.pc + 1
                  waiting := false, order := y.order + 1 })))) ∧
    (opOf b = 0x14 → exec (.waitf f) s = .next (s.ran (
       if fld b 12 16 ≤ x.flag (fld b 8 4) then
         (d.modFrond f (fun y => { y with flags := y.flags.put (fld b 8 4) (y.flag (fld b 8 4) - fld b 12 16) })).advance f
       else wait))) ∧
    (opOf b = 0x17 → exec (.fence f) s = .next (s.ran (
       if d.xfers.any (fun e => e.mid == f) then wait else d.advance f)))

/-- COMMIT and FEND (05 R164, 02 R62): a commit point passes, and a unit ends COMPLETE, once every earlier instruction and
access has ended; until then issue waits; a write that did not land ends the unit WRITE_FAILED. -/
def Obligations.FrondCommitAndEnd : Prop :=
  ∀ (s : State) (f : Fin 256) (u : WUnit) (b : BitVec 128), s.dev.alive = true → Issues s.dev f u b →
    let d := s.dev
    let x := d.frond f
    let done := x.cq.isEmpty && !d.xfers.any (fun e => e.mid == f)
    let wait := (d.bumpFree (cFrd f 6)).modFrond f (fun y => { y with waiting := true })
    (opOf b = 0x02 → fld b 8 16 ≠ 0xFFFF → exec (.commit f) s = .next (s.ran (
       if done = false then wait
       else if x.wrFail ≠ 0 then d.stopUnit u.key 7 0
       else ((d.modFrond f (fun y => { y with lastCommit := fld b 8 16 })).modUnit u.key (fun v =>
         { v with lastCommit := fld b 8 16, touched := 0#8, touchedOther := false })).advance f))) ∧
    (opOf b = 0x01 → exec (.fend f) s = .next (s.ran (
       if done = false ∨ x.att.running = true then wait
       else if x.wrFail ≠ 0 then d.stopUnit u.key 7 0
       else ((d.inc (cFrd f 5)).modFrond f (fun y => { y with ip := x.pc })).endUnit u.key 0 0 0)))

/-- The small accesses (05 R148, R152): SLD, SST, SIG and WAITM of an aligned address of this module take one transfer of
their bytes; WAITM holds issue. -/
def Obligations.FrondSmallAccesses : Prop :=
  ∀ (s : State) (f : Fin 256) (u : WUnit) (b : BitVec 128) (a : Nat), s.dev.alive = true → Issues s.dev f u b →
    let d := s.dev
    let x := d.frond f
    let reg (sa : Nat) (off : Int) : Prop :=
      d.pendingReg f sa = false ∧ x.pois sa = false ∧ ((x.r sa).toNat : Int) + off = a ∧ a < 2 ^ 40
    let xf (k : XKind) (n : Nat) : Xfer :=
      { id := 0, mid := f, kind := k, base := a, n := 1, limit := 1, size := n, mask := byteMask (a % 64) n, ip := x.pc
        order := x.order, wset := u.wset, unit := u.key, afmt := 2 }
    (opOf b = 0x0A → reg (fld b 14 6) (sfld b 20 32) → fld b 58 1 = 0 → a % 8 = 0 → d.pendingReg f (fld b 8 6) = false →
      exec (.sld f) s = .next (s.ran ((d.advance f).issue
        { xf .sld 8 with loc := fld b 8 6, data := [(0, 0#512)] } (x.pc * 16)))) ∧
    (opOf b = 0x0B → reg (fld b 14 6) (sfld b 20 32) → fld b 58 1 = 0 → a % 8 = 0 → d.pendingReg f (fld b 8 6) = false →
      exec (.sst f) s = .next (s.ran ((d.advance f).issue
        { xf .sst 8 with data := [(0, BitVec.ofNat 512 ((x.r (fld b 8 6)).toNat * 2 ^ (8 * (a % 64))))]
                         pois := if x.pois (fld b 8 6) then [0] else [] } (x.pc * 16)))) ∧
    (opOf b = 0x16 → reg (fld b 8 6) (sfld b 14 32) → fld b 84 1 = 0 → a % 4 = 0 → x.wrFail = 0 → d.streamsOut f < 16 →
      exec (.sig f) s = .next (s.ran ((d.advance f).issue
        { xf .sig 4 with data := [(0, BitVec.ofNat 512 (fld b 46 32 * 2 ^ (8 * (a % 64))))] } (x.pc * 16)))) ∧
    (opOf b = 0x15 → reg (fld b 8 6) (sfld b 14 32) → fld b 87 1 = 0 → a % 4 = 0 → fld b 46 3 < 6 →
      d.xfers.any (fun e => e.mid == f && e.kind == .waitm) = false →
      exec (.waitm f) s = .next (s.ran (((d.bumpFree (cFrd f 6)).modFrond f (fun y => { y with waiting := true })).issue
        { xf .waitm 4 with data := [(0, 0#512)] } (x.pc * 16))))

/-- The streams (05 R148, R153): LDS, STS and ATOM of rows that lie in this module's address space and in the operand
store take one transfer of ROWS rows of ROWG granules. -/
def Obligations.FrondStreams : Prop :=
  ∀ (s : State) (f : Fin 256) (u : WUnit) (b : BitVec 128) (a : Nat), s.dev.alive = true → Issues s.dev f u b →
    s.dev.sthOn f = false → s.dev.streamsOut f < 16 →
    let d := s.dev
    let x := d.frond f
    let ok (sa osa rowG rows : Nat) (stride off : Int) : Prop :=
      d.pendingReg f sa = false ∧ x.pois sa = false ∧ ((x.r sa).toNat : Int) + off * 64 = a ∧ a % 64 = 0 ∧ stride % 64 = 0 ∧
      rowsOut a rowG rows stride = false ∧ osa + rowG * rows ≤ 393216
    let xf (k : XKind) (osa rowG rows : Nat) (stride : Int) (fe : Option Nat) : Xfer :=
      { id := 0, mid := f, kind := k, base := a, n := rowG * rows, rowG := rowG, stride := stride, limit := rowG * rows
        loc := osa, flag := fe, ip := x.pc, order := x.order, wset := u.wset, unit := u.key }
    let rowG := cnt (fld b 39 10) 1024
    let rows := cnt (fld b 49 16) 65536
    let rowGA := cnt (fld b 42 10) 1024
    let rowsA := cnt (fld b 52 16) 65536
    (opOf b = 0x20 → fld b 127 1 = 0 → ok (fld b 14 6) (fld b 20 19) rowG rows (sfld b 65 32) (sfld b 97 24) →
      exec (.lds f) s = .next (s.ran ((d.advance f).issue
        { xf .lds (fld b 20 19) rowG rows (sfld b 65 32) (feOf (fld b 9 1) (fld b 10 4)) with lu := fld b 8 1 == 1 }
        (x.pc * 16)))) ∧
    (opOf b = 0x21 → fld b 127 1 = 0 → ok (fld b 14 6) (fld b 20 19) rowG rows (sfld b 65 32) (sfld b 97 24) →
      exec (.sts f) s = .next (s.ran ((d.advance f).issue
        (xf .sts (fld b 20 19) rowG rows (sfld b 65 32) (feOf (fld b 9 1) (fld b 10 4))) (x.pc * 16)))) ∧
    (opOf b = 0x22 → fld b 126 1 = 0 → fld b 8 2 ≠ 3 → fld b 10 2 ≠ 3 →
      ok (fld b 17 6) (fld b 23 19) rowGA rowsA (sfld b 68 32) (sfld b 100 20) →
      exec (.atom f) s = .next (s.ran ((d.advance f).issue
        { xf .atom (fld b 23 19) rowGA rowsA (sfld b 68 32) (feOf (fld b 12 1) (fld b 13 4)) with
          aop := fld b 8 2, afmt := fld b 10 2 } (x.pc * 16))))

/-- Windows (03 R88, R89, R90). A page is granted where some valid window of the set has the space, the kind and the page. A
transfer whose lines the set grants is to be performed whole; otherwise the pieces before the first refused line are to be
performed, and that line freezes its master. What the freeze cuts short is what the copy engines and a FILL unit have still
to issue, and a wait's next reading. -/
def Obligations.IssueChecksWindows : Prop :=
  (∀ (d : Dev) (set space page : Nat) (k : AccK), d.allowed set space k page = true ↔ ∃ w < 16,
    (d.winWord set w 1).getLsbD 30 = true ∧ bf (d.winWord set w 1) 29 28 = space ∧ (d.winWord set w 0).getLsbD k.bit = true ∧
    bf (d.winWord set w 0) 27 0 ≤ page ∧ page ≤ bf (d.winWord set w 1) 27 0) ∧
  ∀ (d : Dev) (x : Xfer) (ctx : Nat), x.remote = none → 0 < x.n → x.next = 0 →
    let ok (i : Nat) : Prop := d.allowed x.wset 0 x.kind.acc (x.addr i / 4096) = true
    ((∀ i < x.n, ok i) →
      d.issue x ctx = { d with nextX := d.nextX + 1, xfers := d.xfers ++ [{ x with id := d.nextX, limit := x.n }] }) ∧
    (∀ i < x.n, ¬ ok i → (∀ j < i, ok j) → x.mid < 0x916 →
      (d.issue x ctx).isFrozen x.mid = true ∧
      (x.kind ∉ [.copyRead, .copyWrite, .waitm, .gWaitm] → x.kind ≠ .gFill ∨ x.ip ≠ 0x10000 → 0 < i →
        { x with id := d.nextX, limit := i } ∈ (d.issue x ctx).xfers) ∧
      ((∀ z ∈ d.xfers, z.id ≠ d.nextX) → ∀ y ∈ (d.issue x ctx).xfers, y.id = d.nextX → 0 < i ∧ y.limit ≤ i))

/-- A compute instruction that passes its checks, while fewer than eight wait, takes the last place of the queue (05 R136,
R155-R161). -/
def Obligations.ComputeInstructionsQueue : Prop :=
  ∀ (s : State) (f : Fin 256) (u : WUnit) (b : BitVec 128), s.dev.alive = true → Issues s.dev f u b →
    let d := s.dev
    let x := d.frond f
    let queued (idx : DWord) : State := s.ran (((d.modFrond f (fun y =>
      { y with cq := y.cq ++ [{ n := x.order, ip := x.pc, bits := b, idx := idx }] })).advance f).cqPump f 9)
    (x.cq.filter (fun e => !e.started)).length < 8 →
    (opOf b = 0x30 → noneOf (topCodes x.classAhead (topF b)) = true → exec (.top f) s = .next (queued 0#64)) ∧
    (opOf b = 0x31 → fld b 8 4 ≠ 0 → fld b 12 2 ≠ 3 → exec (.tzero f) s = .next (queued 0#64)) ∧
    (opOf b = 0x32 → noneOf (tmoviCodes b) = true → exec (.tmovi f) s = .next (queued 0#64)) ∧
    (opOf b = 0x33 → noneOf (tmovoCodes x.classAhead b) = true → exec (.tmovo f) s = .next (queued 0#64)) ∧
    (opOf b = 0x34 → noneOf (tmovrCodes x.classAhead b) = true → d.pendingReg f (fld b 30 6) = false →
      x.pois (fld b 30 6) = false → exec (.tmovr f) s = .next (queued (x.r (fld b 30 6)))) ∧
    (opOf b = 0x38 → noneOf (turnCodes b) = true → exec (.turn f) s = .next (queued 0#64)) ∧
    (opOf b = 0x40 → noneOf (rowCodes b) = true → exec (.row f) s = .next (queued 0#64)) ∧
    (opOf b = 0x41 → noneOf (topkrCodes b) = true → exec (.topkr f) s = .next (queued 0#64)) ∧
    (opOf b = 0x42 → exec (.rowcfg f) s = .next (queued 0#64))

/-- A compute instruction that starts and ends (05 R136, R139, R160, 04 R118): ROWCFG sets EPS and the row mask; TZERO fills
the arrays of its mask, clears their poison and sets their class, and leaves the others; a started instruction leaves the
queue at its end, and FE adds 1 to its flag. -/
def Obligations.ComputeInstructionEffects : Prop :=
  (∀ (d : Dev) (f : Nat) (e : CQ), opOf e.bits = 0x42 →
    d.cqRun f e = d.modFrond f (fun x => { x with eps := BitVec.ofNat 32 (fld e.bits 8 32), mrow := fld e.bits 40 6 })) ∧
  (∀ (d : Dev) (f : Nat) (e : CQ) (q : Nat), opOf e.bits = 0x31 → q < 4 →
    ((d.cqRun f e).frond f).arr q =
      if (fld e.bits 8 4).testBit q then
        { (d.frond f).arr q with
          fill := [0#32, if fld e.bits 14 1 = 1 then 0x7FFFFFFF#32 else 0x7F800000#32].getD (fld e.bits 12 2)
            (if fld e.bits 14 1 = 1 then 0x80000000#32 else 0xFF800000#32)
          cells := [], pois := [], int := fld e.bits 14 1 == 1 }
      else (d.frond f).arr q) ∧
  (∀ (s : State) (f : Fin 256) (e : CQ), s.dev.alive = true → (s.dev.frond f).cq = [e] → e.started = true →
    opOf e.bits = 0x31 →
    exec (.computeInstructionEnd f e.n) s = .next (s.ran (
      let d := s.dev.modFrond f (fun x => { x with cq := [] })
      if fld e.bits 15 1 = 1 then d.addFlag f (fld e.bits 16 4) e.ip e.n false else d)))

/-- A program exception stops its unit (05 R165, R169): the running unit drains, with FAULTED's cause and the code, index and
status in AUX among its endings, where it takes the place of one whose instruction is later in program order. A unit that
ends COMPLETE (02 R64): its entry holds state COMPLETE, cause 0 and no
uncertain region, and the unit waits to be journalled. At most 512 units are carried over a tick, each carry counted in its
unit (02 R61). The units in hand keep different numbers: a plan's units take the next ones. -/
def Obligations.UnitEndingsAndCarries : Prop :=
  (∀ (d : Dev) (f code ip st : Nat) (u : WUnit), d.unit (d.frond f).unit = some u → u.phase = 1 →
    ∃ v, (d.frondExc f code ip st).unit (d.frond f).unit = some v ∧ v.phase = 2 ∧
      v.stops = (if u.stops.any (fun e => e.1 == 8) = true ∧ u.excAt ≤ (d.frond f).order then u.stops
        else u.stops.filter (fun e => e.1 != 8)) ++ [(8, code + ip * 2 ^ 8 + st * 2 ^ 22)]) ∧
  (∀ (d : Dev) (k : Nat) (u : WUnit), d.unit k = some u → u.phase ≠ 3 →
    (∃ v, (d.endUnit k 0 0 0).unit k = some v ∧ v.phase = 3 ∧ v.state = 0 ∧ v.cause = 0 ∧ v.uncertain = 0#8 ∧
      v.uncertainOther = false ∧ v.lastCommit = u.lastCommit) ∧
    (d.endUnit k 0 0 0).endedQ = d.endedQ ++ [k]) ∧
  (∀ d : Dev, (d.units.map (·.key)).Nodup → (d.units.filter (fun u => u.phase != 3 && decide (0 < u.carried))).length ≤ 512 →
    (d.tickCarry.units.filter (fun u => u.phase != 3)).length ≤ 512 ∧
    ∀ u ∈ d.tickCarry.units, u.phase ≠ 3 → 0 < u.carried) ∧
  (∀ (d : Dev) (i : Nat) (p : Plan), (d.units.map (·.key)).Nodup → (∀ u ∈ d.units, u.key < d.nextU) →
    ((d.takePlan i p).units.map (·.key)).Nodup ∧ ∀ u ∈ (d.takePlan i p).units, u.key < (d.takePlan i p).nextU)

/-! ### Waits, streams and attention of a frond -/

/-- WAITM_POLL reads the word of a WAITM again; STREAM_END of a stream of which nothing is left ends it, and FE adds 1 to its
flag (05 R139, R152). READ_DATA_RETURN and WRITE_LANDED of a frond's streams (05 R138, R154): a granule that was read is in
the operand store with its poison; a write that did not land keeps its first status until the next commit point. -/
def Obligations.FrondWaitsAndStreams : Prop :=
  (∀ (s : State) (f : Fin 256) (x : Xfer), s.dev.alive = true → x.mid = f → x.gr = [] → x.sent = [] →
    let d := s.dev
    ((d.issuing f).isSome = true → x.kind = .waitm → x.next = 1 →
      d.xfers.find? (fun y => y.mid == f.val && y.kind == .waitm && y.next == 1 && y.gr.isEmpty && y.sent.isEmpty) = some x →
      exec (.waitmPoll f) s = .next (s.ran (d.modXfer x.id (fun e => { e with next := 0 })))) ∧
    (x.kind = .lds ∨ x.kind = .sts ∨ x.kind = .atom → x.next = x.limit → x.limit = x.n → d.xfer x.id = some x →
      exec (.streamEnd x.id) s = .next (s.ran (match x.flag with
        | some n => (d.endXfer x.id).addFlag f n x.ip x.order true
        | none => d.endXfer x.id)))) ∧
  (∀ (s : State) (x : Xfer) (r : XGr), s.dev.alive = true → s.dev.xfer x.id = some x → x.mid < 256 →
    x.gr.find? (fun y => y.i == r.i && y.stage == 1) = some r →
    let d := s.dev
    (x.kind = .lds → r.status < 4 → ∃ d' : Dev, exec (.readDataReturn x.id r.i) s = .next (s.ran d') ∧
      (d'.frond x.mid).os.get (x.loc + r.i) 0#512 = r.data ∧
      ((d'.frond x.mid).osP.find (x.loc + r.i)).isSome = (r.status == 1) ∧
      (∀ g, g ≠ x.loc + r.i → (d'.frond x.mid).os.get g 0#512 = (d.frond x.mid).os.get g 0#512) ∧
      (d'.frond x.mid).sreg = (d.frond x.mid).sreg ∧ (d'.frond x.mid).arrs = (d.frond x.mid).arrs ∧
      (∀ g, g ≠ x.mid → d'.frond g = d.frond g) ∧ d'.mem = d.mem ∧ d'.halves = d.halves) ∧
    (x.kind = .sts → ∃ d' : Dev, exec (.writeLanded x.id r.i) s = .next (s.ran d') ∧
      (d'.frond x.mid).wrFail = (if 4 ≤ r.status ∧ (d.frond x.mid).wrFail = 0 then r.status else (d.frond x.mid).wrFail) ∧
      (d'.frond x.mid).os = (d.frond x.mid).os ∧ d'.mem = d.mem ∧ d'.halves = d.halves))

/-- ATT (05 R163, 06 R200, R201): a set-up of an aligned descriptor that needs no arena reads its 64 words through the cache
path; a run of a valid descriptor starts at its first item; an item of MERGE that is not the last and meets no stop merges its
64 rows, and the next item follows. -/
def Obligations.AttentionCommands : Prop :=
  ∀ (s : State) (f : Fin 256), s.dev.alive = true →
    let d := s.dev
    let x := d.frond f
    (∀ (u : WUnit) (b : BitVec 128) (a : Nat), Issues d f u b → opOf b = 0x48 → fld b 8 2 = 0 →
      d.pendingReg f (fld b 15 6) = false → x.pois (fld b 15 6) = false →
      ((x.r (fld b 15 6)).toNat : Int) + sfld b 21 32 = a → a % 64 = 0 → a + 256 ≤ 2 ^ 40 → x.att.running = false →
      fld b 10 1 = 0 → ∃ e : Dev, exec (.attSetup f) s = .next (s.ran e) ∧ match d.attWords ⟨f, u, x.pc, x.order⟩ a 64 with
        | (d1, none) => e = d1.heldOr d f
        | (d1, some ws) => ADesc.app ⟨ws⟩ = false → ADesc.mode ⟨ws⟩ ≠ 3 → e = (d1.modFrond f (fun y =>
            { y with att := { y.att with desc := ws, arena := [], fresh := true } })).advance f) ∧
    (∀ (u : WUnit) (b : BitVec 128), Issues d f u b → opOf b = 0x48 → fld b 8 2 = 1 → x.att.running = false →
      ADesc.bad ⟨x.att.desc⟩ x.att.arena x.att.fresh = false →
      ∃ d' : Dev, exec (.attRun f) s = .next (s.ran ((d'.inc (cFrd f 28)).advance f)) ∧ (d'.frond f).att.running = true ∧
        (d'.frond f).att.rdesc = x.att.desc ∧ (d'.frond f).att.slot = 0 ∧ (d'.frond f).att.tile = 0 ∧
        (d'.frond f).sreg = x.sreg ∧ d'.mem = d.mem) ∧
    (∀ u : WUnit, d.issuing f = some u → x.att.running = true → ADesc.mode ⟨x.att.rdesc⟩ = 4 →
      64 * (x.att.tile + 1) < ADesc.nq ⟨x.att.rdesc⟩ →
      let m := ((d.bumpFree (cFrd f 30)).modFrond f (fun y => { y with att := { y.att with held := 0 } })).mergeItem
        ⟨f, u, x.att.ip, x.att.order⟩ ⟨x.att.rdesc⟩ x.att.tile
      m.2.1 = true → ADesc.lse ⟨x.att.rdesc⟩ = false ∨ (m.1.frond f).att.held = 0 →
      exec (.attItemEnd f) s = .next (s.ran (m.1.setAtt f
        { x.att with tile := x.att.tile + 1, code := if m.2.2 = true ∨ x.att.code = 7 then 7 else 0 })))

/-! ### Gemmas (10) -/

/-- The integer instructions of the base set (10 R311, log 13): ALU, upper immediates, jumps and branches. A result is
poisoned by any poisoned register it was computed from (log 41). -/
def Obligations.GemmaIntegerResults : Prop :=
  ∀ (s : State) (g : Fin 2048) (u : WUnit) (i : RvI), s.dev.alive = true → GemIssues s.dev g u i .base →
    let d := s.dev
    let x := d.gemma g
    let pc : Word := BitVec.ofNat 32 x.pc
    let imm : Word := BitVec.ofInt 32 i.imm
    let a := x.rx i.rs1
    let b := x.rx i.rs2
    let p1 := x.px i.rs1
    let p2 := x.px i.rs2
    let set (e : Dev) (w : Word) (p : Bool) : Dev := e.modGemma g (fun y => y.setX i.rd w p)
    let link : Dev := set d (BitVec.ofNat 32 (x.pc + i.size)) false
    (i.op = 0x37 → exec (.gemmaBaseInstruction g) s = .next (s.ran ((set d imm false).gemStep g i))) ∧
    (i.op = 0x17 → exec (.gemmaBaseInstruction g) s = .next (s.ran ((set d (pc + imm) false).gemStep g i))) ∧
    (i.op = 0x13 → exec (.gemmaBaseInstruction g) s = .next (s.ran ((set d (rvAlu i.f3 (i.f3 == 5 && i.f7 == 32) a imm) p1).gemStep g i))) ∧
    (i.op = 0x33 → i.f7 ≠ 1 → exec (.gemmaBaseInstruction g) s = .next (s.ran (
      (set d (rvAlu i.f3 (i.f7 == 32) a b) (p1 || p2)).gemStep g i))) ∧
    (i.op = 0x33 → i.f7 = 1 → exec (.gemmaBaseInstruction g) s = .next (s.ran ((set d (rvMul i.f3 a b) (p1 || p2)).gemStep g i))) ∧
    (i.op = 0x6F → exec (.gemmaBaseInstruction g) s = .next (s.ran (link.gemNext g (pc + imm).toNat))) ∧
    (i.op = 0x67 → p1 = false → exec (.gemmaBaseInstruction g) s = .next (s.ran (link.gemNext g ((a + imm).toNat / 2 * 2)))) ∧
    (i.op = 0x63 → p1 = false → p2 = false →
      exec (.gemmaBaseInstruction g) s = .next (s.ran (if rvBranch i.f3 a b = true then d.gemNext g (pc + imm).toNat else d.gemStep g i))) ∧
    (i.op = 0x0F → exec (.gemmaBaseInstruction g) s = .next (s.ran (d.gemStep g i)))

/-- Register x0 reads 0 without poison and discards writes; a write of another register changes that one alone. -/
def Obligations.GemmaRegisters : Prop :=
  ∀ (x : Gemma) (n m : Nat) (w : Word) (p : Bool),
    x.rx 0 = 0#32 ∧ x.px 0 = false ∧ x.setX 0 w p = x ∧
    (n ≠ 0 → (x.setX n w p).rx n = w ∧ (x.setX n w p).px n = p) ∧
    (m ≠ n → (x.setX n w p).rx m = x.rx m ∧ (x.setX n w p).px m = x.px m) ∧
    (x.setF n w p).rf n = w ∧ (x.setF n w p).pf n = p ∧
    (m ≠ n → (x.setF n w p).rf m = x.rf m ∧ (x.setF n w p).pf m = x.pf m)

/-- Base loads and stores of the gemma's own SRAM (10 R311, R312): naturally aligned, within 128 KiB, with no unfinished
transfer in the way. -/
def Obligations.GemmaLoadsAndStores : Prop :=
  ∀ (s : State) (g : Fin 2048) (u : WUnit) (i : RvI), s.dev.alive = true → GemIssues s.dev g u i .base →
    let d := s.dev
    let x := d.gemma g
    let a := (x.rx i.rs1 + BitVec.ofInt 32 i.imm).toNat
    let n := 2 ^ (i.f3 % 4)
    x.px i.rs1 = false → a % n = 0 → a + n ≤ 0x20000 →
    (i.op = 0x03 → d.gemStall g a n false = false → exec (.gemmaBaseInstruction g) s = .next (s.ran
      ((d.modGemma g (fun y => y.setX i.rd (rvLoad i.f3 (x.bytes a n).1) (x.bytes a n).2)).gemStep g i))) ∧
    (i.op = 0x07 → d.gemStall g a n false = false → exec (.gemmaBaseInstruction g) s = .next (s.ran
      ((d.modGemma g (fun y => y.setF i.rd (BitVec.ofNat 32 (x.bytes a n).1) (x.bytes a n).2)).gemStep g i))) ∧
    (i.op = 0x23 → d.gemStall g a n true = false → exec (.gemmaBaseInstruction g) s = .next (s.ran
      ((d.modGemma g (fun y => y.putBytes a n (x.rx i.rs2).toNat (x.px i.rs2) false)).gemStep g i))) ∧
    (i.op = 0x27 → d.gemStall g a n true = false → exec (.gemmaBaseInstruction g) s = .next (s.ran
      ((d.modGemma g (fun y => y.putBytes a n (x.rf i.rs2).toNat (x.pf i.rs2) false)).gemStep g i)))

/-- ECALL raises its exception; a CSR instruction reads the CSR and writes its listed bits, unless it would write a poisoned
value (10 R311, R322, R331, R333). -/
def Obligations.GemmaSystemInstructions : Prop :=
  ∀ (s : State) (g : Fin 2048) (u : WUnit) (i : RvI), s.dev.alive = true →
    let d := s.dev
    let x := d.gemma g
    (GemIssues d g u i .ecall → exec (.gemmaEcall g) s = .next (s.ran (d.gemExc g 2 x.pc 0))) ∧
    (GemIssues d g u i .csr →
      let n := (i.imm % 4096).toNat
      let src : Word := if 4 ≤ i.f3 then BitVec.ofNat 32 i.rs1 else x.rx i.rs1
      n ≠ 0xC00 → n ≠ 0xC80 → (4 ≤ i.f3 ∨ x.px i.rs1 = false) →
      let old := d.gemCsr g u n
      (i.f3 % 4 = 1 → exec (.gemmaCsrAccess g) s = .next (s.ran
        ((d.modGemma g (fun y => (y.setCsr n src).setX i.rd old false)).gemStep g i))) ∧
      (i.f3 % 4 = 2 → i.rs1 ≠ 0 → exec (.gemmaCsrAccess g) s = .next (s.ran
        ((d.modGemma g (fun y => (y.setCsr n (old ||| src)).setX i.rd old false)).gemStep g i))) ∧
      (i.f3 % 4 = 3 → i.rs1 ≠ 0 → exec (.gemmaCsrAccess g) s = .next (s.ran
        ((d.modGemma g (fun y => (y.setCsr n (old &&& ~~~ src)).setX i.rd old false)).gemStep g i))) ∧
      ((i.f3 % 4 = 2 ∨ i.f3 % 4 = 3) → i.rs1 = 0 → exec (.gemmaCsrAccess g) s = .next (s.ran
        ((d.modGemma g (fun y => y.setX i.rd old false)).gemStep g i))))

/-- What stops a program as it fetches, under every command that could meet it. A frond: an undefined opcode raises ENCODING,
and a poisoned instruction ends the unit POISON_CONTROL (05 R142, R143, R169, R170). A gemma: past its program's end
FETCH_END, a marked granule POISON_CONTROL, no instruction or an illegal one ILLEGAL (10 R312, R318, R331, R333). -/
def Obligations.ProgramFetchFaults : Prop :=
  (∀ (s : State) (f : Fin 256) (u : WUnit) (t : Nat), s.dev.alive = true → s.dev.issuing f = some u →
    let d := s.dev
    let x := d.frond f
    let b := x.store.get x.pc 0#128
    let rows : List Instr := [.nop f, .fend f, .commit f, .salu f, .sld f, .sst f, .srd f t, .br f, .loop f, .waitf f, .waitm f,
      .sig f, .fence f, .lds f, .sts f, .atom f, .top f, .tzero f, .tmovi f, .tmovo f, .tmovr f, .turn f, .row f, .topkr f,
      .rowcfg f, .attSetup f, .attRun f]
    x.pc < x.len → ∀ c ∈ rows,
    ((x.storeP.find x.pc).isSome = true → exec c s = .next (s.ran (d.stopUnit x.unit 9 (x.pc * 2 ^ 8)))) ∧
    (x.storeP.find x.pc = none → opFields (opOf b) = none → exec c s = .next (s.ran (d.frondExc f 1 x.pc 0)))) ∧
  (∀ (s : State) (g : Fin 2048) (u : WUnit), s.dev.alive = true → s.dev.gemIssuing g = some u →
    let d := s.dev
    let x := d.gemma g
    let rows : List Instr := [.gemmaBaseInstruction g, .gemmaEcall g, .gemmaCsrAccess g, .gbLd g [], .gbSt g [], .gbFill g [],
      .gbCrd g, .gbCwr g, .gbAtom g, .gbWait g, .gvLd g, .gvSt g, .gvDot g, .gvAxpy g, .gvMinadd g, .gvMaxadd g, .gvMac g,
      .gvScal g, .gvZero g, .gvRsum g, .gvRmin g, .gvRmax g, .gvArgmin g, .gvArgmax g, .gbCommit g, .gbFend g, .gbSig g,
      .gbWaitm g, .gbInfl g, .gbCrc g, .fexp2 g, .gbFence g]
    ∀ c ∈ rows,
      (x.fetch = .past → exec c s = .next (s.ran (d.gemExc g 5 x.pc 0))) ∧
      (x.fetch = .poison → exec c s = .next (s.ran (d.gemPoison g))) ∧
      (x.fetch = .word none → exec c s = .next (s.ran (d.gemExc g 1 x.pc 0))) ∧
      (∀ i, x.fetch = .word (some i) → i.kind (x.fcsr / 32) = .illegal → exec c s = .next (s.ran (d.gemExc g 1 x.pc 0))))

/-- GB.LD, GB.ST and GB.FILL of a range of one free bank, with staging free, issue one transfer of its granules and run it
(10 R319, R326); GB.WAIT waits for the transfers it names. -/
def Obligations.GemmaBankTransfers : Prop :=
  ∀ (s : State) (g : Fin 2048) (u : WUnit) (i : RvI) (rt : List ReadTry) (wt : List WriteTry), s.dev.alive = true →
    GemIssues s.dev g u i .transfer → i.rd = 0 →
    let d := s.dev
    let x := d.gemma g
    let a := (x.rx i.rs1).toNat
    let sd := x.rx i.rs2
    let n := sdCount sd
    let clean := x.px i.rs1 = false ∧ x.px i.rs2 = false
    let free (n : Nat) : Prop := gbaBad a n = false ∧ d.bankBusy g (gbaLin g a) = false ∧ d.gemAtomHeld g (gbaLin g a) n = false
    let staging := sdRange sd = false ∧ sdBad sd = false
    let xf (k : XKind) (n loc : Nat) : Xfer := d.gemXfer g u k (gbaLin g a) n loc
    let go (y : Xfer) (rt : List ReadTry) (wt : List WriteTry) : State :=
      s.ran (((d.gemStep g i).issue y x.pc).bankRun g d.nextX rt wt)
    (i.f3 = 0 → i.f7 < 2 → clean → free n → staging → d.gemStall g (0x10000 + 64 * sdFirst sd) (64 * n) true = false →
      exec (.gbLd g rt) s = .next (go { xf .gLd n (1024 + sdFirst sd) with lu := i.f7 == 1 } rt [])) ∧
    (i.f3 = 1 → i.f7 = 0 → clean → free n → staging → d.gemStall g (0x10000 + 64 * sdFirst sd) (64 * n) false = false →
      exec (.gbSt g wt) s = .next (go ((xf .gSt n (1024 + sdFirst sd)).capture x) [] wt)) ∧
    (i.f3 = 2 → i.f7 = 0 → clean → free (cnt (bf sd 7 0) 256) →
      exec (.gbFill g wt) s = .next (go { xf .gFill (cnt (bf sd 7 0) 256) 0 with
        data := (List.range (cnt (bf sd 7 0) 256)).map (fun j => (j, fillGran (x.c 0x806))) } [] wt)) ∧
    (i.f3 = 6 → i.rs1 = 0 → i.rs2 = 0 → i.f7 < 32 →
      exec (.gbWait g) s = .next (s.ran (
        if d.gemOutstanding g i.f7 = true then d.modGemma g (fun y => { y with waiting := true }) else d.gemStep g i)))

/-- GB.CRD, GB.CWR and GB.ATOM of a 64-B-aligned address of this module, while fewer than eight cache-path transfers are
outstanding and staging is free, issue one transfer (10 R319). -/
def Obligations.GemmaCacheTransfers : Prop :=
  ∀ (s : State) (g : Fin 2048) (u : WUnit) (i : RvI), s.dev.alive = true → GemIssues s.dev g u i .transfer → i.rd = 0 →
    let d := s.dev
    let x := d.gemma g
    let a := x.caddr i.rs1
    let sd := x.rx i.rs2
    let n := sdCount sd
    let stall (wr : Bool) : Bool := d.gemStall g (0x10000 + 64 * sdFirst sd) (64 * n) wr
    let xf (k : XKind) : Xfer := d.gemXfer g u k a n (1024 + sdFirst sd)
    let go (y : Xfer) : State := s.ran ((d.gemStep g i).issue y x.pc)
    let host : Option Bool := if i.f7 / 2 % 2 = 1 then some d.swizzle else none
    x.px i.rs1 = false → x.px i.rs2 = false → a % 64 = 0 → sdRange sd = false → sdBad sd = false → d.cachePath g < 8 →
    (i.f3 = 3 → i.f7 < 4 → stall true = false →
      exec (.gbCrd g) s = .next (go { xf .gCrd with lu := i.f7 % 2 == 1, host := host })) ∧
    (i.f3 = 4 → i.f7 < 4 → i.f7 % 2 = 0 → stall false = false →
      exec (.gbCwr g) s = .next (go (Xfer.capture { xf .gCwr with host := host } x))) ∧
    (i.f3 = 5 → i.f7 < 16 → i.f7 % 4 ≠ 3 → i.f7 / 4 % 4 ≠ 3 → stall false = false →
      exec (.gbAtom g) s = .next (go { (xf .gAtom).capture x with aop := i.f7 % 4, afmt := i.f7 / 4 % 4 }))

/-- The vector instructions with a staging operand that passes its checks (10 R320, R324): GV.LD of every format, GV.ST of
every format, with its words unchanged in FP32, GV.DOT as the exact sum rounded once, and the updates of vd. -/
def Obligations.GemmaVectorOperands : Prop :=
  ∀ (s : State) (g : Fin 2048) (u : WUnit) (i : RvI), s.dev.alive = true → GemIssues s.dev g u i .vector →
    let d := s.dev
    let x := d.gemma g
    let f := x.gfmt
    let int := fmtInt f
    let a := (x.rx i.rs1).toNat
    let v := x.vec i.rd
    let w := x.vec i.rs2
    let pe := (x.elems a).any (fun e => e.2.2)
    let elem (l : Nat) : Val := codeVal f (x.elem a l)
    let best (mode l : Nat) : Word × CellFlags :=
      if int = true then cellInt mode ((d.arrCtrl (g / 8)).getLsbD 3) (v.at' l) (w.at' l).toInt (twos (fmtBits f) (x.elem a l).1) 0 0
      else cellFloat mode (v.at' l) (f32 (w.at' l)) (elem l)
    (i.f7 = 0 → d.opChk g i.rs1 (hi16 i.rd || i.rs2 != 0) false false = .ok →
      exec (.gvLd g) s = .next (s.ran (d.gvUpdate g i int pe (fun l =>
        if int = true then (BitVec.ofInt 32 (twos (fmtBits f) (x.elem a l).1), 0#3) else roundCell (elem l) (elem l).isNan)))) ∧
    (i.f7 = 1 → d.opChk g i.rs1 (i.rd != 0 || hi16 i.rs2) (clsBad x i.rs2 int) true = .ok →
      let r := x.gvStored a w (outCfg (d.arrCtrl (g / 8)))
      exec (.gvSt g) s = .next (s.ran (((d.setGemma g r.1).modGemma g (fun y => y.flagIn (gvFlag 0#3 r.2))).gemStep g i)) ∧
      (f = 12 → r = (x.putBytes a ((x.c 0x803).toNat * grpBytes f) (gvPack f (((List.range (x.c 0x803).toNat).flatMap (fun q =>
        (List.range 32).map (fun l => w.at' (32 * q + l)))).map (fun e => e.toNat))) w.pois true, false))) ∧
    (i.f7 = 2 → d.opChk g i.rs1 (hi16 i.rs2) (int || clsBad x i.rs2 false) false = .ok →
      let ps := (List.range x.vl).map (fun l => (f32 (w.at' l), elem l))
      let c := f32 (x.rf i.rd)
      let nan (e : Val × Val) : Bool := e.1.isNan || e.2.isNan
      let sum := (ps.filter (fun e => !nan e)).foldl (fun m e => m.add (e.1.mul e.2)) (if c.isNan = true then .num false 0 0 else c)
      let r := if c.isNan = true ∨ ps.any nan = true then (canonNan, if sum.isNan = true then 1#3 else 0#3) else roundCell sum false
      exec (.gvDot g) s = .next (s.ran ((d.modGemma g (fun y =>
        (y.setF i.rd r.1 (w.pois || x.pf i.rd || pe)).flagIn (gvFlag r.2 false))).gemStep g i))) ∧
    (i.f7 = 3 → d.opChk g i.rs1 (hi16 i.rd) (int || clsBad x i.rd false) false = .ok →
      exec (.gvAxpy g) s = .next (s.ran (d.gvUpdate g i false (x.pf i.rs2 || v.pois || pe)
        (fun l => cellFloat 0 (v.at' l) (f32 (x.rf i.rs2)) (elem l))))) ∧
    (i.f7 = 4 → d.opChk g i.rs1 (hi16 i.rd || hi16 i.rs2) (clsBad x i.rd int || clsBad x i.rs2 int) false = .ok →
      exec (.gvMinadd g) s = .next (s.ran (d.gvUpdate g i int (w.pois || v.pois || pe) (best 3)))) ∧
    (i.f7 = 5 → d.opChk g i.rs1 (hi16 i.rd || hi16 i.rs2) (clsBad x i.rd int || clsBad x i.rs2 int) false = .ok →
      exec (.gvMaxadd g) s = .next (s.ran (d.gvUpdate g i int (w.pois || v.pois || pe) (best 4))))

/-- The vector instructions among registers (10 R320, R324): products, scaling, fills, and the reductions; a sum goes up the
elements and rounds at each add. -/
def Obligations.GemmaVectorRegisters : Prop :=
  (∀ (s : State) (g : Fin 2048) (u : WUnit) (i : RvI), s.dev.alive = true → GemIssues s.dev g u i .vector →
    let d := s.dev
    let x := d.gemma g
    let a := x.vec i.rs1
    let b := x.vec i.rs2
    let v := x.vec i.rd
    let lane := (List.range x.vl).map a.at'
    (i.f7 = 6 → i.rd < 16 → i.rs1 < 16 → i.rs2 < 16 → v.int = false → a.int = false → b.int = false →
      exec (.gvMac g) s = .next (s.ran (d.gvUpdate g i false (v.pois || a.pois || b.pois)
        (fun l => cellFloat 0 (v.at' l) (f32 (a.at' l)) (f32 (b.at' l)))))) ∧
    (i.f7 = 7 → i.rd < 16 → i.rs1 < 16 → a.int = false →
      exec (.gvScal g) s = .next (s.ran (d.gvUpdate g i false (a.pois || x.pf i.rs2) (fun l =>
        roundCell ((f32 (a.at' l)).mul (f32 (x.rf i.rs2))) ((f32 (a.at' l)).isNan || (f32 (x.rf i.rs2)).isNan))))) ∧
    (i.f7 = 8 → i.rd < 16 → i.rs1 < 3 → i.rs2 < 2 →
      exec (.gvZero g) s = .next (s.ran (d.gvUpdate g i (i.rs2 == 1) false (fun _ =>
        ([0#32, if i.rs2 = 1 then 0x7FFFFFFF#32 else 0x7F800000#32].getD i.rs1
          (if i.rs2 = 1 then 0x80000000#32 else 0xFF800000#32), 0#3))))) ∧
    (i.f7 = 9 → i.rs1 < 16 → i.rs2 = 0 → a.int = false →
      exec (.gvRsum g) s = .next (s.ran ((d.modGemma g (fun y =>
        (y.setF i.rd (gvSum lane).1 a.pois).flagIn (gvFlag (gvSum lane).2 false))).gemStep g i))) ∧
    (i.f7 = 10 → i.rs1 < 16 → i.rs2 = 0 → exec (.gvRmin g) s = .next (s.ran ((d.modGemma g (fun y =>
        if a.int = true then y.setX i.rd (iPick false lane) a.pois else y.setF i.rd (fPick false lane) a.pois)).gemStep g i))) ∧
    (i.f7 = 11 → i.rs1 < 16 → i.rs2 = 0 → exec (.gvRmax g) s = .next (s.ran ((d.modGemma g (fun y =>
        if a.int = true then y.setX i.rd (iPick true lane) a.pois else y.setF i.rd (fPick true lane) a.pois)).gemStep g i))) ∧
    (i.f7 = 12 → i.rs1 < 16 → i.rs2 = 0 → exec (.gvArgmin g) s = .next (s.ran ((d.modGemma g (fun y =>
        y.setX i.rd (argPick false a.int lane) a.pois)).gemStep g i))) ∧
    (i.f7 = 13 → i.rs1 < 16 → i.rs2 = 0 → exec (.gvArgmax g) s = .next (s.ran ((d.modGemma g (fun y =>
        y.setX i.rd (argPick true a.int lane) a.pois)).gemStep g i)))) ∧
  (∀ c, gvSum [c] = (if (f32 c).isNan = true then canonNan else c, 0#3)) ∧
  (∀ (l : List Word) (c : Word), l ≠ [] →
    let m := gvSum l
    let r := roundCell ((f32 m.1).add (f32 c)) ((f32 m.1).isNan || (f32 c).isNan)
    gvSum (l ++ [c]) = (r.1, m.2 ||| r.2))

/-- An extreme of an integer vector (10 R320, R324): it is one of the elements and none beats it; the index is that of the
first element with the extreme value. -/
def Obligations.GemmaIntegerExtremes : Prop :=
  ∀ (ws : List Word), ws ≠ [] →
    iPick false ws ∈ ws ∧ (∀ w ∈ ws, (iPick false ws).toInt ≤ w.toInt) ∧
    iPick true ws ∈ ws ∧ (∀ w ∈ ws, w.toInt ≤ (iPick true ws).toInt) ∧
    (ws.length ≤ 128 → ws.getD (argPick false true ws).toNat 0#32 = iPick false ws ∧
      (∀ k < (argPick false true ws).toNat, (iPick false ws).toInt < (ws.getD k 0#32).toInt))

/-- The control instructions of a gemma (10 R321, R324, R329, R332), where their checks pass. -/
def Obligations.GemmaControlInstructions : Prop :=
  ∀ (s : State) (g : Fin 2048) (u : WUnit) (i : RvI), s.dev.alive = true → GemIssues s.dev g u i .control →
    let d := s.dev
    let x := d.gemma g
    let done := !d.xfers.any (fun e => e.mid == gemmaMid g)
    let wait := d.modGemma g (fun y => { y with waiting := true })
    let id := i.f7 * 512 + i.rs2 * 16 + i.rs1 / 2
    let zero := i.rd = 0 ∧ i.rs1 = 0 ∧ i.rs2 = 0 ∧ i.f7 = 0
    let a := x.caddr i.rs1
    (i.f3 = 0 → i.rd = 0 → i.rs1 % 2 = 0 → id ≠ 0xFFFF → done = true → x.wrFail = 0 →
      d.barrierId u = none → exec (.gbCommit g) s = .next (s.ran (d.modGemma g (fun y =>
        { y with barrier := some id, ip := x.pc, waiting := true })))) ∧
    (i.f3 = 1 → zero → done = true → x.wrFail = 0 → exec (.gbFend g) s = .next (s.ran (
      let e := (d.inc (cGem g 0)).modGemma g (fun y => { y with fend := true, running := false, ip := x.pc, waiting := true })
      if u.gemList.all (fun k => (e.gemma k).fend) = true then e.endUnit u.key 0 0 0 else e))) ∧
    (i.f3 = 2 → i.rd = 0 → i.f7 = 0 → x.wrFail = 0 → x.px i.rs1 = false → a % 4 = 0 → d.cachePath g < 8 →
      exec (.gbSig g) s = .next (s.ran ((d.gemStep g i).issue { d.gemXfer g u .gSig a 1 0 with
        size := 4, mask := byteMask (a % 64) 4, afmt := 2
        data := [(0, BitVec.ofNat 512 ((x.rx i.rs2).toNat * 2 ^ (8 * (a % 64))))]
        pois := if x.px i.rs2 = true then [0] else [] } x.pc))) ∧
    (i.f3 = 3 → i.rd = 0 → i.f7 < 6 → x.px i.rs1 = false → x.px i.rs2 = false → a % 4 = 0 →
      d.xfers.any (fun y => y.mid == gemmaMid g && y.kind == .gWaitm) = false →
      exec (.gbWaitm g) s = .next (s.ran (wait.issue { d.gemXfer g u .gWaitm a 1 0 with
        size := 4, mask := byteMask (a % 64) 4, aop := i.f7, data := [(1, (x.rx i.rs2).setWidth 512)] } x.pc))) ∧
    (let r := (x.rx i.rs1).toNat
     let n := (x.rx i.rs2).toNat
     i.f3 = 4 → i.rd = 0 → i.f7 < 4 → x.px i.rs1 = false → x.px i.rs2 = false → r < 2 ^ 29 → r % 64 = 0 → n % 64 = 0 →
      r % 2 ^ 27 + n ≤ 2 ^ 27 → exec (.gbInfl g) s = .next (s.ran ((d.modGemma g (fun y =>
        { y with infl := if n = 0 then y.infl.drop i.f7 else y.infl.put i.f7 (gbaLin g r, n) })).gemStep g i))) ∧
    (let r := (x.rx i.rs1).toNat
     let n := (x.rx i.rs2).toNat
     i.f3 = 5 → i.f7 = 0 → x.px i.rs1 = false → x.px i.rs2 = false → r % 4 = 0 → 0x10000 ≤ r → r + n ≤ 0x20000 → n % 4 = 0 →
      0 < n → n ≤ 16384 → d.gemStall g r n false = false → ∃ p, exec (.gbCrc g) s = .next (s.ran (
        let c := crc32cRaw (x.c 0x807) ((List.range n).map (fun j => gByte (x.sram.get ((r + j) / 64) 0#512) ((r + j) % 64)))
        (d.modGemma g (fun y => ({ y with csr := y.csr.put 0x807 c }).setX i.rd (~~~ c) p)).gemStep g i))) ∧
    (i.f3 = 6 → i.rs2 = 0 → i.f7 = 0 → exec (.fexp2 g) s = .next (s.ran ((d.modGemma g (fun y =>
        y.setF i.rd (fExp2 (x.rf i.rs1)) (x.pf i.rs1))).gemStep g i))) ∧
    (i.f3 = 7 → zero → exec (.gbFence g) s = .next (s.ran (if done = true then d.gemStep g i else wait)))

/-- The ends of a gemma's work (10 R319, R321, R328, R332): a transfer with nothing left releases its interlocks; the commit
point passes when every gemma is at the barrier; a claim is released, unless a page is read for its seal; a wait's word is read
again. -/
def Obligations.GemmaEnds : Prop :=
  ∀ (s : State) (g : Fin 2048), s.dev.alive = true →
    let d := s.dev
    (∀ x : Xfer, d.xfer x.id = some x → x.mid = gemmaMid g → x.kind ≠ .gWaitm → x.ip < 0x10000 → x.next = x.limit → x.gr = [] →
      x.sent = [] → x.worst = 0 → (∀ u, d.unit x.unit = some u → u.kind ≠ 3) → exec (.gemmaTransferEnd g x.id) s = .next (s.ran (
        if x.kind.isBank = true then (d.endXfer x.id).claimOver g (bankOf x.base) else d.endXfer x.id))) ∧
    (∀ (u : WUnit) (id : Nat), d.unit u.key = some u → u.kind = 1 → u.phase = 1 → u.gemList = [g.val] →
      (d.gemma g).barrier = some id → exec (.gemmaCommitBarrier u.key) s = .next (s.ran (
        ((d.modUnit u.key (fun v => { v with lastCommit := id, touched := 0#8, touchedOther := false })).modGemma g
          (fun y => { y with barrier := none, commitId := id })).gemNext g ((d.gemma g).pc + 4)))) ∧
    (∀ j : Fin 4, d.sealBusy (localBank g j) = false → ∃ d' : Dev, exec (.claimEnd g j) s = .next (s.ran d') ∧
      (d'.gemma g).claims = (d.gemma g).claims.filter (fun c => c.1 != localBank g j) ∧
      (∀ k, k ≠ g.val → d'.gemma k = d.gemma k) ∧ d'.mem = d.mem ∧ d'.fronds = d.fronds) ∧
    (∀ x : Xfer, (d.gemIssuing g).isSome = true →
      d.xfers.find? (fun y => y.mid == gemmaMid g && y.kind == .gWaitm && y.next == 1 && y.gr.isEmpty && y.sent.isEmpty) = some x →
      exec (.gbWaitmPoll g) s = .next (s.ran (d.modXfer x.id (fun e => { e with next := 0 }))))

/-! ### Frames, plans and work units (02) -/

/-- Ticks (02 R36-R40): when an edge, the internal generator, by itself or standing in, or the fallback ticks, and an early edge,
which is counted and does nothing more. A tick is Dev.tickGo: the boundary of the frame. -/
def Obligations.FrameTicks : Prop :=
  ∀ (s : State) (t high : Nat) (env : TickEnv), s.dev.alive = true → s.dev.bup.stage = 7 →
    let d := s.dev
    let p := d.periodNs
    let went (r : Dev × Fuses) : State := { s.ran r.1 with fuse := r.2 }
    let late : Dev := { d with frm := { d.frm with standIn := !(d.reg tickCtrl).getLsbD 0, lastEdge := none, restore := false } }
    (high < 10 → exec (.frameTickEdge t high env) s = .next (went (d, s.fuse))) ∧
    (d.srcInternal = true → exec (.frameTickEdge t high env) s = .next (went (d, s.fuse))) ∧
    (10 ≤ high → d.srcInternal = false → d.lastTick ≤ t → d.frm.opened = true → 2 * (t - d.lastTick) < p →
      exec (.frameTickEdge t high env) s = .next (went ((d.upTo t).inc (cMod 0), s.fuse))) ∧
    (10 ≤ high → d.srcInternal = false → d.lastTick ≤ t → (d.frm.opened = true → p ≤ 2 * (t - d.lastTick)) →
      d.frm.standIn = false → t ≤ d.lastTick + 4 * p →
      exec (.frameTickEdge t high env) s = .next (went ((d.setTick (fun w => w &&& 0xFFFFFFFE#32)).tickGo s.fuse t false false env))) ∧
    (d.srcInternal = true → d.frm.standIn = false → t = (if d.frm.opened = true then d.lastTick + p else d.frm.entry7) →
      exec (.internalTick t env) s = .next (went ((d.setTick (fun w =>
        (w &&& 0xFFFFFFFE#32) ||| (if (d.reg tickCtrl).getLsbD 0 = true then 1#32 else 0#32))).tickGo s.fuse t true false env))) ∧
    (d.frm.opened = true → d.frm.standIn = true → d.frm.restore = false → (d.reg tickCtrl).getLsbD 0 = false → t = d.lastTick + p →
      exec (.internalTick t env) s = .next (went ((d.setTick (fun w => (w &&& 0xFFFFFFFE#32) ||| 1#32)).tickGo s.fuse t true false env))) ∧
    (d.srcInternal = false → d.frm.standIn = false → t = d.lastTick + 4 * p →
      let r := (late.setTick (fun w => w ||| 3#32)).tickGo s.fuse t true true env
      exec (.fallbackTick t env) s = .next (went ((r.1.inc (cMod 1)).raise 0 { cls := 0, kind := 0, code := 0x0101 }, r.2)))

/-- Plans and units (02 R48, R50, R55, R56, R64, R558, 05 R166). A commit word that reads COMMITTED starts its slot's check, any
other voids what is held of the slot; a checked plan waits for its tick, and a held one is taken, with the shares of its frame.
A ready COPY starts with its reads; a unit without a usable target ends NOT_STARTED with the cause; a stopped unit that has
drained ends with the cause that stands first, RESET before all. -/
def Obligations.PlansAndUnits : Prop :=
  ∀ (s : State), s.dev.alive = true →
    let d := s.dev
    (∀ i : Fin 2, d.bup.stage = 7 → (d.slot i).st ≠ 2 →
      let r := d.sampleCommit i
      let void := r.1.setSlot i { r.1.slot i with st := 0, plan := none }
      exec (.planCommit i) s = .next (s.ran (match r.2 with
        | some w => if cwState w = 1 then void.setSlot i { void.slot i with st := 1 } else void
        | none => void))) ∧
    (∀ (i : Fin 2) (t : Nat), (d.slot i).st = 1 ∨ (d.slot i).st = 2 → match (d.upTo t).checkPlan i with
      | (e, .ok p) => exec (.planCheckEnd i t) s = .next (s.ran (if (d.slot i).st = 2
          then (e.takePlan i p).allocate (e.takePlan i p).pwr.measured else e.setSlot i { e.slot i with st := 3, plan := some p }))
      | (_, .error c) => ∃ e : Dev, exec (.planCheckEnd i t) s = .next (s.ran e) ∧ (e.slot i).st = 0 ∧ (e.slot i).plan = none ∧
          e.frm.reject = some c.1) ∧
    (∀ (k t : Nat) (u : WUnit), d.unit k = some u → d.ready u = true →
      let e := d.upTo t
      let e1 := e.modUnit k (fun v => { v with phase := 1, start := some e.now })
      (∀ c, e.unavailable u = c → c ≠ 0 → exec (.unitDispatch k t) s = .next (s.ran (e.endUnit k 2 c 0))) ∧
      (u.kind = 2 → e.unavailable u = 0 → e.mustWait u = false → u.length ≠ 0 →
        let o := u.addrA % 64
        let n := (o + u.length + 63) / 64
        exec (.unitDispatch k t) s = .next (s.ran { e1 with
          xfers := e1.xfers ++ [({ id := e1.nextX, mid := engineMid u.target, kind := .copyRead, base := u.addrA - o
                                   n := n, rowG := n, limit := n, loc := o
                                   masks := if o = 0 then [] else [(0, byteMask o (64 - o)), (n - 1, byteMask 0 o)]
                                   wset := u.wset, unit := u.key } : Xfer)]
          nextX := e1.nextX + 1 }))) ∧
    (∀ (k t : Nat) (u : WUnit), d.unit k = some u → u.phase = 2 → d.drained u = true →
      let c := chooseStop u.stops
      exec (.unitEnd k t) s = .next (s.ran ((d.upTo t).endUnit k (stateOf c.1) c.1 c.2)) ∧
      ((∃ e ∈ u.stops, e.1 = 12) → c.1 = 12) ∧ (c ∈ u.stops ∨ c = (0, 0)))

/-! ### Banks, the rhizoid and the cache (03, 08, 09) -/

/-- A port's read of a word (08 R260, R264): stored poison at once, poison after two retries that fail, or the data; no read
changes a cell. -/
def Obligations.BankReads : Prop :=
  ∀ (d : Dev) (w : Nat) (port : RdPort) (tr : ReadTry),
    let r := d.readWord w port tr
    (d.stored w = true → r.2 = (0#512, true)) ∧
    (d.stored w = false → d.failMask w port tr ≠ 0#64 → r.2 = (0#512, true)) ∧
    (d.stored w = false → d.failMask w port tr = 0#64 → r.2 = (d.rawWord w, false)) ∧
    r.1.mem.cells = d.mem.cells ∧ r.1.mem.poison = d.mem.poison

/-- A bank receives a write (08 R260, R262, R266, R273): poisoned data, or data that failed every attempt, as bytes on a failed
lane do, becomes stored poison; a write of part of a poisoned word is discarded; any other stores the bytes of its mask. No
other word changes. -/
def Obligations.BankWrites : Prop :=
  ∀ (d : Dev) (w : Nat) (g : Gran) (mask : BitVec 64) (pois : Bool) (k : Nat) (cc : Option Bool),
    Memory.wf d = true → mask ≠ 0#64 →
    let e (tr : WriteTry) : Dev := d.writeWord w g mask pois tr k cc
    let lost : BitVec 64 := (match cc with
      | some c => (d.rhiz (partOf (w * 64))).deadBytes c w
      | none => 0#64) &&& mask
    (∀ b, (e (.failed b)).stored w = true) ∧
    (lost ≠ 0#64 → ∀ tr, (e tr).stored w = true) ∧
    (∀ tr, tr = .good ∨ tr = .resent → pois = true → (e tr).stored w = true) ∧
    (∀ tr, tr = .good ∨ tr = .resent → pois = false → d.stored w = true → mask ≠ fullMask → (e tr).stored w = true) ∧
    (∀ tr, tr = .good ∨ tr = .resent → lost = 0#64 → pois = false → d.stored w = false ∨ mask = fullMask →
      (e tr).stored w = false ∧ (e tr).rawWord w = gMerge (d.rawWord w) g mask) ∧
    (∀ tr v, v ≠ w → (e tr).stored v = d.stored v) ∧
    (∀ tr a, a / 64 ≠ w → (e tr).cell a = d.cell a)

/-- What a bank does keeps the memory's canonical form: reads, writes, remapping of rows, refresh. -/
def Obligations.BanksKeepForm : Prop :=
  ∀ d : Dev, Memory.wf d = true →
    (∀ w port tr, Memory.wf (d.readWord w port tr).1 = true) ∧
    (∀ w g mask pois tr k cc, Memory.wf (d.writeWord w g mask pois tr k cc) = true) ∧
    (∀ b r bad, Memory.wf (d.remapRow b r bad) = true) ∧ (∀ b t, Memory.wf (d.refresh b t) = true)

/-- Accesses over a frond's rhizoid, of a word with no line, no claim and no ghost (08 R254, R264, 09 R296): a read makes its
piece ready with the word's data, a write stores its bytes. And the end of a frozen master's drain latches its freeze-log
entry (03 R90, R96). -/
def Obligations.RhizoidAccesses : Prop :=
  ∀ (s : State), s.dev.alive = true →
    let d := s.dev
    (∀ x : Xfer, d.xfer x.id = some x → d.mayPerform x = true → d.viaRhizoid x x.next = true →
      x.gr.all (fun r => r.i != x.next) = true →
      let w := x.word x.next
      let h := d.half (d.home (partOf (w * 64)))
      d.claimed w = false → d.partStatus x.mid = 0 → h.find (w / 4) = none →
      h.evicts.any (fun e => e.cl.line == w / 4) = false → h.ghost (w / 4) = none →
      let ready (e : Dev) (g : Gran) : Prop := ∃ y r, e.xfer x.id = some y ∧ y.next = x.next + 1 ∧ r ∈ y.gr ∧ r.i = x.next ∧
        r.stage = 1 ∧ r.status = 0 ∧ r.data = g
      let a := d.hacc x x.next
      (∀ tr, x.kind.isRead = true → d.luOn = false ∨ x.lu = false → d.unstableRead a = false → x.deadLine ≠ some (w / 4) →
        d.stored w = false → d.failMask w .rhizoid tr = 0#64 →
        ∃ e : Dev, exec (.rhizoidRead x.id tr) s = .next (s.ran e) ∧ ready e (d.rawWord w) ∧ e.mem.cells = d.mem.cells ∧
          e.fronds = d.fronds ∧ e.gemmas = d.gemmas ∧ e.regs = d.regs) ∧
      (x.kind.isRead = false → (d.pieceData x x.next).2 = false → x.maskOf x.next ≠ 0#64 → Memory.wf d = true →
        (d.rhiz x.mid).deadBytes false w &&& x.maskOf x.next = 0#64 → d.stored w = false ∨ x.maskOf x.next = fullMask →
        ∃ e : Dev, exec (.rhizoidWrite x.id .good) s = .next (s.ran e) ∧ ready e 0#512 ∧
          e.rawWord w = gMerge (d.rawWord w) (d.pieceData x x.next).1 (x.maskOf x.next) ∧
          (∀ a, a / 64 ≠ w → e.cell a = d.cell a) ∧ e.fronds = d.fronds ∧ e.gemmas = d.gemmas ∧ e.regs = d.regs)) ∧
    (∀ (m : BitVec 12) (t : Nat) (r : Drain), d.win.drains.find? (fun r => r.mid == m.toNat) = some r →
      d.xfers.any (fun x => x.mid == m.toNat) = false →
      ∃ e : Dev, exec (.freezeDrainEnd m t) s = .next (s.ran e) ∧
        e.win.drains = d.win.drains.eraseP (fun x => x.mid == m.toNat) ∧ e.win.logHead = (d.win.logHead + 1) % 32 ∧
        e.win.log.get (4 * d.win.logHead) 0#32 = pack [(r.mid, 0), (r.kind, 12), (r.wset, 16), (b2n (!r.free), 30), (1, 31)] ∧
        e.win.log.get (4 * d.win.logHead + 1) 0#32 = BitVec.ofNat 32 (r.addr % 2 ^ 32) ∧
        e.win.log.get (4 * d.win.logHead + 3) 0#32 = BitVec.ofNat 32 (r.context % 2 ^ 32) ∧
        e.win.frozen = d.win.frozen ∧ e.mem = d.mem ∧ e.halves = d.halves)

/-- Accesses over the cache path that hit (09 R290, R291, R304): a read makes its piece ready with the word's data, a write
changes the line's bytes under its mask, an atomic the granule's elements. -/
def Obligations.CacheAccesses : Prop :=
  ∀ (s : State) (x : Xfer) (k : Nat) (c : CLine), s.dev.alive = true → s.dev.xfer x.id = some x →
    let d := s.dev
    let w := x.word x.next
    let hn := d.home (partOf (w * 64))
    let j := w % 4
    let m := x.maskOf x.next
    d.mayPerform x = true → d.viaRhizoid x x.next = false → d.sigFails x = false →
    x.gr.all (fun r => r.i != x.next) = true → d.luOn = false ∨ x.lu = false →
    (x.kind = .copyRead ∨ x.kind = .copyWrite → d.allowedAt x.wset x.kind.acc (x.addr x.next) = true) →
    d.targetStatus x.mid (x.addr x.next) = 0 → d.targetStatus x.mid (w * 64) = 0 →
    d.halfHeld (d.home (partOf (x.addr x.next))) = false →
    (d.half hn).find (w / 4) = some (k, c) → (d.half hn).evicts.any (fun e => e.cl.line == w / 4) = false →
    (d.half hn).fills.any (fun f => f.line == w / 4) = false →
    let ready (e : Dev) (g : Gran) : Prop := ∃ y r, e.xfer x.id = some y ∧ y.next = x.next + 1 ∧ r ∈ y.gr ∧ r.i = x.next ∧
      r.stage = 1 ∧ r.status = 0 ∧ r.data = g
    let quiet (e : Dev) : Prop := e.mem = d.mem ∧ e.fronds = d.fronds ∧ e.gemmas = d.gemmas ∧ e.regs = d.regs ∧
      ∀ h, h ≠ hn → e.half h = d.half h
    let a := d.hacc x x.next
    (x.kind.isRead = true → c.wPois j = false → c.serves a = true → d.unstableRead a = false → x.deadLine ≠ some (w / 4) →
      ∃ e : Dev, exec (.cacheRead x.id .none) s = .next (s.ran e) ∧ ready e (c.word j) ∧
        (e.half hn).lines = (d.half hn).lines ∧ quiet e) ∧
    (x.kind.isRead = false → x.kind.isAtomic = false → (d.pieceData x x.next).2 = false → c.wPois j = false ∨ m = fullMask →
      ∃ e : Dev, exec (.cacheWrite x.id .none) s = .next (s.ran e) ∧ ready e 0#512 ∧
        (e.half hn).find (w / 4) = some (k, (c.write j (d.pieceData x x.next).1 m false).1) ∧ quiet e) ∧
    (x.kind.isRead = false → x.kind.isAtomic = true → (d.pieceData x x.next).2 = false → c.wPois j = false →
      m &&& ~~~ (c.wValid j) = 0#64 →
      ∃ e : Dev, exec (.cacheAtomic ⟨x.id, .none⟩) s = .next (s.ran e) ∧ ready e 0#512 ∧
        (e.half hn).find (w / 4) = some (k, c.setWord j (atomGran x.aop x.afmt (c.word j) (d.pieceData x x.next).1 m)
          (c.wValid j ||| m) (c.wDirty j ||| m) false) ∧ quiet e)

/-- Fills, evictions and refresh (08 R257, 09 R290, R295, R297): a fill brings the line's bytes that it lacked from memory and
serves the read that waited; an entry that issues closes; one that lands writes its DIRTY bytes to memory; a bank's refresh
closes the open row of one subarray. -/
def Obligations.FillsAndEvictions : Prop :=
  ∀ (s : State) (h : Fin 32) (l : Nat), s.dev.alive = true →
    let d := s.dev
    let hf := d.half h
    (∀ (f : Fill) (a : HAcc) (c : CLine), hf.fills.find? (fun f => f.line == l) = some f → f.waiters = [a] → a.kind = 0 →
      a.w / 4 = l → a.lu = false → f.joined = 0 → f.dead = none → hf.blocked = [] → hf.find l = some (f.way, c) →
      hf.lines.find f.way = some c → c.pois = 0#4 →
      (∀ j < 4, d.stored (4 * l + j) = false ∧ d.failMask (4 * l + j) .channel .good = 0#64) → d.claimed (4 * l) = false →
      ∃ (e : Dev) (c' : CLine), exec (.fillReturn h l ⟨[], .none⟩) s = .next (s.ran e) ∧
        (e.half h).fills = hf.fills.filter (fun x => x.line != l) ∧ (e.half h).lines.find f.way = some c' ∧ c'.line = c.line ∧
        (∀ j < 4, c'.word j = gMerge (d.rawWord (4 * l + j)) (c.word j) (c.wValid j) ∧ c'.wValid j = fullMask ∧
          c'.wDirty j = c.wDirty j) ∧ e.mem.cells = d.mem.cells ∧ e.mem.poison = d.mem.poison) ∧
    exec (.evictionWritebackIssue h l) s = .next (s.ran (d.setHalf h
      { hf with evicts := hf.evicts.map (fun e => if e.cl.line = l then { e with closed := true } else e) })) ∧
    (∀ v : Evict, hf.evicts.find? (fun e => e.cl.line == l && e.closed) = some v → v.waiters = [] → hf.blocked = [] →
      Memory.wf d = true → d.claimed (4 * l) = false →
      (∀ j < 4, (d.rhiz (partOf (l * 256))).deadBytes true (4 * l + j) &&& v.cl.wDirty j = 0#64) →
      ∃ e : Dev, exec (.evictionWritebackLanded h l []) s = .next (s.ran e) ∧
        (e.half h).evicts = hf.evicts.filter (fun x => x.cl.line != l) ∧ (e.half h).lines = hf.lines ∧
        (∀ j < 4, v.cl.wPois j = false → v.cl.wDirty j ≠ 0#64 → d.stored (4 * l + j) = false →
          e.rawWord (4 * l + j) = gMerge (d.rawWord (4 * l + j)) (v.cl.word j) (v.cl.wDirty j)) ∧
        (∀ a, a / 256 ≠ l → e.cell a = d.cell a)) ∧
    (∀ (b : Fin 8192) (t : Nat), let i := d.layerOf (rowAddr b 0)
      let bk := d.bank b
      2 * bk.lastRef + (if (d.layer i).double = true then 15625 else 31250) ≤ 2 * t →
      exec (.refreshCommand b t) s = .next (s.ran (((d.setBank b { bk with
        openRow := bk.openRow.drop bk.nextSub, nextSub := (bk.nextSub + 1) % 4, lastRef := t
        refreshes := bk.refreshes + 1 }).inc (cLayer i)).upTo t)))

/-- The two views of device memory convert by R78's maps, which are one-to-one over the 40-bit addresses, with and without
SWIZZLE, and keep each byte's place in its 4-KiB page (03 R78). -/
def Obligations.HostAddressBijection : Prop :=
  ∀ (sw : Bool) (a : Nat), a < 2 ^ 40 →
    let swap (f page : Nat) : Nat := if sw = true then f ^^^ (page % 256) else f
    hostToLinear sw a = swap (a / 2 ^ 12 % 256) (a / 2 ^ 20 % 2 ^ 20) * 2 ^ 32 + a / 2 ^ 20 % 2 ^ 20 * 2 ^ 12 + a % 2 ^ 12 ∧
    linearToHost sw a = a / 2 ^ 12 % 2 ^ 20 * 2 ^ 20 + swap (a / 2 ^ 32 % 256) (a / 2 ^ 12 % 2 ^ 20) * 2 ^ 12 + a % 2 ^ 12 ∧
    hostToLinear sw (linearToHost sw a) = a ∧ linearToHost sw (hostToLinear sw a) = a ∧
    hostToLinear sw a < 2 ^ 40 ∧ linearToHost sw a < 2 ^ 40 ∧ hostToLinear sw a % 4096 = a % 4096 ∧
    linearToHost sw a % 4096 = a % 4096

/-! ### Links (11) -/

/-- A sequence number that arrives (11 R378, R379): above the highest so far it is new; 4,096 or more below, stale; between,
it is a duplicate of a completed request, dropped while that is in progress, or new. -/
def Obligations.ArrivalsClassified : Prop :=
  ∀ (d : Dev) (p : Nat) (r : ReqHdr),
    let x := d.port p
    let n := r.rsn.toNat
    let a := d.arrive p r
    let held := x.win.find? (fun e => e.rsn == n)
    (∀ b : Nat, -(2 ^ 47 : Int) ≤ rsnDiff n b ∧ rsnDiff n b < 2 ^ 47) ∧
    (x.high = none → a.2 = .fresh ∧ (a.1.port p).high = some n) ∧
    (∀ h, x.high = some h → 0 < rsnDiff n h → a.2 = .fresh ∧ (a.1.port p).high = some n) ∧
    (∀ h, x.high = some h → rsnDiff n h ≤ -4096 → a.2 = .stale ∧ a.1.port p = x) ∧
    (∀ h, x.high = some h → rsnDiff n h ≤ 0 → -4096 < rsnDiff n h →
      (held = none → a.2 = .fresh ∧ (a.1.port p).high = some h) ∧
      (∀ e, held = some e → e.done = true → a.2 = .done e ∧ a.1.port p = x) ∧
      (∀ e, held = some e → e.done = false → a.2 = .drop ∧ a.1.port p = x)) ∧
    (∀ q, q ≠ p → a.1.port q = d.port q) ∧ a.1.mem = d.mem ∧ a.1.regs = d.regs

/-- Requests for this module (11 R373, R376, R377, 03 R82): one for device memory, new on a port that is not frozen, within
the port's windows, begins as a transfer of its 64-B words; a read or write of a control word is performed and answered at
once; on a frozen port a request is answered FROZEN (03 R91). -/
def Obligations.RequestsBegin : Prop :=
  ∀ (s : State) (p : Fin 6) (r : ReqHdr) (t : Nat) (d1 : Dev), s.dev.alive = true → s.dev.carries p (reqBytes r) = true →
    r.dst.toNat = s.dev.moduleId → malformed r = false → ((s.dev.upTo t).takePacket p (reqBytes r)).arrive p r = (d1, .fresh) →
    let a := r.addr.toNat
    let np := (a % 64 + r.len.toNat + 63) / 64
    let x (kind : XKind) (data : SMap Gran) : Xfer :=
      { id := d1.nextX, mid := portMid p, kind := kind, base := a / 64 * 64, n := np, limit := np
        masks := (List.range np).map (fun i => (i, pieceMask a r.len.toNat i)), data := data, lu := r.lu
        aop := r.aop.toNat, afmt := r.afmt.toNat, ip := r.rsn.toNat, order := d1.nextX, loc := r.tag.toNat
        wset := d1.portSet p, host := if r.space = 1#2 then some d1.swizzle else none }
    let bytes : SMap Gran := (List.range np).map (fun i => (i, pieceBytes a i r.data))
    let begun (x : Xfer) : State := s.ran { d1 with nextX := d1.nextX + 1, xfers := d1.xfers ++ [Xfer.skip x.n x] }
    let whole (x : Xfer) : Prop := d1.refusedPieces x = ([], [])
    let answer (d : Dev) (st : Nat) (bs : List Byte) : State := s.ran (d.reply p r.rsn.toNat st 0 0 bs 0#64)
    let thawed := d1.isFrozen (portMid p) = false
    (thawed → r.pkt = 1#4 → r.space ≠ 2#2 → whole (x .portRead []) →
      exec (.readRequest p r t) s = .next (begun (x .portRead []))) ∧
    (thawed → r.pkt = 2#4 → r.space ≠ 2#2 → whole (x .portWrite bytes) →
      exec (.writeRequest p r t) s = .next (begun (x .portWrite bytes))) ∧
    (thawed → r.pkt = 3#4 → whole (x .portAtomic bytes) →
      exec (.atomicRequest p r t) s = .next (begun (x .portAtomic bytes))) ∧
    (thawed → r.pkt = 1#4 → r.space = 2#2 → r.len = 4#13 → a % 4 = 0 → blk a < 0x11 →
      d1.allowed (d1.portSet p) 1 .read (a / 4096) = true →
      exec (.readRequest p r t) s = .next (answer (d1.ctlRead s.fuse p a).1 0 (leBytes 4 (d1.ctlRead s.fuse p a).2.toNat))) ∧
    (thawed → r.pkt = 2#4 → r.space = 2#2 → r.len = 4#13 → a % 4 = 0 → blk a < 0x11 → authOnly a = false →
      d1.allowed (d1.portSet p) 1 .write (a / 4096) = true →
      exec (.writeRequest p r t) s = .next (answer (d1.writeReg (some p.val) a 0xFFFFFFFF (leNat (r.data.take 4))) 0 [])) ∧
    (thawed → r.pkt = 2#4 → r.space = 2#2 → r.len = 4#13 → a % 4 = 0 → blk a < 0x11 → authOnly a = true →
      d1.allowed (d1.portSet p) 1 .write (a / 4096) = true →
      exec (.writeRequest p r t) s = .next (answer (d1.inc (cMod 7)) 8 [])) ∧
    (d1.isFrozen (portMid p) = true → secRead r = false → r.pkt = 1#4 →
      exec (.readRequest p r t) s = .next (answer d1 6 []))

/-- A completion ends the outstanding request of its RSN, and one without such a request is only counted; a request that has
waited its ACTIVE time ends PORT_DOWN and is counted (11 R382). Either way the request is no longer outstanding. -/
def Obligations.RequestsEnd : Prop :=
  ∀ (s : State) (p : Fin 6) (t : Nat), s.dev.alive = true →
    let d := s.dev
    (∀ (c : CplHdr), d.carries p (cplBytes c) = true →
      let e := ((d.upTo t).takePacket p (cplBytes c)).inc (cPort p 27)
      ((e.port p).outs.find? (fun o => o.rsn == c.rsn.toNat) = none →
        exec (.completion p c t) s = .next (s.ran (e.inc (cPort p 32)))) ∧
      (∀ o, (e.port p).outs.find? (fun o => o.rsn == c.rsn.toNat) = some o →
        exec (.completion p c t) s = .next (s.ran (e.outEnd p o c.status.toNat c.sealRes.toNat c.result.toNat c.data c.pmask)))) ∧
    (∀ (n : BitVec 48) (o : OutReq), (d.port p).outs.find? (fun o => o.rsn == n.toNat) = some o → (d.port p).st = 3 →
      o.queued + o.limit ≤ (d.port p).active (max d.now t) →
      ∃ e : Dev, exec (.transactionTimeout p n t) s = .next (s.ran (e.outEnd p o 10 0 0 [] 0#64)) ∧
        (e.port p).expired.isSome = true ∧ (e.port p).outs = (d.port p).outs ∧ e.mem = d.mem ∧ e.xfers = d.xfers) ∧
    (∀ (e : Dev) (q : Nat) (o : OutReq) (st seals result : Nat) (data : List Byte) (pm : BitVec 64),
      ((e.outEnd q o st seals result data pm).port q).outs = (e.port q).outs.filter (fun y => y.rsn != o.rsn))

/-- Flits on an ACTIVE port (11 R354-R364, R370, R371): a DATA flit in order advances the receiver; a NULL flit brings an
acknowledgement; the first HELLO of the right kind names the peer; a flit that fails its CRC is lost under any row; a block
that decodes adds its five flits to those received, an uncorrectable one is a loss; a replay after 2 µs without an advance
sends every buffered flit again. -/
def Obligations.LinkFlits : Prop :=
  ∀ (s : State) (p : Fin 6) (flit : List Byte) (t : Nat), s.dev.alive = true → (s.dev.port p).st = 3 →
    let d := s.dev
    let x := d.port p
    let e := d.modPort p (fun y => { y with flits := y.flits.erase flit })
    let w0 := atBytes flit 0 4
    let w1 := atBytes flit 4 4
    let good := flit.length = 256 ∧ (crc64 (flit.take 248)).toNat = atBytes flit 248 8
    let lost : State := s.ran ((e.inc (cPort p 13)).flitLost p)
    let w := lanesOf x.width
    (good → w0 % 16 = 1 → bitsAt w0 4 12 = x.rxExp → ∃ a : Dev, exec (.dataFlit p flit) s = .next (s.ran a) ∧
      (a.port p).rxExp = (x.rxExp + 1) % 4096 ∧ (a.port p).rxDrop = false ∧ (a.port p).rxNak = false) ∧
    (good → w0 % 16 = 0 → bitsAt w0 4 12 = x.rxExp →
      exec (.nullFlit p flit) s = .next (s.ran ((e.inc (cPort p 3)).takeAck p w0 w1))) ∧
    (good → w0 % 16 = 2 → atBytes flit 8 1 = 1 → bitsAt w0 28 2 = 0 → x.psess = none →
      (atBytes flit 20 2 / 2 ^ 15 % 2 = 1 ↔ p.val = 0) → ∃ a : Dev, exec (.hello p flit t) s = .next (s.ran a) ∧
      (a.port p).helloSeen = true ∧ (a.port p).psess = some (BitVec.ofNat 32 (atBytes flit 16 4)) ∧
      (a.port p).peer = pack [(atBytes flit 20 2 % 2 ^ 16, 0)]) ∧
    (¬ good → exec (.dataFlit p flit) s = .next lost ∧ exec (.nullFlit p flit) s = .next lost) ∧
    (∀ found, exec (.alignmentBlock p found) s = .next (s.ran (
      if x.lanes &&& ~~~ found = 0#8 then d else d.portRetrain p))) ∧
    (∀ (ra rb : List (List Nat)) (fs : List (List Byte)) (corr : List (Nat × Nat)), fecReceive w ra rb = some (fs, corr) →
      (∀ l < 8, x.laneErr.getD l 0 + ((List.replicate (x.group * w) (0, 0) ++ corr).getD l (0, 0)).2 ≤ 20000000) →
      ∃ a : Dev, exec (.fecBlockReceive p ra rb) s = .next (s.ran a) ∧ (a.port p).flits = x.flits ++ fs ∧ (a.port p).st = 3 ∧
        a.mem = d.mem ∧ a.xfers = d.xfers) ∧
    (∀ ra rb : List (List Nat), fecReceive w ra rb = none → (∀ l < 8, x.laneErr.getD l 0 ≤ 20000000) →
      ∃ a : Dev, exec (.fecBlockReceive p ra rb) s = .next (s.ran (a.flitLost p)) ∧ (a.port p).flits = x.flits ∧
        (a.port p).st = 3 ∧ a.mem = d.mem ∧ a.xfers = d.xfers) ∧
    (x.txBuf ≠ [] → x.advAt + 2000 ≤ t → x.attempts < 8 → exec (.replayTimeout p t) s = .next (s.ran (
      (((d.upTo t).setPort p { x with attempts := x.attempts + 1, replayFirst := (x.txBuf.head?).map (·.seq)
                                      advAt := max d.now t }).inc (cPort p 15)).resend p)))

/-- The states of a port (11 R366-R371): TRAIN ends in QUALIFY at the width found, with a fast start falling back to all lanes,
or in DOWN; QUALIFY, from stage 7 on, and RETRAIN end in the exchange of HELLO, or in DOWN; the peer's HELLO makes the port
ACTIVE; DOWN ends in TRAIN after 100 ms; a port that goes down is DOWN. -/
def Obligations.LinkStates : Prop :=
  ∀ (s : State) (p : Fin 6) (lanes : BitVec 8) (set : List Word) (t : Nat), s.dev.alive = true →
    let d := s.dev.upTo t
    let x := d.port p
    let bad := x.laneBad ||| ~~~ lanes
    let checked := d.modPort p (fun y => { y with laneBad := bad, laneOk := lanes })
    (∀ fast, x.st = 1 →
      let f := fast && d.fastLanes p != 0#8
      let ls := if f = true then lanes &&& d.fastLanes p else lanes
      (∀ w g, d.pickGroup ls = some (w, g) → exec (.trainingEnd p lanes fast set t) s = .next (s.ran (
        (d.setPort p { x with st := 2, stAt := d.now, width := w, group := g, fast := f
                              laneOk := if f = true then ls else x.laneOk
                              laneBad := if f = true then x.laneBad ||| ~~~ ls else x.laneBad }).setEq p (d.savedEq p) set))) ∧
      (d.pickGroup ls = none → exec (.trainingEnd p lanes fast set t) s = .next (s.ran (
        if f = true then d.setPort p { x with fast := false, laneOk := ls } else d.portDown p)))) ∧
    (x.st = 2 → x.ready = false →
      (∀ w g, d.pickGroup (~~~ bad) = some (w, g) → exec (.qualifyEnd p lanes t) s = .next (s.ran (
        let e := (checked.modPort p (fun y => { y with width := w, group := g, ready := true })).widthErr p x.width w
        if d.bup.stage = 7 then e.portEnter p else e))) ∧
      (d.pickGroup (~~~ bad) = none → exec (.qualifyEnd p lanes t) s = .next (s.ran (checked.portDown p)))) ∧
    (x.st = 4 → x.entering = false →
      (∀ w g, d.pickGroup (~~~ bad) = some (w, g) → d.now ≤ x.stAt + 300000000 →
        exec (.retrainCheckEnd p lanes set t) s = .next (s.ran ((((checked.modPort p (fun y =>
          { y with width := w, group := g })).setEq p (d.savedEq p) set).widthErr p x.width w).portEnter p))) ∧
      (d.pickGroup (~~~ bad) = none → exec (.retrainCheckEnd p lanes set t) s = .next (s.ran (checked.portDown p)))) ∧
    (∀ flit : List Byte, flit.length = 256 → (crc64 (flit.take 248)).toNat = atBytes flit 248 8 → atBytes flit 0 4 % 16 = 2 →
      atBytes flit 8 1 = 1 → (atBytes flit 20 2 / 2 ^ 15 % 2 = 1 ↔ p.val = 0) → x.entering = true → x.st ≠ 3 →
      x.psess = none ∨ x.psess = some (BitVec.ofNat 32 (atBytes flit 16 4)) →
      ∃ e : Dev, exec (.hello p flit t) s = .next (s.ran e) ∧ (e.port p).st = 3 ∧ (e.port p).entering = false) ∧
    (x.st = 4 → x.stAt + 300000000 ≤ t → exec (.retrainTimeout p t) s = .next (s.ran (d.portDown p))) ∧
    (x.st = 5 → x.stAt + 100000000 ≤ t → d.portEn p = true → d.portStopped p = false → d.pin.refclk = true → d.bup.resets = [] →
      exec (.downTimeout p t) s = .next (s.ran (d.setPort p { x with st := 1, stAt := d.now, laneBad := 0#8 }))) ∧
    ((d.portDown p).port p).st = 5

/-! ### Commands over the links (12) -/

/-- The checks of a command (12 R403), in order: a malformed one is answered BAD_FORMAT and one that fails steps 2 to 4 with
that step's result, both counted and reported; one whose key lacks ADMIN is answered NOT_ADMIN, and its counter is used. -/
def Obligations.CommandChecks : Prop :=
  ∀ (s : State) (c : CmdPkt) (d1 : Dev) (blown : Bool) (other : BitVec 16), s.dev.alive = true →
    let rows : List (Nat × Instr) := [(0x01, .sessionInit c), (0x02, .attest c), (0x10, .fwUpdate c), (0x20, .cfgWrite c),
      (0x21, .powerCap c), (0x30, .keyOwnerSet c blown), (0x31, .keyVendorRevoke c blown), (0x40, .unfreeze c),
      (0x50, .rtmapEdit c), (0x51, .fuseRetire c blown), (0x60, .windowSet c), (0x61, .portBind c), (0x70, .halfLayerReset c),
      (0x70, .stackReset c), (0x70, .moduleReset c), (0x80, .debugUnlock c)]
    (∀ e ∈ rows, CmdNew s.dev c e.1 d1 →
      (d1.cmdFormat c e.1 = false → exec e.2 s = .next (s.ran ((d1.cmdReject c.port).cmdAnswer c 1))) ∧
      (∀ n, d1.cmdFormat c e.1 = true → d1.cmdAuth c e.1 = (n, false) → n ≠ 0 → n ≠ 5 →
        exec e.2 s = .next (s.ran ((d1.cmdReject c.port).cmdAnswer c n))) ∧
      (d1.cmdFormat c e.1 = true → d1.cmdAuth c e.1 = (5, true) → exec e.2 s = .next (s.ran (
        (d1.setSess c.port { d1.sess c.port with last := c.counter }).cmdAnswer c 5)))) ∧
    (CmdNew s.dev c other.toNat d1 → other.toNat ∉ cmdTypes →
      exec (.unlistedCmdType other c) s = .next (s.ran ((d1.cmdReject c.port).cmdAnswer c 1)))

/-- Sessions and attestation (12 R407, R409): an accepted SESSION_INIT leaves a session to be opened, of the key it named, after
those that wait; the write of the oldest response opens its session with LAST_CTR 0; an accepted ATTEST leaves a report to be
written, and its write ends it. -/
def Obligations.SessionCommands : Prop :=
  ∀ (s : State) (c : CmdPkt) (d2 : Dev), s.dev.alive = true →
    (CmdPasses s.dev c 0x01 d2 → d2.initCheck c = 0 → ∃ (e : Dev) (key : BitVec 256) (adm : Bool) (bs : List Byte),
      exec (.sessionInit c) s = .next (s.ran (e.cmdDone c 0x01)) ∧ e.sec.draws = d2.sec.draws + 1 ∧ bs.length = 2880 ∧
      (e.sess c.port).next = (d2.sess c.port).next ++ [(key, bf (c.word 0) 3 0, adm, (c.addr 9).getD 0, bs)] ∧
      (e.sess c.port).active = (d2.sess c.port).active ∧ e.mem = d2.mem ∧ e.regs = d2.regs) ∧
    (∀ n, CmdPasses s.dev c 0x01 d2 → d2.initCheck c = n → n ≠ 0 →
      exec (.sessionInit c) s = .next (s.ran (d2.cmdAnswer c n))) ∧
    (∀ (p : Fin 6) (key : BitVec 256) (i : Nat) (adm : Bool) (a : Nat) (bs : List Byte)
        (rest : List (BitVec 256 × Nat × Bool × Nat × List Byte)),
      (s.dev.sess p).next = (key, i, adm, a, bs) :: rest → ∃ e : Dev, exec (.sessionResponseWrite p) s = .next (s.ran e) ∧
      e.sess p = { s.dev.sess p with active := true, key := key, index := i, admin := adm, last := 0#64, next := rest }) ∧
    (∀ a, CmdPasses s.dev c 0x02 d2 → c.addr 8 = some a → a % 64 = 0 → d2.sec.keyGone = false →
      d2.cmdGrants c.port .write a 1664 = true →
      exec (.attest c) s = .next (s.ran (Dev.cmdDone { d2 with sec := { d2.sec with
        reports := d2.sec.reports ++ [(c.port.val, a, c.bytes.take 32)] } } c 0x02))) ∧
    (∀ (p : Fin 6) (r : Nat × Nat × List Byte), s.dev.sec.reports.find? (fun r => r.1 == p.val) = some r →
      ∃ e : Dev, exec (.attestReportWrite p) s = .next (s.ran e) ∧ e.sec.reports = s.dev.sec.reports.erase r ∧
        e.sess p = s.dev.sess p)

/-- Firmware updates (12 R411): an accepted FW_UPDATE begins VERIFY; a manifest that cannot be read fails the update; the end
of the broadcast begins the first repair round, and each round's end the next until the third, the last. -/
def Obligations.FirmwareUpdates : Prop :=
  ∀ (s : State) (missing : List (Nat × Nat)), s.dev.alive = true →
    let f := s.dev.sec.fw
    (∀ (c : CmdPkt) (d2 : Dev) (a : Nat), CmdPasses s.dev c 0x10 d2 → c.addr 0 = some a → (c.word 2).toNat < 8 →
      (d2.sec.fw.st = 0 ∨ 6 ≤ d2.sec.fw.st) → d2.cmdGrants c.port .read a 4096 = true →
      exec (.fwUpdate c) s = .next (s.ran ((d2.setFw { st := 1, mask := (c.word 2).toNat, base := a }).cmdDone c 0x10))) ∧
    (f.st = 1 → ∃ e : Dev, exec .fwVerifyEnd s = .next (s.ran e) ∧ match s.dev.stipeBytes f.base 4096 with
      | (d1, none) => e = d1.setFw { d1.sec.fw with st := 7, code := 5 }
      | (d1, some m) =>
        let g : FwS := { f with blocks := fwBlocks m, versions := [0, 1, 2].map (fwVersion m) }
        g.blocks.getD 0 0 ≤ 256 → g.blocks.getD 1 0 ≤ 64 → g.blocks.getD 2 0 ≤ 4096 →
        match d1.stipeBytes (f.base + 4096) (32 * g.count) with
        | (d2, none) => e = d2.setFw { d2.sec.fw with st := 7, code := 5 }
        | (d2, some hs) => vendorCode s.fuse (fwSlot m) (fwKey m) (m.take 1844) ((m.drop 1844).take 1280) = 0 →
          digestBytes (Config.digest 0 hs) = (m.drop 16).take 32 → (∀ k < 3, s.fuse.minVer.getD k 0 ≤ fwVersion m k) →
          e = d2.setFw { g with st := 2, hashes := hs }) ∧
    (f.st = 2 → ∃ e : Dev, exec (.fwBroadcastEnd missing) s = .next (s.ran e) ∧ e.sec.fw.st = 3 ∧ e.sec.fw.round = 1 ∧
      e.sec.fw.hashes = f.hashes ∧ e.sec.fw.blocks = f.blocks) ∧
    (f.st = 3 → f.last = false → ∃ e : Dev, exec (.fwRepairRound missing) s = .next (s.ran e) ∧ e.sec.fw.st = 3 ∧
      e.sec.fw.last = decide (3 ≤ f.round) ∧ e.sec.fw.round = (if f.round < 3 then f.round + 1 else f.round) ∧
      (∀ m ∈ e.sec.fw.missing, m ∈ f.missing))

/-- Commands that set what the module does (03 R92, R93, 08 R555, 12 R406, 13 R433): CFG_WRITE's registers at once, a lower cap
at once and a higher one at the next boundary; unfreezes, window sets, bindings and edits of the runtime map at the next
boundary. -/
def Obligations.SettingCommands : Prop :=
  ∀ (s : State) (c : CmdPkt) (d2 : Dev), s.dev.alive = true →
    let p := c.port.val
    let w := c.word 0
    let v := c.word 1
    let set := bf w 7 0
    let ws := (List.range 64).map (fun i => c.word (1 + i))
    let bad (i : Nat) : Bool := winBad (ws.getD (4 * i) 0#32) (ws.getD (4 * i + 1) 0#32) ||
      ((ws.getD (4 * i + 1) 0#32).getLsbD 30 && (ws.getD (4 * i + 2) 0#32 != 0#32 || ws.getD (4 * i + 3) 0#32 != 0#32))
    let used := d2.units.any (fun u => u.wset == set && (u.phase == 1 || u.phase == 2 || (u.phase == 0 && decide (0 < u.carried))))
    (CmdPasses s.dev c 0x20 d2 → (∀ e ∈ c.entries, d2.cfgCheck p e = 0) →
      exec (.cfgWrite c) s = .next (s.ran ((c.entries.foldl (fun d e => d.writeReg (some p) e.1 e.2.1 e.2.2) d2).cmdDone c 0x20))) ∧
    (CmdPasses s.dev c 0x21 d2 → 600 ≤ bf w 11 0 → bf w 11 0 ≤ 2400 →
      exec (.powerCap c) s = .next (s.ran (Dev.cmdDone (if bf w 11 0 ≤ d2.pwr.cap
        then { d2 with pwr := { d2.pwr with cap := bf w 11 0, capNext := none } }
        else { d2 with pwr := { d2.pwr with capNext := some (bf w 11 0) } }) c 0x21))) ∧
    (CmdPasses s.dev c 0x40 d2 → d2.isFrozen (bf w 11 0) = true →
      exec (.unfreeze c) s = .next (s.ran (Dev.cmdDone { d2 with win := { d2.win with
        pendUnfreeze := (d2.win.pendUnfreeze ++ [bf w 11 0]).eraseDups } } c 0x40))) ∧
    (CmdPasses s.dev c 0x40 d2 → d2.isFrozen (bf w 11 0) = false →
      exec (.unfreeze c) s = .next (s.ran (d2.cmdAnswer c 8))) ∧
    (CmdPasses s.dev c 0x50 d2 → w.getLsbD 0 = true → v.getLsbD 31 = true →
      (d2.slotsAfter (bf v 12 0)).find (bf v 30 27) = some (bf v 26 13) →
      exec (.rtmapEdit c) s = .next (s.ran (Dev.cmdDone { d2 with mem := { d2.mem with
        edits := d2.mem.edits ++ [(false, bf v 12 0, bf v 26 13, bf v 30 27)] } } c 0x50))) ∧
    (CmdPasses s.dev c 0x60 d2 → (∀ i < 16, bad i = false) → used = false → w.getLsbD 8 = true →
      exec (.windowSet c) s = .next (s.ran (Dev.cmdDone { d2 with win := { d2.win with
        pendSet := d2.win.pendSet ++ [(set, true, ws)] } } c 0x60))) ∧
    (CmdPasses s.dev c 0x61 d2 → bf w 2 0 ≤ 5 → d2.win.installed.contains (bf w 15 8) = true → d2.win.pendSet = [] →
      exec (.portBind c) s = .next (s.ran (Dev.cmdDone { d2 with win := { d2.win with
        pendBind := d2.win.pendBind ++ [(bf w 2 0, bf w 15 8)] } } c 0x61)))

/-- Commands on keys, fuses, debug and resets (12 R405, R406, R414, 15 R495): with fuses that take, the owner's digest, a
vendor's revocation and a retirement are programmed; OBSERVE is unlocked; a reset is requested, and a module reset follows
the command. -/
def Obligations.KeyAndDebugCommands : Prop :=
  ∀ (s : State) (c : CmdPkt) (d2 : Dev), s.dev.alive = true →
    let w := c.word 0
    let bs := c.bytes
    let slot := bf w 1 0
    let by' := bf w 9 8
    let id := digestBytes (d2.idDigest s.fuse)
    let burnt (ty : Nat) (f : Fuses) : State := { s.ran (d2.cmdDone c ty) with fuse := f }
    (CmdPasses s.dev c 0x30 d2 → (c.word 8).toNat < 4 → s.fuse.owner = none →
      vendorCode s.fuse (bf (c.word 8) 1 0) ((bs.drop 36).take 1793) (id ++ bs.take 32) (bs.drop 1832) = 0 →
      exec (.keyOwnerSet c true) s = .next (burnt 0x30 { s.fuse with owner := some (BitVec.ofNat 256 (leNat (bs.take 32))) })) ∧
    (CmdPasses s.dev c 0x31 d2 → slot ≠ by' → s.fuse.live.filter (fun k => k != slot) ≠ [] →
      vendorCode s.fuse by' ((bs.drop 4).take 1793) (id ++ strBytes "REVOKE" ++ leBytes 1 slot) (bs.drop 1800) = 0 →
      exec (.keyVendorRevoke c true) s = .next (burnt 0x31 { s.fuse with revoked := s.fuse.revoked ||| BitVec.ofNat 4 (2 ^ slot) })) ∧
    (CmdPasses s.dev c 0x51 d2 → slot ≠ 3 → bf w 23 8 < [256, 2048, 8192].getD slot 0 →
      exec (.fuseRetire c true) s = .next (burnt 0x51 { s.fuse with retired := (s.fuse.retired ++ [(slot, bf w 23 8)]).eraseDups })) ∧
    (CmdPasses s.dev c 0x80 d2 → w = 1#32 →
      exec (.debugUnlock c) s = .next (s.ran (Dev.cmdDone { d2 with sec := { d2.sec with level := max d2.sec.level 1 } } c 0x80))) ∧
    (CmdPasses s.dev c 0x70 d2 → bf w 1 0 = 1 → bf w 15 8 ≤ 31 →
      exec (.halfLayerReset c) s = .next (s.ran ((d2.rstRequest 1 (bf w 15 8)).cmdDone c 0x70))) ∧
    (CmdPasses s.dev c 0x70 d2 → bf w 1 0 = 2 → 1 ≤ bf w 15 8 → bf w 15 8 ≤ 3 →
      exec (.stackReset c) s = .next (s.ran ((d2.rstRequest 2 (bf w 15 8)).cmdDone c 0x70))) ∧
    (CmdPasses s.dev c 0x70 d2 → bf w 1 0 = 3 →
      exec (.moduleReset c) s = .next (s.ran (d2.cmdDone c 0x70).moduleReset))

/-! ### Registers, seals, resets and errors (00, 10, 15, 16) -/

/-- Writes of control words by a port that is not frozen and within its windows (00 R5, 03 R82, R89, 15 R483, R502, 16 R516,
R519): each is performed on its register; a write outside the windows freezes the port. What some of them start: the lock, a
frond's reset, a retrain, an acknowledgement of the error log, a swap of fronds, and the capture of a counter's upper half. -/
def Obligations.RegisterWrites : Prop :=
  ∀ (s : State) (p : Fin 6) (v : Word) (t : Nat), s.dev.alive = true → s.dev.isFrozen (portMid p) = false →
    let d := s.dev
    let may (a : Nat) : Prop := d.allowed (d.portSet p) 1 .write (a / 4096) = true
    (∀ a : Word, may a.toNat → blk a.toNat < 0x11 → a.toNat % 4 = 0 → authOnly a.toNat = false →
      exec (.registerWrite p a v) s = .next (s.ran (d.writeReg (some p.val) a.toNat 0xFFFFFFFF v.toNat))) ∧
    (∀ a : Word, ¬ may a.toNat → exec (.registerWrite p a v) s = .next (s.ran (d.freeze (portMid p) 5 (d.portSet p)
      (a.toNat / 256 * 256) ((((d.port p).high.getD 0) + 1) % 2 ^ 48) false))) ∧
    (∀ a : Word, may a.toNat → blk a.toNat < 0x11 → a.toNat % 4 = 0 → authOnly a.toNat = true →
      exec (.registerWrite p a v) s = .next (s.ran (d.inc (cMod 7)))) ∧
    (may 4 → ∃ e : Dev, exec (.configLock p v) s = .next (s.ran e) ∧ e.bup.lock = (d.bup.lock || v.getLsbD 0) ∧
      e.mem = d.mem ∧ e.fronds = d.fronds ∧ ∀ a, a ≠ 4 → e.reg a = d.reg a) ∧
    (may 0x10 → ∃ e : Dev, exec (.frondReset p v t) s = .next (s.ran (if v.getLsbD 8 = true then e.rstRequest 0 (bf v 7 0) else e)) ∧
      (∀ a, a ≠ 0x10 → e.reg a = d.reg a) ∧ e.bup = d.bup ∧ e.fronds = d.fronds ∧ e.mem = d.mem) ∧
    (∀ q : Fin 6, may (portReg q 0) → ∃ e : Dev,
      exec (.lnkPortRetrain p q v t) s = .next (s.ran (if v.getLsbD 1 = true then e.portRetrain q else e)) ∧
      (∀ a, a ≠ portReg q 0 → e.reg a = d.reg a) ∧ e.ports = d.ports ∧ e.mem = d.mem) ∧
    (may 0x0E00001C → ∃ e : Dev, exec (.errLogAckWrite p v) s = .next (s.ran e) ∧ e.err.ack = v.toNat ∧
      e.err.head = d.err.head ∧ e.err.fifo = d.err.fifo ∧ e.mem = d.mem) ∧
    (∀ (a b : Fin 256) (n : Nat), d.thm.rot = none → n ≤ 4096 → ∃ e : Dev, exec (.rotationRequest a b n) s = .next (s.ran e) ∧
      e.thm.rot = some { a := a, b := b, mib := n, st := 1 } ∧ e.thm.rotStat = 1 ∧ e.mem = d.mem ∧ e.fronds = d.fronds) ∧
    (∀ (r : Fin 7) (k : Nat), exec (.statLiveRead r k) s = .next (s.ran { d with stat := { d.stat with
      hold := d.stat.hold.put r (k, d.stat.live.get k 0 / 2 ^ 32 % 2 ^ 16) } }))

/-- Seal commands (10 R338, R342, R343, R347) of a port that runs none, with seals enabled, on a page its windows let it write:
SEAL sets the bit with the port's checksum, CLEAR frees the entry, RESEAL and VERIFY start their read of the page by its
gemma, which is suspended, QUERY returns the checksum; an undefined command answers BAD_COMMAND; a read that ends ends its
command, not before its bank's running instruction has ended. -/
def Obligations.SealCommands : Prop :=
  ∀ (s : State) (p : Fin 6) (il : Bool), s.dev.alive = true → s.dev.isFrozen (portMid p) = false →
    let d := s.dev
    let page := d.sealPage p il
    let entry := d.seals.find page
    let gem := gemmaOf (page * 4096)
    let can := d.sealEn = true ∧ d.allowedAt (d.portSet p) .write (page * 4096) = true ∧ d.isRetired (partOf (page * 4096)) = false
    let room := d.sealCount (page / 2 ^ 26) < 16384 ∨ entry.isSome = true
    let result (e : Dev) (code : Nat) (r : Option Seal) : Prop := e.reg (sealReg p 16) = pack [(code, 0)
      , ((r.map (·.state)).getD 0, 4), ((r.map (fun x => if x.state = 3 then x.breaker else 0)).getD 0, 8), (1, 31)]
    let same (e : Dev) : Prop := e.mem = d.mem ∧ e.fronds = d.fronds ∧ e.ports = d.ports ∧
      ∀ k, k ≠ page → e.seals.find k = d.seals.find k
    let read (e : Dev) (reseal : Bool) : Prop := (∃ r, e.sealRuns = d.sealRuns ++ [r] ∧ r.port = p.val ∧ r.page = page ∧
      r.reseal = reseal ∧ r.saved = entry) ∧ (e.gemma gem).suspended = true ∧ e.reg (sealReg p 16) = 1#32
    d.allowed (d.portSet p) 1 .write (sealReg p 12 / 4096) = true →
    (d.sealRuns.any (fun r => r.port == p.val) = false →
      (can → room → ∃ e : Dev, exec (.sealSet p il) s = .next (s.ran e) ∧ same e ∧
        e.seals.find page = some ⟨true, 1, d.reg (sealReg p 8), 0⟩ ∧ result e 0 (some ⟨true, 1, d.reg (sealReg p 8), 0⟩)) ∧
      (can → entry.isSome = true → ∃ e : Dev, exec (.sealClear p il) s = .next (s.ran e) ∧ same e ∧
        e.seals.find page = none ∧ result e 0 none) ∧
      (can → room → d.gemReady gem = true → ∃ e : Dev, exec (.reseal p il) s = .next (s.ran e) ∧ read e true) ∧
      (can → entry.isSome = true → d.gemReady gem = true →
        ∃ e : Dev, exec (.sealVerify p il) s = .next (s.ran e) ∧ read e false) ∧
      (∀ x, can → entry = some x → ∃ e : Dev, exec (.sealQuery p il) s = .next (s.ran e) ∧ same e ∧
        e.seals.find page = some x ∧ e.reg (sealReg p 8) = x.crc ∧ result e 0 (some x)) ∧
      (∀ cmd : Fin 8, cmd.val = 0 ∨ 6 ≤ cmd.val → ∃ e : Dev, exec (.sealCmdBadCommand p cmd) s = .next (s.ran e) ∧
        e.seals = d.seals ∧ result e 11 none)) ∧
    (∀ (r : SealRun) (tries : List ReadTry), d.sealRuns.find? (fun x => x.port == p.val) = some r → r.claim = false →
      d.sealMay r.page = false → exec (.sealCrcEnd p tries) s = .next (s.ran d)) ∧
    (∀ (r : SealRun) (tries : List ReadTry), d.sealRuns.find? (fun x => x.port == p.val) = some r → d.sealHeld = [] →
      r.claim = true ∨ d.sealMay r.page = true → ∃ e : Dev, exec (.sealCrcEnd p tries) s = .next (s.ran e) ∧
        e.sealRuns = d.sealRuns.filter (fun x => x.port != p.val) ∧
        (e.reg (sealReg p 16)).getLsbD 31 = true)

/-- Resets below module level go on (15 R496): the drain, the write-back and the reinitialisation end one after the other, and
the unit waits for the boundary; a module that has stopped resets where STOP_ACTION says so (16 R513). -/
def Obligations.ResetsProceed : Prop :=
  ∀ (s : State) (level : Fin 4) (unit : Nat) (tries : List WriteTry) (bad : List BadUnit),
    let d := s.dev
    (s.dev.alive = true →
      (d.rstState level unit = some 1 → d.rstDraining level unit = false → ∃ e : Dev,
        exec (.resetDrainEnd level unit) s = .next (s.ran e) ∧
        e.rstState level unit = some (if level.val = 0 then 3 else 2) ∧ e.mem = d.mem ∧ e.fronds = d.fronds) ∧
      (d.rstState level unit = some 2 → ∃ e : Dev, exec (.resetWritebackEnd level unit tries) s = .next (s.ran e) ∧
        e.rstState level unit = some 3) ∧
      (d.rstState level unit = some 3 → d.thm.ladder < 2 →
        (rstDoms level unit).all (fun i => (d.dom i).st == 4) = true → ∃ e : Dev,
        exec (.resetReinitEnd level unit bad) s = .next (s.ran e) ∧ e.rstState level unit = some 4 ∧
        ∀ f ∈ d.rstFronds level unit, (e.frond f).os = [] ∧ (e.frond f).sreg = [] ∧ (e.frond f).osValid = false)) ∧
    (d.bup.powered = true → d.pin.resetLow = false → (d.reg 0x0E000000).getLsbD 3 = true →
      d.err.double = true ∨ d.bup.state = 2 → exec .stopActionReset s = .next (s.ran d.moduleReset)) ∧
    d.moduleReset.bup.stage = 0 ∧ d.moduleReset.units = [] ∧ d.moduleReset.xfers = [] ∧ d.moduleReset.win.frozen = [] ∧
    d.moduleReset.sec.level = 0 ∧ d.moduleReset.mem.cells = []

/-- Errors and the sweep (16 R506, R511, R515, R521-R524): the end of a record's handling writes it to the log and to the
latest records; the records of a stack reach stipe 0 in order; a failing slice of a frond's arrays retires it at the next
boundary; a full coverage is noted, and one that is more than a day old is late. -/
def Obligations.ErrorsHandled : Prop :=
  ∀ (s : State) (t : Nat), s.dev.alive = true →
    let d := s.dev
    (d.err.handling = [] → exec (.errorHandling t) s = .next (s.ran (d.upTo t).select)) ∧
    (∀ q rest r, d.err.handling = q :: rest → d.err.fifo.find? (fun r => r.seq == q) = some r → d.err.displaced = [] →
      ∃ e : Dev, exec (.errorHandling t) s = .next (s.ran e) ∧ e.err.lastHead = d.err.lastHead + 1 ∧
        e.err.last.get (d.err.lastHead % 16) {} = r ∧ e.fronds = d.fronds ∧ e.regs = d.regs) ∧
    (∀ k : Fin 4, exec (.errorRecordForward k) s = .next (s.ran ((d.err.waiting.get k []).foldl Dev.enterRec
      { d with err := { d.err with waiting := d.err.waiting.put k [] } }))) ∧
    (d.sweepEn = true → ∀ f : Fin 256,
      (d.sweepOn f = true → d.sweepHeld f = false → (d.frond f).up = true → d.domOn (halfDom (d.home f)) = true → ∃ e : Dev,
        exec (.sweepSlice (.array f false)) s = .next (s.ran e) ∧
        (e.frond f).pendRetire = true ∧ (∀ g, g ≠ f.val → e.frond g = d.frond g) ∧ e.mem = d.mem) ∧
      (∃ e : Dev, exec (.sweepSlice (.covered f)) s = .next (s.ran e) ∧ e.sweep.covered.get f 0 = d.now ∧
        f.val ∉ e.sweep.late ∧ e.mem = d.mem ∧ e.fronds = d.fronds)) ∧
    (∃ e : Dev, exec (.coverageLate t) s = .next (s.ran e) ∧ e.mem = d.mem ∧ e.fronds = d.fronds ∧
      ∀ f < 256, d.isRetired f = false → d.sweep.covered.get f d.frm.entry7 + 86400000000000 ≤ t → f ∈ e.sweep.late)

/-! ### Power, temperature and cooling (13, 14) -/

/-- Telemetry and control (13 R431, R432, R437): the input as sampled, each domain's estimate from its raw power and gain, the
stacks' pools shared by unmet demand, and gains that stay between one half and two. -/
def Obligations.PowerControl : Prop :=
  ∀ (s : State) (t : Nat) (raw meas : List Nat) (cs c2s : List Int) (vin iin : Nat), s.dev.alive = true →
    let d := s.dev
    let pool (k : Nat) : Rat := d.pwr.pools.get k 0
    let unmet (k : Nat) : Rat := (List.range 12).foldl (fun a j =>
      a + max 0 ((d.dom (14 * k + j)).est - (d.dom (14 * k + j)).budget)) 0
    let u := unmet 0 + unmet 1 + unmet 2 + unmet 3
    (∃ e : Dev, exec (.telemetrySample t cs c2s vin iin) s = .next (s.ran e) ∧ e.pwr.vin = vin ∧ e.pwr.iin = iin ∧
      e.pwr.sampleAt = t ∧ e.mem = d.mem ∧ e.fronds = d.fronds ∧ e.gemmas = d.gemmas) ∧
    (∃ e : Dev, exec (.powerControlStep t raw) s = .next (s.ran e) ∧ e.pwr.frameUs = d.pwr.frameUs + 10 ∧
      (∀ i < 56, (e.dom i).est = ((raw.getD i 0 : Nat) : Rat) * d.gain i) ∧
      e.mem = d.mem ∧ e.fronds = d.fronds ∧ e.regs = d.regs) ∧
    (u ≠ 0 → exec .stackPoolRebalance s = .next (s.ran { d with pwr := { d.pwr with
      pools := (List.range 4).map (fun k => (k, (pool 0 + pool 1 + pool 2 + pool 3) * unmet k / u)) } })) ∧
    (∃ e : Dev, exec (.gainCalibration raw meas) s = .next (s.ran e) ∧ e.mem = d.mem ∧ e.fronds = d.fronds ∧
      ∀ i < 56, (d.dom i).implausible = false → 1000 ≤ raw.getD i 0 →
        0x2000 ≤ (e.reg (gainReg i)).toNat ∧ (e.reg (gainReg i)).toNat ≤ 0x8000)

/-- Power domains (13 R425, R428, R430, R441, R442): a switch-on that passes its test ramps, then initialises, then is ON; its
clamp on the others is released; a converter's fault stops its domain; a droop stretches a half-layer's clock until it is
released; a derate never falls. -/
def Obligations.PowerDomains : Prop :=
  ∀ (s : State) (i : Fin 56) (h : Fin 32) (t : Nat), s.dev.alive = true →
    let d := s.dev
    let x := d.dom i
    let mates := (List.range 56).filter (fun k => k != i.val && sameConv i k)
    let turn := mates.any (fun k => (d.dom k).st == 2 || ((d.dom k).st == 1 && decide (k < i.val)))
    (∀ load, x.st = 1 → load.all (fun l => decide (l ≤ 900)) = true → turn = false →
      exec (.switchOnTest i load t) s = .next (s.ran (((d.upTo t).modDom i (fun y => { y with st := 2, asked := 0 })).inc (cDom i 9)))) ∧
    (x.st = 2 → exec (.rampEnd i t) s = .next (s.ran ((d.upTo t).modDom i (fun y => { y with st := 3 })))) ∧
    (x.st = 3 → ∃ e : Dev, exec (.initEnd i t) s = .next (s.ran e) ∧ (e.dom i).st = 4 ∧ (e.dom i).grant = 0 ∧
      (∀ k, k ≠ i.val → e.dom k = d.dom k) ∧ e.mem = d.mem ∧ e.regs = d.regs) ∧
    (x.st ≠ 1 → x.st ≠ 2 → ∃ e : Dev, exec (.clampRelease i t) s = .next (s.ran e) ∧
      (∀ k < 56, (d.dom k).clamp = some i.val → (e.dom k).clamp = none ∧ (e.dom k).rl = 42 ∧ (e.dom k).rgate = 0) ∧
      (∀ k < 56, (d.dom k).clamp ≠ some i.val → e.dom k = d.dom k) ∧ e.mem = d.mem) ∧
    (i.val % 14 < 12 → ∃ e : Dev, exec (.converterFault i false t) s = .next (s.ran e) ∧ (e.dom i).st = 5 ∧
      (e.dom i).faultAt = some t ∧ (e.dom i).grant = 0 ∧ ∀ k, k ≠ i.val → e.dom k = d.dom k) ∧
    ((d.dom (halfDom h)).st = 4 → (d.dom (halfDom h)).droop = false → exec (.droopStretch h) s = .next (s.ran
      ((d.modDom (halfDom h) (fun y => { y with droop := true, thr := y.thr ||| 8#8 })).inc (cHl h 0)))) ∧
    exec (.droopRelease h) s = .next (s.ran (d.modDom (halfDom h) (fun y => { y with droop := false, thr := y.thr &&& 0xF7#8 }))) ∧
    (d.bup.stage = 7 → ∀ (k : Fin 4) (f n : Nat), d.stk f = k.val → f < 256 → exec (.ageingCheck k [(f, n)]) s = .next (s.ran
      (d.modFrond f (fun y => { y with pendDerate := some (max (y.pendDerate.getD y.derate) (min 15 n)) }))))

/-- Sensors, coolant, the ladder, the trips and rotation (14 R453, R454, R462-R465, R468, R469, 17 R537, R538). -/
def Obligations.ThermalSteps : Prop :=
  ∀ (s : State) (t : Nat), s.dev.alive = true →
    let d := s.dev
    let calm (e : Dev) : Prop := e.mem = d.mem ∧ e.fronds = d.fronds ∧ e.gemmas = d.gemmas ∧ e.halves = d.halves
    (∀ (i : Nat) (v : Option Int), i < 2112 → ∃ e : Dev, exec (.sensorSample t [(i, v)]) s = .next (s.ran e) ∧
      (e.sensor i).t = v ∧ calm e) ∧
    (∀ (m : Bool) (place : Nat), d.thm.tripped = false → ∃ e : Dev, exec (.thermalTrip m place) s = .next (s.ran e) ∧
      e.thm.tripped = true ∧ e.thm.thermtrip = true ∧ ∀ i < 56, i % 14 ≠ 12 → (e.dom i).st = 0) ∧
    (∀ (k : Fin 4) (env : ThermEnv), ∃ e : Dev, exec (.thermalModelStep k env) s = .next (s.ran e) ∧
      (e.thModel k).nodes.length = 26 ∧ (∀ j, j ≠ k.val → e.thModel j = d.thModel j)) ∧
    (∀ (i : Fin 2) (width : Nat), 10000 ≤ width → exec (.tachEdge i width t) s = .next (s.ran ((d.upTo t).setTach i
      { d.tach i with edges := t :: (d.tach i).edges, last := some t, period := (d.tach i).last.map (fun u => t - u) }))) ∧
    (∃ e : Dev, exec (.tachValidityCheck t) s = .next (s.ran e) ∧ calm e ∧ ∀ i < 2, (e.tach i).checked = true ∧
      (e.tach i).edges = (d.tach i).edges.filter (fun u => decide (t < u + 1000000000))) ∧
    ((d.tach 0).invalid = false → (∀ i < 2, (d.tach i).invalid = false → (d.tach i).last = none) →
      ∃ e : Dev, exec (.tachSilenceTimeout t) s = .next (s.ran e) ∧ e.thm.lost = true ∧ calm e) ∧
    (d.thm.ladder = 1 → d.thm.leak = true → ∃ e : Dev, exec (.ladderStepB t) s = .next (s.ran e) ∧ e.thm.ladder = 2 ∧
      ∀ i < 56, i % 14 < 12 → (e.dom i).st = 0 ∨ (e.dom i).st = 5) ∧
    (d.thm.ladder = 2 → d.thm.leak = true → ∃ e : Dev, exec (.ladderStepC t) s = .next (s.ran e) ∧ e.thm.ladder = 3 ∧
      ∀ (j : Nat) (u : WUnit), e.unit j = some u → u.phase = 3) ∧
    (∀ power, (d.reg 0x0D000700).getLsbD 0 = true → d.thm.near = false →
      exec (.rotationHint power) s = .next (s.ran (d.setThm (fun y => { y with hint := none })))) ∧
    (∀ held, 1000000 ≤ held → d.thm.leak = false → ∃ e : Dev, exec (.leakNAssert held t) s = .next (s.ran e) ∧
      e.thm.leak = true ∧ e.thm.ladder = (if d.thm.ladder = 0 then 1 else d.thm.ladder) ∧ calm e) ∧
    (∀ a b c v : Int, 0 ≤ a → a ≤ 8000 → d.thm.therm = [] → ∃ e : Dev,
      exec (.coolantTempSample t [a, b, c, v]) s = .next (s.ran e) ∧ e.thermistor 0 = some a ∧
      e.thermistor 1 = (if 0 ≤ b ∧ b ≤ 8000 then some b else none) ∧ calm e) ∧
    (∀ (r : Rot) (bad : List Nat), d.thm.rot = some r → r.st = 2 → d.rotLost r.a = false → d.rotLost r.b = false → ∃ e : Dev,
      exec (.rotationCopyEnd bad) s = .next (s.ran e) ∧ e.thm.rot = some { r with st := 3 } ∧
      (∀ w ∈ bad, partOf (w * 64) = r.a ∨ partOf (w * 64) = r.b → w * 64 % 2 ^ 32 < r.mib * 2 ^ 20 → e.stored w = true) ∧
      e.fronds = d.fronds ∧ e.regs = d.regs)

/-! ### Bring-up, pins, the management bus and the test port (15, 17) -/

/-- The stages of bring-up (15 R480, R482, R486): each follows the one before it. Stage 1 takes copy A where it is good and not
older; stage 3 powers the memory pairs of the stacks that are up; stage 4 trains the enabled ports; a wave switches its
half-layer on; stage 7 is operation. -/
def Obligations.BringUp : Prop :=
  ∀ (s : State) (t : Nat), s.dev.alive = true →
    let d := s.dev
    (d.atStage 0 = true → d.pin.flashSel = false → copyCode s.fuse s.flash.copyA false = 0 →
      atBytes s.flash.copyB 0xC 4 ≤ atBytes s.flash.copyA 0xC 4 → ∃ e : Dev,
      exec (.configImageLoad 0#2) s = .next (s.ran e) ∧ e.bup.stage = 1 ∧ e.bup.copy = 1 ∧
      e.bup.image = s.flash.copyA.take (imageLen s.flash.copyA) ∧ e.bup.state = d.bup.state ∧ e.err = d.err) ∧
    (d.atStage 1 = true → fwCheck s.fuse (secBytes ((imageSecs d.bup.image).getD []) 10) = none → s.fuse.badCopy = [] →
      ∃ e : Dev, exec (.fuseMapLoad 0xF#4 []) s = .next (s.ran e) ∧ e.bup.stage = 2 ∧ e.sec.keyReady = true) ∧
    (∀ env, d.atStage 2 = true → ∃ e : Dev, exec (.memoryBringup env) s = .next (s.ran e) ∧ e.bup.stage = 3 ∧
      ∀ i < 56, 8 ≤ i % 14 → i % 14 < 12 → i / 14 ∉ d.bup.downStacks → (e.dom i).st = 4) ∧
    (d.atStage 3 = true → ∃ e : Dev, exec (.linkTraining t) s = .next (s.ran e) ∧ e.bup.stage = 4 ∧
      ∀ p < 6, (e.port p).st = if d.portEn p = true ∧ portStack p ∉ d.bup.downStacks then 1 else (d.port p).st) ∧
    (d.atStage 4 = true → (∀ p < 6, (d.port p).st ≠ 1) → exec (.qualification t) s = .next (s.ran ((d.upTo t).enterStage 5))) ∧
    (∀ w : Fin 32, d.atStage 6 = true → w.val % 4 ∉ d.bup.downStacks →
      let h := 8 * (w.val % 4) + w.val / 4
      (d.dom (halfDom h)).st = 0 → ∃ e : Dev, exec (.computeWave w [] false) s = .next (s.ran e) ∧
        (e.dom (halfDom h)).st = 4 ∧ ∀ k < 8, (e.frond (8 * h + k)).up = true) ∧
    (d.atStage 6 = true → (∀ h < 32, h / 8 ∉ d.bup.downStacks → (d.dom (halfDom h)).st = 4) → ∃ e : Dev,
      exec (.stage7Entry t) s = .next (s.ran e) ∧ e.bup.stage = 7 ∧ e.bup.state = 1 ∧ e.lastTick = max d.now t)

/-- Power and reset pins, the input voltage, the clock, the sideband inputs, and the management bus with its common commands
(13 R422, 15 R495, 17 R533-R548). -/
def Obligations.PinsAndBus : Prop :=
  ∀ (s : State) (t : Nat),
    let d := s.dev
    let e := d.upTo t
    (∀ strap, d.pin.pwrEn = false → d.pin.fellAt = none → d.pin.vinBad = false → d.pin.resetLow = false →
      ∃ a : Dev, exec (.pwrEnRise t strap 0xF#4 true) s = .next (s.ran a) ∧ a.bup.powered = true ∧ a.bup.stage = 0 ∧
        a.bup.state = 0 ∧ a.pin.strap = strap ∧ a.pin.pgood = true ∧ a.mem.cells = []) ∧
    (∀ strap n, d.pin.pwrEn = true → d.bup.powered = false → d.pin.fellAt = some n → n + 100000000 ≤ t → d.pin.vinBad = false →
      d.pin.resetLow = false → ∃ a : Dev, exec (.pwrEnHonoured t strap 0xF#4 true) s = .next (s.ran a) ∧
        a.bup.powered = true ∧ a.bup.stage = 0) ∧
    (d.pin.pwrEn = true → ∃ a : Dev, exec (.pwrEnFall t) s = .next (s.ran a) ∧ a.bup.powered = false ∧
      a.pin.pwrEn = false ∧ a.pin.fellAt = some t ∧ a.mem.cells = [] ∧ a.units = []) ∧
    (∀ low, 10000 ≤ low → d.bup.powered = true → ∃ a : Dev, exec (.resetNAssert low t) s = .next (s.ran a) ∧
      a.pin.resetLow = true ∧ a.units = [] ∧ a.bup.stage = 0 ∧ a.win.frozen = []) ∧
    (d.pin.resetLow = true → d.bup.powered = true → ∃ a : Dev, exec (.resetNRelease t 0xF#4 true) s = .next (s.ran a) ∧
      a.pin.resetLow = false ∧ a.bup.stage = 0 ∧ a.bup.state = 0) ∧
    (∀ mv held, mv < 42000 → 100000 ≤ held → ∃ a : Dev, exec (.vinUndervoltage mv held) s = .next (s.ran a) ∧
      a.bup.powered = false ∧ a.pin.vinBad = true) ∧
    (∀ mv held, 58000 < mv → 10000 ≤ held → ∃ a : Dev, exec (.vinOvervoltage mv held) s = .next (s.ran a) ∧
      a.bup.powered = false ∧ a.pin.vinBad = true) ∧
    (∀ mv, d.pin.vinBad = true → 44000 ≤ mv → mv ≤ 56000 → ∃ a : Dev, exec (.vinRise mv t 0xF#4 true) s = .next (s.ran a) ∧
      a.pin.vinBad = false) ∧
    (∀ held, 10000 ≤ held → d.pin.refclk = true → ∃ a : Dev, exec (.refclkLoss held t) s = .next (s.ran a) ∧
      a.pin.refclk = false) ∧
    (∀ held, 10000000 ≤ held → exec (.refclkReturn held t) s = .next (s.ran { e with pin := { d.pin with refclk := true } })) ∧
    (∀ high, exec (.flashSelChange high) s = .next (s.ran (d.setPin (fun p => { p with flashSel := high })))) ∧
    (d.alive = true → d.pwr.throttle = false → exec (.throttleAssert t) s = .next (s.ran { e with
      pwr := { d.pwr with throttle := true, throttleUse := true }
      pin := { d.pin with throttleAt := some e.now, throttleErr := false } })) ∧
    (d.alive = true → d.pwr.throttle = true → exec (.throttleRelease t) s = .next (s.ran { e with
      pwr := { d.pwr with throttle := false }, pin := { d.pin with throttleAt := none } })) ∧
    (∀ a, d.alive = true → d.pin.throttleAt = some a → d.pin.throttleErr = false → a + 10000000000 ≤ t →
      exec (.pwrThrottleHeld t) s = .next (s.ran (Dev.raise { e with pin := { d.pin with throttleErr := true } } 0
        { cls := 0, kind := 0, code := 0x0C07 }))) ∧
    (d.i3cUp = true →
      (∀ bs : List Byte, bs.length = 4 → exec (.i3cPrivateWrite bs) s = .next (s.ran (
        d.setPin (fun p => { p with i3cAddr := leNat bs / 4 * 4 })))) ∧
      (∀ n, exec (.i3cPrivateRead n) s = .next (s.ran (d.setPin (fun p => { p with
        i3cOut := (List.range n).map (fun i => d.i3cWord s.fuse ((p.i3cAddr + 4 * i) % 2 ^ 32))
        i3cAddr := (p.i3cAddr + 4 * n) % 2 ^ 32 })))) ∧
      (∀ st dy : BitVec 7, st.toNat = 0x48 + d.pin.strap.toNat → d.pin.dyn = 0#7 →
        exec (.setdasa st dy) s = .next (s.ran (d.setPin (fun p => { p with dyn := dy })))) ∧
      (∀ dy : BitVec 7, d.pin.dyn = 0#7 → exec (.entdaa dy) s = .next (s.ran (d.setPin (fun p => { p with
        dyn := dy, i3cReply := pid s.fuse ++ [Config.i3cByte 2, Config.i3cByte 3] })))) ∧
      exec .rstdaa s = .next (s.ran (d.setPin (fun p => { p with dyn := 0#7 }))) ∧
      exec .enec s = .next (s.ran (d.setPin (fun p => { p with ibi := true }))) ∧
      exec .disec s = .next (s.ran (d.setPin (fun p => { p with ibi := false }))) ∧
      (d.pin.dyn ≠ 0#7 → exec .getpid s = .next (s.ran (d.setPin (fun p => { p with i3cReply := pid s.fuse }))) ∧
        exec .getbcr s = .next (s.ran (d.setPin (fun p => { p with i3cReply := [Config.i3cByte 2] }))) ∧
        exec .getdcr s = .next (s.ran (d.setPin (fun p => { p with i3cReply := [Config.i3cByte 3] }))) ∧
        exec .getmxds s = .next (s.ran (d.setPin (fun p => { p with i3cReply := [Config.i3cByte 4, Config.i3cByte 5] }))) ∧
        exec .getstatus s = .next (s.ran (Dev.setPin { d with free := d.free + 1 } (fun p =>
          { p with i3cReply := leBytes 2 (Config.freeValue d.free).toNat })))) ∧
      (d.pin.ibi = true → d.pin.alert = true → 0 < d.pin.ibis → d.pin.ibiAt + 1000000 ≤ t → ∃ a : Dev,
        exec (.ibiRetry t) s = .next (s.ran a) ∧ a.pin.ibis = d.pin.ibis + 1 ∧ a.pin.ibiAt = max d.now t ∧ a.mem = d.mem))

/-- The test port of a powered module (12 R414, 17 R535, R545): BYPASS and IDCODE at every level; the boundary scan and reads of
control space from OBSERVE on; writes of control space, memory and the halting of a stipe at FULL alone; below its level a
command changes nothing. TRST_N leaves the boundary scan. -/
def Obligations.TestPort : Prop :=
  ∀ (s : State) (a : Word) (m : BitVec 40) (v : Word) (k : Fin 4) (drive : BitVec 40), s.dev.bup.powered = true →
    let d := s.dev
    exec .jtagBypass s = .next (s.ran (d.setPin (fun p => { p with extest := false, tdo := 0#32 }))) ∧
    exec .jtagIdcode s = .next (s.ran (d.setPin (fun p => { p with
      extest := false, tdo := pack [(Config.idCode.toNat, 0), (0x7730, 12), (1, 28)] }))) ∧
    exec (.jtagExtest drive) s = .next (s.ran (if 1 ≤ d.sec.level then d.setPin (fun p => { p with extest := true, drive := drive }) else d)) ∧
    exec (.jtagControlAccess a .read) s = .next (s.ran (if 1 ≤ d.sec.level then
        (d.ctlRead s.fuse 6 (a.toNat / 4 * 4)).1.setPin (fun p => { p with tdo := (d.ctlRead s.fuse 6 (a.toNat / 4 * 4)).2 })
      else d)) ∧
    exec (.jtagControlAccess a (.write v)) s = .next (s.ran (if 2 ≤ d.sec.level
      then d.writeReg none (a.toNat / 4 * 4) 0xFFFFFFFF v.toNat else d)) ∧
    (d.sec.level < 2 → exec (.jtagMemoryAccess m .read) s = .next (s.ran d)) ∧
    (2 ≤ d.sec.level → match d.stipeRead (m.toNat / 64) with
      | (d1, st, g) =>
        (st ≠ 1 → exec (.jtagMemoryAccess m .read) s = .next (s.ran (d1.setPin (fun p =>
          { p with tdo := gWord g (m.toNat % 64 / 4) })))) ∧
        (st = 1 → exec (.jtagMemoryAccess m .read) s = .next (s.ran (Dev.setPin { d1 with free := d1.free + 1 } (fun p =>
          { p with tdo := (Config.freeValue d1.free).setWidth 32 }))))) ∧
    exec (.jtagMemoryAccess m (.write v)) s = .next (s.ran (if 2 ≤ d.sec.level then d.stipeWords (m.toNat / 4 * 4) [v] else d)) ∧
    exec (.jtagHaltStipe k) s = .next (s.ran (if 2 ≤ d.sec.level
      then d.setPin (fun p => { p with halted := (p.halted ++ [k.val]).eraseDups }) else d)) ∧
    (∀ low, exec (.trstNAssert low) s = .next (s.ran (if low < 1000 then d else d.setPin (fun p => { p with extest := false }))))
end

