-- ==== Sys2Proof/Laws/SMap.lean ====
section
/-! SUPPORT. Reading a sparse map after a write, and what keeps its keys rising. -/

namespace Sys2Proof

open Sys2Proof.Machine

variable {α : Type}

@[simp] theorem SMap.find_nil (k : Nat) : SMap.find ([] : SMap α) k = none := rfl

@[simp] theorem SMap.get_nil (k : Nat) (a : α) : SMap.get ([] : SMap α) k a = a := rfl

@[simp] theorem SMap.find_put_self (m : SMap α) (k : Nat) (a : α) : SMap.find (SMap.put m k a) k = some a := by
  induction m with
  | nil => simp [SMap.put, SMap.find]
  | cons e m ih =>
    obtain ⟨i, b⟩ := e
    rcases Nat.lt_trichotomy k i with h | h | h
    · simp [SMap.put, SMap.find, h]
    · simp [SMap.put, SMap.find, h]
    · simp [SMap.put, SMap.find, Nat.not_lt.2 h.le, h.ne, ih]

@[simp] theorem SMap.find_put_ne (m : SMap α) {j k : Nat} (a : α) (h : j ≠ k) :
    SMap.find (SMap.put m k a) j = SMap.find m j := by
  induction m with
  | nil => simp [SMap.put, SMap.find, h.symm]
  | cons e m ih =>
    obtain ⟨i, b⟩ := e
    simp only [SMap.put]
    split
    · rename_i hk
      simp only [SMap.find, if_neg h.symm]
    · split
      · rename_i hi
        subst hi
        simp [SMap.find, h.symm]
      · simp only [SMap.find, ih]

theorem SMap.find_put (m : SMap α) (j k : Nat) (a : α) :
    SMap.find (SMap.put m k a) j = if j = k then some a else SMap.find m j := by
  split_ifs with h
  · subst h; simp
  · simp [h]

@[simp] theorem SMap.get_put_self (m : SMap α) (k : Nat) (a b : α) : SMap.get (SMap.put m k a) k b = a := by
  simp [SMap.get]

@[simp] theorem SMap.get_put_ne (m : SMap α) {j k : Nat} (a b : α) (h : j ≠ k) :
    SMap.get (SMap.put m k a) j b = SMap.get m j b := by
  simp [SMap.get, h]

theorem SMap.get_put (m : SMap α) (j k : Nat) (a b : α) :
    SMap.get (SMap.put m k a) j b = if j = k then a else SMap.get m j b := by
  split_ifs with h
  · subst h; simp
  · simp [h]

/-- Keys rise when each is below every later one. -/
theorem SMap.rising_iff (m : SMap α) : SMap.rising m = true ↔ m.Pairwise (fun a b => a.1 < b.1) := by
  induction m with
  | nil => simp [SMap.rising]
  | cons a m ih =>
    cases m with
    | nil => simp [SMap.rising]
    | cons b l =>
      simp only [SMap.rising, Bool.and_eq_true, decide_eq_true_eq, ih]
      constructor
      · rintro ⟨h, hp⟩
        refine List.pairwise_cons.2 ⟨fun c hc => ?_, hp⟩
        rcases List.mem_cons.1 hc with rfl | hc
        · exact h
        · exact h.trans ((List.pairwise_cons.1 hp).1 c hc)
      · intro hp
        exact ⟨(List.pairwise_cons.1 hp).1 b (by simp), (List.pairwise_cons.1 hp).2⟩

/-- With rising keys, finding is membership. -/
theorem SMap.find_eq_some_iff {m : SMap α} (h : SMap.rising m = true) (k : Nat) (a : α) :
    SMap.find m k = some a ↔ (k, a) ∈ m := by
  rw [SMap.rising_iff] at h
  induction m with
  | nil => simp
  | cons e m ih =>
    obtain ⟨i, b⟩ := e
    obtain ⟨h1, h2⟩ := List.pairwise_cons.1 h
    simp only [SMap.find, List.mem_cons, Prod.mk.injEq]
    split_ifs with hi
    · subst hi
      constructor
      · intro e; exact .inl ⟨rfl, (Option.some.inj e).symm⟩
      · rintro (⟨-, rfl⟩ | hm)
        · rfl
        · exact absurd (h1 _ hm) (lt_irrefl _)
    · rw [ih h2]
      constructor
      · exact .inr
      · rintro (⟨rfl, -⟩ | hm)
        · exact absurd rfl hi
        · exact hm

theorem SMap.mem_put {m : SMap α} {k : Nat} {a : α} {e : Nat × α} (h : e ∈ SMap.put m k a) : e = (k, a) ∨ e ∈ m := by
  induction m with
  | nil => simpa [SMap.put] using h
  | cons x m ih =>
    obtain ⟨i, b⟩ := x
    simp only [SMap.put] at h
    split at h
    · simpa using h
    · split at h
      · rcases List.mem_cons.1 h with h | h
        · exact .inl h
        · exact .inr (by simp [h])
      · rcases List.mem_cons.1 h with h | h
        · exact .inr (by simp [h])
        · rcases ih h with h | h
          · exact .inl h
          · exact .inr (by simp [h])

theorem SMap.rising_put {m : SMap α} (h : SMap.rising m = true) (k : Nat) (a : α) : SMap.rising (SMap.put m k a) = true := by
  rw [SMap.rising_iff] at *
  induction m with
  | nil => simp [SMap.put]
  | cons e m ih =>
    obtain ⟨i, b⟩ := e
    obtain ⟨h1, h2⟩ := List.pairwise_cons.1 h
    simp only [SMap.put]
    split_ifs with hk hi
    · refine List.pairwise_cons.2 ⟨fun e he => ?_, h⟩
      rcases List.mem_cons.1 he with rfl | he
      · exact hk
      · exact hk.trans (h1 e he)
    · subst hi
      exact List.pairwise_cons.2 ⟨h1, h2⟩
    · refine List.pairwise_cons.2 ⟨fun e he => ?_, ih h2⟩
      rcases SMap.mem_put he with rfl | he
      · simp only; omega
      · exact h1 e he

theorem SMap.rising_filter {m : SMap α} (h : SMap.rising m = true) (p : Nat × α → Bool) :
    SMap.rising (m.filter p : SMap α) = true := by
  rw [SMap.rising_iff] at *
  exact List.Pairwise.filter p h

theorem SMap.rising_drop {m : SMap α} (h : SMap.rising m = true) (k : Nat) : SMap.rising (SMap.drop m k) = true :=
  SMap.rising_filter h _

/-- A filter by key leaves the entries of the keys it keeps. -/
theorem SMap.find_filter (m : SMap α) (p : Nat → Bool) (k : Nat) :
    SMap.find (m.filter (fun e => p e.1) : SMap α) k = if p k = true then SMap.find m k else none := by
  induction m with
  | nil => simp [SMap.find]
  | cons e m ih =>
    obtain ⟨i, b⟩ := e
    by_cases hi : i = k
    · subst hi
      by_cases hp : p i = true
      · simp [hp, SMap.find]
      · simp [hp, ih]
    · by_cases hp : p i = true
      · simp [hp, SMap.find, hi, ih]
      · simp [hp, SMap.find, hi, ih]

theorem SMap.find_drop (m : SMap α) (j k : Nat) :
    SMap.find (SMap.drop m k) j = if j = k then none else SMap.find m j := by
  have := SMap.find_filter m (fun i => decide (i ≠ k)) j
  simp only [SMap.drop, decide_eq_true_eq, ite_not] at *
  exact this

end Sys2Proof
end

