-- ==== Sys2Proof/Laws/State.lean ====
section
/-! SUPPORT. Each field of the device after each of its updates. -/

namespace Sys2Proof.Machine

variable (d : Dev)

@[simp] theorem Dev.setFrond_now (f : Nat) (x : Frond) : (d.setFrond f x).now = d.now := rfl
@[simp] theorem Dev.setFrond_free (f : Nat) (x : Frond) : (d.setFrond f x).free = d.free := rfl
@[simp] theorem Dev.setFrond_err (f : Nat) (x : Frond) : (d.setFrond f x).err = d.err := rfl
@[simp] theorem Dev.setFrond_stat (f : Nat) (x : Frond) : (d.setFrond f x).stat = d.stat := rfl
@[simp] theorem Dev.setFrond_mem (f : Nat) (x : Frond) : (d.setFrond f x).mem = d.mem := rfl
@[simp] theorem Dev.setFrond_rhz (f : Nat) (x : Frond) : (d.setFrond f x).rhz = d.rhz := rfl
@[simp] theorem Dev.setFrond_halves (f : Nat) (x : Frond) : (d.setFrond f x).halves = d.halves := rfl
@[simp] theorem Dev.setFrond_bridgeFail (f : Nat) (x : Frond) : (d.setFrond f x).bridgeFail = d.bridgeFail := rfl
@[simp] theorem Dev.setFrond_bridgeOff (f : Nat) (x : Frond) : (d.setFrond f x).bridgeOff = d.bridgeOff := rfl
@[simp] theorem Dev.setFrond_win (f : Nat) (x : Frond) : (d.setFrond f x).win = d.win := rfl
@[simp] theorem Dev.setFrond_xfers (f : Nat) (x : Frond) : (d.setFrond f x).xfers = d.xfers := rfl
@[simp] theorem Dev.setFrond_nextX (f : Nat) (x : Frond) : (d.setFrond f x).nextX = d.nextX := rfl
@[simp] theorem Dev.setFrond_units (f : Nat) (x : Frond) : (d.setFrond f x).units = d.units := rfl
@[simp] theorem Dev.setFrond_nextU (f : Nat) (x : Frond) : (d.setFrond f x).nextU = d.nextU := rfl
@[simp] theorem Dev.setFrond_endedQ (f : Nat) (x : Frond) : (d.setFrond f x).endedQ = d.endedQ := rfl
@[simp] theorem Dev.setFrond_regs (f : Nat) (x : Frond) : (d.setFrond f x).regs = d.regs := rfl
@[simp] theorem Dev.setFrond_inForce (f : Nat) (x : Frond) : (d.setFrond f x).inForce = d.inForce := rfl
@[simp] theorem Dev.setFrond_poolBase (f : Nat) (x : Frond) : (d.setFrond f x).poolBase = d.poolBase := rfl
@[simp] theorem Dev.setFrond_poolCount (f : Nat) (x : Frond) : (d.setFrond f x).poolCount = d.poolCount := rfl
@[simp] theorem Dev.setFrond_frame (f : Nat) (x : Frond) : (d.setFrond f x).frame = d.frame := rfl
@[simp] theorem Dev.setFrond_lastTick (f : Nat) (x : Frond) : (d.setFrond f x).lastTick = d.lastTick := rfl
@[simp] theorem Dev.setFrond_fronds (f : Nat) (x : Frond) : (d.setFrond f x).fronds = d.fronds.put f x := rfl
@[simp] theorem Dev.setFrond_gemmas (f : Nat) (x : Frond) : (d.setFrond f x).gemmas = d.gemmas := rfl
@[simp] theorem Dev.setFrond_arrStatus (f : Nat) (x : Frond) : (d.setFrond f x).arrStatus = d.arrStatus := rfl
@[simp] theorem Dev.setFrond_seals (f : Nat) (x : Frond) : (d.setFrond f x).seals = d.seals := rfl
@[simp] theorem Dev.setFrond_sealRuns (f : Nat) (x : Frond) : (d.setFrond f x).sealRuns = d.sealRuns := rfl
@[simp] theorem Dev.setFrond_sealHeld (f : Nat) (x : Frond) : (d.setFrond f x).sealHeld = d.sealHeld := rfl
@[simp] theorem Dev.setFrond_ports (f : Nat) (x : Frond) : (d.setFrond f x).ports = d.ports := rfl
@[simp] theorem Dev.setFrond_frm (f : Nat) (x : Frond) : (d.setFrond f x).frm = d.frm := rfl
@[simp] theorem Dev.setFrond_pwr (f : Nat) (x : Frond) : (d.setFrond f x).pwr = d.pwr := rfl
@[simp] theorem Dev.setFrond_thm (f : Nat) (x : Frond) : (d.setFrond f x).thm = d.thm := rfl
@[simp] theorem Dev.setFrond_bup (f : Nat) (x : Frond) : (d.setFrond f x).bup = d.bup := rfl
@[simp] theorem Dev.setFrond_sec (f : Nat) (x : Frond) : (d.setFrond f x).sec = d.sec := rfl
@[simp] theorem Dev.setFrond_pin (f : Nat) (x : Frond) : (d.setFrond f x).pin = d.pin := rfl
@[simp] theorem Dev.setFrond_sweep (f : Nat) (x : Frond) : (d.setFrond f x).sweep = d.sweep := rfl
@[simp] theorem Dev.setFrond_halfReset (f : Nat) (x : Frond) : (d.setFrond f x).halfReset = d.halfReset := rfl

@[simp] theorem Dev.setGemma_now (g : Nat) (x : Gemma) : (d.setGemma g x).now = d.now := rfl
@[simp] theorem Dev.setGemma_free (g : Nat) (x : Gemma) : (d.setGemma g x).free = d.free := rfl
@[simp] theorem Dev.setGemma_err (g : Nat) (x : Gemma) : (d.setGemma g x).err = d.err := rfl
@[simp] theorem Dev.setGemma_stat (g : Nat) (x : Gemma) : (d.setGemma g x).stat = d.stat := rfl
@[simp] theorem Dev.setGemma_mem (g : Nat) (x : Gemma) : (d.setGemma g x).mem = d.mem := rfl
@[simp] theorem Dev.setGemma_rhz (g : Nat) (x : Gemma) : (d.setGemma g x).rhz = d.rhz := rfl
@[simp] theorem Dev.setGemma_halves (g : Nat) (x : Gemma) : (d.setGemma g x).halves = d.halves := rfl
@[simp] theorem Dev.setGemma_bridgeFail (g : Nat) (x : Gemma) : (d.setGemma g x).bridgeFail = d.bridgeFail := rfl
@[simp] theorem Dev.setGemma_bridgeOff (g : Nat) (x : Gemma) : (d.setGemma g x).bridgeOff = d.bridgeOff := rfl
@[simp] theorem Dev.setGemma_win (g : Nat) (x : Gemma) : (d.setGemma g x).win = d.win := rfl
@[simp] theorem Dev.setGemma_xfers (g : Nat) (x : Gemma) : (d.setGemma g x).xfers = d.xfers := rfl
@[simp] theorem Dev.setGemma_nextX (g : Nat) (x : Gemma) : (d.setGemma g x).nextX = d.nextX := rfl
@[simp] theorem Dev.setGemma_units (g : Nat) (x : Gemma) : (d.setGemma g x).units = d.units := rfl
@[simp] theorem Dev.setGemma_nextU (g : Nat) (x : Gemma) : (d.setGemma g x).nextU = d.nextU := rfl
@[simp] theorem Dev.setGemma_endedQ (g : Nat) (x : Gemma) : (d.setGemma g x).endedQ = d.endedQ := rfl
@[simp] theorem Dev.setGemma_regs (g : Nat) (x : Gemma) : (d.setGemma g x).regs = d.regs := rfl
@[simp] theorem Dev.setGemma_inForce (g : Nat) (x : Gemma) : (d.setGemma g x).inForce = d.inForce := rfl
@[simp] theorem Dev.setGemma_poolBase (g : Nat) (x : Gemma) : (d.setGemma g x).poolBase = d.poolBase := rfl
@[simp] theorem Dev.setGemma_poolCount (g : Nat) (x : Gemma) : (d.setGemma g x).poolCount = d.poolCount := rfl
@[simp] theorem Dev.setGemma_frame (g : Nat) (x : Gemma) : (d.setGemma g x).frame = d.frame := rfl
@[simp] theorem Dev.setGemma_lastTick (g : Nat) (x : Gemma) : (d.setGemma g x).lastTick = d.lastTick := rfl
@[simp] theorem Dev.setGemma_fronds (g : Nat) (x : Gemma) : (d.setGemma g x).fronds = d.fronds := rfl
@[simp] theorem Dev.setGemma_gemmas (g : Nat) (x : Gemma) : (d.setGemma g x).gemmas = d.gemmas.put g x := rfl
@[simp] theorem Dev.setGemma_arrStatus (g : Nat) (x : Gemma) : (d.setGemma g x).arrStatus = d.arrStatus := rfl
@[simp] theorem Dev.setGemma_seals (g : Nat) (x : Gemma) : (d.setGemma g x).seals = d.seals := rfl
@[simp] theorem Dev.setGemma_sealRuns (g : Nat) (x : Gemma) : (d.setGemma g x).sealRuns = d.sealRuns := rfl
@[simp] theorem Dev.setGemma_sealHeld (g : Nat) (x : Gemma) : (d.setGemma g x).sealHeld = d.sealHeld := rfl
@[simp] theorem Dev.setGemma_ports (g : Nat) (x : Gemma) : (d.setGemma g x).ports = d.ports := rfl
@[simp] theorem Dev.setGemma_frm (g : Nat) (x : Gemma) : (d.setGemma g x).frm = d.frm := rfl
@[simp] theorem Dev.setGemma_pwr (g : Nat) (x : Gemma) : (d.setGemma g x).pwr = d.pwr := rfl
@[simp] theorem Dev.setGemma_thm (g : Nat) (x : Gemma) : (d.setGemma g x).thm = d.thm := rfl
@[simp] theorem Dev.setGemma_bup (g : Nat) (x : Gemma) : (d.setGemma g x).bup = d.bup := rfl
@[simp] theorem Dev.setGemma_sec (g : Nat) (x : Gemma) : (d.setGemma g x).sec = d.sec := rfl
@[simp] theorem Dev.setGemma_pin (g : Nat) (x : Gemma) : (d.setGemma g x).pin = d.pin := rfl
@[simp] theorem Dev.setGemma_sweep (g : Nat) (x : Gemma) : (d.setGemma g x).sweep = d.sweep := rfl
@[simp] theorem Dev.setGemma_halfReset (g : Nat) (x : Gemma) : (d.setGemma g x).halfReset = d.halfReset := rfl

@[simp] theorem Dev.setBank_now (b : Nat) (x : Bank) : (d.setBank b x).now = d.now := rfl
@[simp] theorem Dev.setBank_free (b : Nat) (x : Bank) : (d.setBank b x).free = d.free := rfl
@[simp] theorem Dev.setBank_err (b : Nat) (x : Bank) : (d.setBank b x).err = d.err := rfl
@[simp] theorem Dev.setBank_stat (b : Nat) (x : Bank) : (d.setBank b x).stat = d.stat := rfl
@[simp] theorem Dev.setBank_mem (b : Nat) (x : Bank) : (d.setBank b x).mem = { d.mem with banks := d.mem.banks.put b x } := rfl
@[simp] theorem Dev.setBank_rhz (b : Nat) (x : Bank) : (d.setBank b x).rhz = d.rhz := rfl
@[simp] theorem Dev.setBank_halves (b : Nat) (x : Bank) : (d.setBank b x).halves = d.halves := rfl
@[simp] theorem Dev.setBank_bridgeFail (b : Nat) (x : Bank) : (d.setBank b x).bridgeFail = d.bridgeFail := rfl
@[simp] theorem Dev.setBank_bridgeOff (b : Nat) (x : Bank) : (d.setBank b x).bridgeOff = d.bridgeOff := rfl
@[simp] theorem Dev.setBank_win (b : Nat) (x : Bank) : (d.setBank b x).win = d.win := rfl
@[simp] theorem Dev.setBank_xfers (b : Nat) (x : Bank) : (d.setBank b x).xfers = d.xfers := rfl
@[simp] theorem Dev.setBank_nextX (b : Nat) (x : Bank) : (d.setBank b x).nextX = d.nextX := rfl
@[simp] theorem Dev.setBank_units (b : Nat) (x : Bank) : (d.setBank b x).units = d.units := rfl
@[simp] theorem Dev.setBank_nextU (b : Nat) (x : Bank) : (d.setBank b x).nextU = d.nextU := rfl
@[simp] theorem Dev.setBank_endedQ (b : Nat) (x : Bank) : (d.setBank b x).endedQ = d.endedQ := rfl
@[simp] theorem Dev.setBank_regs (b : Nat) (x : Bank) : (d.setBank b x).regs = d.regs := rfl
@[simp] theorem Dev.setBank_inForce (b : Nat) (x : Bank) : (d.setBank b x).inForce = d.inForce := rfl
@[simp] theorem Dev.setBank_poolBase (b : Nat) (x : Bank) : (d.setBank b x).poolBase = d.poolBase := rfl
@[simp] theorem Dev.setBank_poolCount (b : Nat) (x : Bank) : (d.setBank b x).poolCount = d.poolCount := rfl
@[simp] theorem Dev.setBank_frame (b : Nat) (x : Bank) : (d.setBank b x).frame = d.frame := rfl
@[simp] theorem Dev.setBank_lastTick (b : Nat) (x : Bank) : (d.setBank b x).lastTick = d.lastTick := rfl
@[simp] theorem Dev.setBank_fronds (b : Nat) (x : Bank) : (d.setBank b x).fronds = d.fronds := rfl
@[simp] theorem Dev.setBank_gemmas (b : Nat) (x : Bank) : (d.setBank b x).gemmas = d.gemmas := rfl
@[simp] theorem Dev.setBank_arrStatus (b : Nat) (x : Bank) : (d.setBank b x).arrStatus = d.arrStatus := rfl
@[simp] theorem Dev.setBank_seals (b : Nat) (x : Bank) : (d.setBank b x).seals = d.seals := rfl
@[simp] theorem Dev.setBank_sealRuns (b : Nat) (x : Bank) : (d.setBank b x).sealRuns = d.sealRuns := rfl
@[simp] theorem Dev.setBank_sealHeld (b : Nat) (x : Bank) : (d.setBank b x).sealHeld = d.sealHeld := rfl
@[simp] theorem Dev.setBank_ports (b : Nat) (x : Bank) : (d.setBank b x).ports = d.ports := rfl
@[simp] theorem Dev.setBank_frm (b : Nat) (x : Bank) : (d.setBank b x).frm = d.frm := rfl
@[simp] theorem Dev.setBank_pwr (b : Nat) (x : Bank) : (d.setBank b x).pwr = d.pwr := rfl
@[simp] theorem Dev.setBank_thm (b : Nat) (x : Bank) : (d.setBank b x).thm = d.thm := rfl
@[simp] theorem Dev.setBank_bup (b : Nat) (x : Bank) : (d.setBank b x).bup = d.bup := rfl
@[simp] theorem Dev.setBank_sec (b : Nat) (x : Bank) : (d.setBank b x).sec = d.sec := rfl
@[simp] theorem Dev.setBank_pin (b : Nat) (x : Bank) : (d.setBank b x).pin = d.pin := rfl
@[simp] theorem Dev.setBank_sweep (b : Nat) (x : Bank) : (d.setBank b x).sweep = d.sweep := rfl
@[simp] theorem Dev.setBank_halfReset (b : Nat) (x : Bank) : (d.setBank b x).halfReset = d.halfReset := rfl

@[simp] theorem Dev.setLayer_now (i : Nat) (x : MemLayer) : (d.setLayer i x).now = d.now := rfl
@[simp] theorem Dev.setLayer_free (i : Nat) (x : MemLayer) : (d.setLayer i x).free = d.free := rfl
@[simp] theorem Dev.setLayer_err (i : Nat) (x : MemLayer) : (d.setLayer i x).err = d.err := rfl
@[simp] theorem Dev.setLayer_stat (i : Nat) (x : MemLayer) : (d.setLayer i x).stat = d.stat := rfl
@[simp] theorem Dev.setLayer_mem (i : Nat) (x : MemLayer) : (d.setLayer i x).mem = { d.mem with layers := d.mem.layers.put i x } := rfl
@[simp] theorem Dev.setLayer_rhz (i : Nat) (x : MemLayer) : (d.setLayer i x).rhz = d.rhz := rfl
@[simp] theorem Dev.setLayer_halves (i : Nat) (x : MemLayer) : (d.setLayer i x).halves = d.halves := rfl
@[simp] theorem Dev.setLayer_bridgeFail (i : Nat) (x : MemLayer) : (d.setLayer i x).bridgeFail = d.bridgeFail := rfl
@[simp] theorem Dev.setLayer_bridgeOff (i : Nat) (x : MemLayer) : (d.setLayer i x).bridgeOff = d.bridgeOff := rfl
@[simp] theorem Dev.setLayer_win (i : Nat) (x : MemLayer) : (d.setLayer i x).win = d.win := rfl
@[simp] theorem Dev.setLayer_xfers (i : Nat) (x : MemLayer) : (d.setLayer i x).xfers = d.xfers := rfl
@[simp] theorem Dev.setLayer_nextX (i : Nat) (x : MemLayer) : (d.setLayer i x).nextX = d.nextX := rfl
@[simp] theorem Dev.setLayer_units (i : Nat) (x : MemLayer) : (d.setLayer i x).units = d.units := rfl
@[simp] theorem Dev.setLayer_nextU (i : Nat) (x : MemLayer) : (d.setLayer i x).nextU = d.nextU := rfl
@[simp] theorem Dev.setLayer_endedQ (i : Nat) (x : MemLayer) : (d.setLayer i x).endedQ = d.endedQ := rfl
@[simp] theorem Dev.setLayer_regs (i : Nat) (x : MemLayer) : (d.setLayer i x).regs = d.regs := rfl
@[simp] theorem Dev.setLayer_inForce (i : Nat) (x : MemLayer) : (d.setLayer i x).inForce = d.inForce := rfl
@[simp] theorem Dev.setLayer_poolBase (i : Nat) (x : MemLayer) : (d.setLayer i x).poolBase = d.poolBase := rfl
@[simp] theorem Dev.setLayer_poolCount (i : Nat) (x : MemLayer) : (d.setLayer i x).poolCount = d.poolCount := rfl
@[simp] theorem Dev.setLayer_frame (i : Nat) (x : MemLayer) : (d.setLayer i x).frame = d.frame := rfl
@[simp] theorem Dev.setLayer_lastTick (i : Nat) (x : MemLayer) : (d.setLayer i x).lastTick = d.lastTick := rfl
@[simp] theorem Dev.setLayer_fronds (i : Nat) (x : MemLayer) : (d.setLayer i x).fronds = d.fronds := rfl
@[simp] theorem Dev.setLayer_gemmas (i : Nat) (x : MemLayer) : (d.setLayer i x).gemmas = d.gemmas := rfl
@[simp] theorem Dev.setLayer_arrStatus (i : Nat) (x : MemLayer) : (d.setLayer i x).arrStatus = d.arrStatus := rfl
@[simp] theorem Dev.setLayer_seals (i : Nat) (x : MemLayer) : (d.setLayer i x).seals = d.seals := rfl
@[simp] theorem Dev.setLayer_sealRuns (i : Nat) (x : MemLayer) : (d.setLayer i x).sealRuns = d.sealRuns := rfl
@[simp] theorem Dev.setLayer_sealHeld (i : Nat) (x : MemLayer) : (d.setLayer i x).sealHeld = d.sealHeld := rfl
@[simp] theorem Dev.setLayer_ports (i : Nat) (x : MemLayer) : (d.setLayer i x).ports = d.ports := rfl
@[simp] theorem Dev.setLayer_frm (i : Nat) (x : MemLayer) : (d.setLayer i x).frm = d.frm := rfl
@[simp] theorem Dev.setLayer_pwr (i : Nat) (x : MemLayer) : (d.setLayer i x).pwr = d.pwr := rfl
@[simp] theorem Dev.setLayer_thm (i : Nat) (x : MemLayer) : (d.setLayer i x).thm = d.thm := rfl
@[simp] theorem Dev.setLayer_bup (i : Nat) (x : MemLayer) : (d.setLayer i x).bup = d.bup := rfl
@[simp] theorem Dev.setLayer_sec (i : Nat) (x : MemLayer) : (d.setLayer i x).sec = d.sec := rfl
@[simp] theorem Dev.setLayer_pin (i : Nat) (x : MemLayer) : (d.setLayer i x).pin = d.pin := rfl
@[simp] theorem Dev.setLayer_sweep (i : Nat) (x : MemLayer) : (d.setLayer i x).sweep = d.sweep := rfl
@[simp] theorem Dev.setLayer_halfReset (i : Nat) (x : MemLayer) : (d.setLayer i x).halfReset = d.halfReset := rfl

@[simp] theorem Dev.setRhz_now (f : Nat) (x : Rhz) : (d.setRhz f x).now = d.now := rfl
@[simp] theorem Dev.setRhz_free (f : Nat) (x : Rhz) : (d.setRhz f x).free = d.free := rfl
@[simp] theorem Dev.setRhz_err (f : Nat) (x : Rhz) : (d.setRhz f x).err = d.err := rfl
@[simp] theorem Dev.setRhz_stat (f : Nat) (x : Rhz) : (d.setRhz f x).stat = d.stat := rfl
@[simp] theorem Dev.setRhz_mem (f : Nat) (x : Rhz) : (d.setRhz f x).mem = d.mem := rfl
@[simp] theorem Dev.setRhz_rhz (f : Nat) (x : Rhz) : (d.setRhz f x).rhz = d.rhz.put f x := rfl
@[simp] theorem Dev.setRhz_halves (f : Nat) (x : Rhz) : (d.setRhz f x).halves = d.halves := rfl
@[simp] theorem Dev.setRhz_bridgeFail (f : Nat) (x : Rhz) : (d.setRhz f x).bridgeFail = d.bridgeFail := rfl
@[simp] theorem Dev.setRhz_bridgeOff (f : Nat) (x : Rhz) : (d.setRhz f x).bridgeOff = d.bridgeOff := rfl
@[simp] theorem Dev.setRhz_win (f : Nat) (x : Rhz) : (d.setRhz f x).win = d.win := rfl
@[simp] theorem Dev.setRhz_xfers (f : Nat) (x : Rhz) : (d.setRhz f x).xfers = d.xfers := rfl
@[simp] theorem Dev.setRhz_nextX (f : Nat) (x : Rhz) : (d.setRhz f x).nextX = d.nextX := rfl
@[simp] theorem Dev.setRhz_units (f : Nat) (x : Rhz) : (d.setRhz f x).units = d.units := rfl
@[simp] theorem Dev.setRhz_nextU (f : Nat) (x : Rhz) : (d.setRhz f x).nextU = d.nextU := rfl
@[simp] theorem Dev.setRhz_endedQ (f : Nat) (x : Rhz) : (d.setRhz f x).endedQ = d.endedQ := rfl
@[simp] theorem Dev.setRhz_regs (f : Nat) (x : Rhz) : (d.setRhz f x).regs = d.regs := rfl
@[simp] theorem Dev.setRhz_inForce (f : Nat) (x : Rhz) : (d.setRhz f x).inForce = d.inForce := rfl
@[simp] theorem Dev.setRhz_poolBase (f : Nat) (x : Rhz) : (d.setRhz f x).poolBase = d.poolBase := rfl
@[simp] theorem Dev.setRhz_poolCount (f : Nat) (x : Rhz) : (d.setRhz f x).poolCount = d.poolCount := rfl
@[simp] theorem Dev.setRhz_frame (f : Nat) (x : Rhz) : (d.setRhz f x).frame = d.frame := rfl
@[simp] theorem Dev.setRhz_lastTick (f : Nat) (x : Rhz) : (d.setRhz f x).lastTick = d.lastTick := rfl
@[simp] theorem Dev.setRhz_fronds (f : Nat) (x : Rhz) : (d.setRhz f x).fronds = d.fronds := rfl
@[simp] theorem Dev.setRhz_gemmas (f : Nat) (x : Rhz) : (d.setRhz f x).gemmas = d.gemmas := rfl
@[simp] theorem Dev.setRhz_arrStatus (f : Nat) (x : Rhz) : (d.setRhz f x).arrStatus = d.arrStatus := rfl
@[simp] theorem Dev.setRhz_seals (f : Nat) (x : Rhz) : (d.setRhz f x).seals = d.seals := rfl
@[simp] theorem Dev.setRhz_sealRuns (f : Nat) (x : Rhz) : (d.setRhz f x).sealRuns = d.sealRuns := rfl
@[simp] theorem Dev.setRhz_sealHeld (f : Nat) (x : Rhz) : (d.setRhz f x).sealHeld = d.sealHeld := rfl
@[simp] theorem Dev.setRhz_ports (f : Nat) (x : Rhz) : (d.setRhz f x).ports = d.ports := rfl
@[simp] theorem Dev.setRhz_frm (f : Nat) (x : Rhz) : (d.setRhz f x).frm = d.frm := rfl
@[simp] theorem Dev.setRhz_pwr (f : Nat) (x : Rhz) : (d.setRhz f x).pwr = d.pwr := rfl
@[simp] theorem Dev.setRhz_thm (f : Nat) (x : Rhz) : (d.setRhz f x).thm = d.thm := rfl
@[simp] theorem Dev.setRhz_bup (f : Nat) (x : Rhz) : (d.setRhz f x).bup = d.bup := rfl
@[simp] theorem Dev.setRhz_sec (f : Nat) (x : Rhz) : (d.setRhz f x).sec = d.sec := rfl
@[simp] theorem Dev.setRhz_pin (f : Nat) (x : Rhz) : (d.setRhz f x).pin = d.pin := rfl
@[simp] theorem Dev.setRhz_sweep (f : Nat) (x : Rhz) : (d.setRhz f x).sweep = d.sweep := rfl
@[simp] theorem Dev.setRhz_halfReset (f : Nat) (x : Rhz) : (d.setRhz f x).halfReset = d.halfReset := rfl

@[simp] theorem Dev.setHalf_now (h : Nat) (x : Half) : (d.setHalf h x).now = d.now := rfl
@[simp] theorem Dev.setHalf_free (h : Nat) (x : Half) : (d.setHalf h x).free = d.free := rfl
@[simp] theorem Dev.setHalf_err (h : Nat) (x : Half) : (d.setHalf h x).err = d.err := rfl
@[simp] theorem Dev.setHalf_stat (h : Nat) (x : Half) : (d.setHalf h x).stat = d.stat := rfl
@[simp] theorem Dev.setHalf_mem (h : Nat) (x : Half) : (d.setHalf h x).mem = d.mem := rfl
@[simp] theorem Dev.setHalf_rhz (h : Nat) (x : Half) : (d.setHalf h x).rhz = d.rhz := rfl
@[simp] theorem Dev.setHalf_halves (h : Nat) (x : Half) : (d.setHalf h x).halves = d.halves.put h x := rfl
@[simp] theorem Dev.setHalf_bridgeFail (h : Nat) (x : Half) : (d.setHalf h x).bridgeFail = d.bridgeFail := rfl
@[simp] theorem Dev.setHalf_bridgeOff (h : Nat) (x : Half) : (d.setHalf h x).bridgeOff = d.bridgeOff := rfl
@[simp] theorem Dev.setHalf_win (h : Nat) (x : Half) : (d.setHalf h x).win = d.win := rfl
@[simp] theorem Dev.setHalf_xfers (h : Nat) (x : Half) : (d.setHalf h x).xfers = d.xfers := rfl
@[simp] theorem Dev.setHalf_nextX (h : Nat) (x : Half) : (d.setHalf h x).nextX = d.nextX := rfl
@[simp] theorem Dev.setHalf_units (h : Nat) (x : Half) : (d.setHalf h x).units = d.units := rfl
@[simp] theorem Dev.setHalf_nextU (h : Nat) (x : Half) : (d.setHalf h x).nextU = d.nextU := rfl
@[simp] theorem Dev.setHalf_endedQ (h : Nat) (x : Half) : (d.setHalf h x).endedQ = d.endedQ := rfl
@[simp] theorem Dev.setHalf_regs (h : Nat) (x : Half) : (d.setHalf h x).regs = d.regs := rfl
@[simp] theorem Dev.setHalf_inForce (h : Nat) (x : Half) : (d.setHalf h x).inForce = d.inForce := rfl
@[simp] theorem Dev.setHalf_poolBase (h : Nat) (x : Half) : (d.setHalf h x).poolBase = d.poolBase := rfl
@[simp] theorem Dev.setHalf_poolCount (h : Nat) (x : Half) : (d.setHalf h x).poolCount = d.poolCount := rfl
@[simp] theorem Dev.setHalf_frame (h : Nat) (x : Half) : (d.setHalf h x).frame = d.frame := rfl
@[simp] theorem Dev.setHalf_lastTick (h : Nat) (x : Half) : (d.setHalf h x).lastTick = d.lastTick := rfl
@[simp] theorem Dev.setHalf_fronds (h : Nat) (x : Half) : (d.setHalf h x).fronds = d.fronds := rfl
@[simp] theorem Dev.setHalf_gemmas (h : Nat) (x : Half) : (d.setHalf h x).gemmas = d.gemmas := rfl
@[simp] theorem Dev.setHalf_arrStatus (h : Nat) (x : Half) : (d.setHalf h x).arrStatus = d.arrStatus := rfl
@[simp] theorem Dev.setHalf_seals (h : Nat) (x : Half) : (d.setHalf h x).seals = d.seals := rfl
@[simp] theorem Dev.setHalf_sealRuns (h : Nat) (x : Half) : (d.setHalf h x).sealRuns = d.sealRuns := rfl
@[simp] theorem Dev.setHalf_sealHeld (h : Nat) (x : Half) : (d.setHalf h x).sealHeld = d.sealHeld := rfl
@[simp] theorem Dev.setHalf_ports (h : Nat) (x : Half) : (d.setHalf h x).ports = d.ports := rfl
@[simp] theorem Dev.setHalf_frm (h : Nat) (x : Half) : (d.setHalf h x).frm = d.frm := rfl
@[simp] theorem Dev.setHalf_pwr (h : Nat) (x : Half) : (d.setHalf h x).pwr = d.pwr := rfl
@[simp] theorem Dev.setHalf_thm (h : Nat) (x : Half) : (d.setHalf h x).thm = d.thm := rfl
@[simp] theorem Dev.setHalf_bup (h : Nat) (x : Half) : (d.setHalf h x).bup = d.bup := rfl
@[simp] theorem Dev.setHalf_sec (h : Nat) (x : Half) : (d.setHalf h x).sec = d.sec := rfl
@[simp] theorem Dev.setHalf_pin (h : Nat) (x : Half) : (d.setHalf h x).pin = d.pin := rfl
@[simp] theorem Dev.setHalf_sweep (h : Nat) (x : Half) : (d.setHalf h x).sweep = d.sweep := rfl
@[simp] theorem Dev.setHalf_halfReset (h : Nat) (x : Half) : (d.setHalf h x).halfReset = d.halfReset := rfl

@[simp] theorem Dev.setPort_now (p : Nat) (x : PortS) : (d.setPort p x).now = d.now := rfl
@[simp] theorem Dev.setPort_free (p : Nat) (x : PortS) : (d.setPort p x).free = d.free := rfl
@[simp] theorem Dev.setPort_err (p : Nat) (x : PortS) : (d.setPort p x).err = d.err := rfl
@[simp] theorem Dev.setPort_stat (p : Nat) (x : PortS) : (d.setPort p x).stat = d.stat := rfl
@[simp] theorem Dev.setPort_mem (p : Nat) (x : PortS) : (d.setPort p x).mem = d.mem := rfl
@[simp] theorem Dev.setPort_rhz (p : Nat) (x : PortS) : (d.setPort p x).rhz = d.rhz := rfl
@[simp] theorem Dev.setPort_halves (p : Nat) (x : PortS) : (d.setPort p x).halves = d.halves := rfl
@[simp] theorem Dev.setPort_bridgeFail (p : Nat) (x : PortS) : (d.setPort p x).bridgeFail = d.bridgeFail := rfl
@[simp] theorem Dev.setPort_bridgeOff (p : Nat) (x : PortS) : (d.setPort p x).bridgeOff = d.bridgeOff := rfl
@[simp] theorem Dev.setPort_win (p : Nat) (x : PortS) : (d.setPort p x).win = d.win := rfl
@[simp] theorem Dev.setPort_xfers (p : Nat) (x : PortS) : (d.setPort p x).xfers = d.xfers := rfl
@[simp] theorem Dev.setPort_nextX (p : Nat) (x : PortS) : (d.setPort p x).nextX = d.nextX := rfl
@[simp] theorem Dev.setPort_units (p : Nat) (x : PortS) : (d.setPort p x).units = d.units := rfl
@[simp] theorem Dev.setPort_nextU (p : Nat) (x : PortS) : (d.setPort p x).nextU = d.nextU := rfl
@[simp] theorem Dev.setPort_endedQ (p : Nat) (x : PortS) : (d.setPort p x).endedQ = d.endedQ := rfl
@[simp] theorem Dev.setPort_regs (p : Nat) (x : PortS) : (d.setPort p x).regs = d.regs := rfl
@[simp] theorem Dev.setPort_inForce (p : Nat) (x : PortS) : (d.setPort p x).inForce = d.inForce := rfl
@[simp] theorem Dev.setPort_poolBase (p : Nat) (x : PortS) : (d.setPort p x).poolBase = d.poolBase := rfl
@[simp] theorem Dev.setPort_poolCount (p : Nat) (x : PortS) : (d.setPort p x).poolCount = d.poolCount := rfl
@[simp] theorem Dev.setPort_frame (p : Nat) (x : PortS) : (d.setPort p x).frame = d.frame := rfl
@[simp] theorem Dev.setPort_lastTick (p : Nat) (x : PortS) : (d.setPort p x).lastTick = d.lastTick := rfl
@[simp] theorem Dev.setPort_fronds (p : Nat) (x : PortS) : (d.setPort p x).fronds = d.fronds := rfl
@[simp] theorem Dev.setPort_gemmas (p : Nat) (x : PortS) : (d.setPort p x).gemmas = d.gemmas := rfl
@[simp] theorem Dev.setPort_arrStatus (p : Nat) (x : PortS) : (d.setPort p x).arrStatus = d.arrStatus := rfl
@[simp] theorem Dev.setPort_seals (p : Nat) (x : PortS) : (d.setPort p x).seals = d.seals := rfl
@[simp] theorem Dev.setPort_sealRuns (p : Nat) (x : PortS) : (d.setPort p x).sealRuns = d.sealRuns := rfl
@[simp] theorem Dev.setPort_sealHeld (p : Nat) (x : PortS) : (d.setPort p x).sealHeld = d.sealHeld := rfl
@[simp] theorem Dev.setPort_ports (p : Nat) (x : PortS) : (d.setPort p x).ports = d.ports.put p x := rfl
@[simp] theorem Dev.setPort_frm (p : Nat) (x : PortS) : (d.setPort p x).frm = d.frm := rfl
@[simp] theorem Dev.setPort_pwr (p : Nat) (x : PortS) : (d.setPort p x).pwr = d.pwr := rfl
@[simp] theorem Dev.setPort_thm (p : Nat) (x : PortS) : (d.setPort p x).thm = d.thm := rfl
@[simp] theorem Dev.setPort_bup (p : Nat) (x : PortS) : (d.setPort p x).bup = d.bup := rfl
@[simp] theorem Dev.setPort_sec (p : Nat) (x : PortS) : (d.setPort p x).sec = d.sec := rfl
@[simp] theorem Dev.setPort_pin (p : Nat) (x : PortS) : (d.setPort p x).pin = d.pin := rfl
@[simp] theorem Dev.setPort_sweep (p : Nat) (x : PortS) : (d.setPort p x).sweep = d.sweep := rfl
@[simp] theorem Dev.setPort_halfReset (p : Nat) (x : PortS) : (d.setPort p x).halfReset = d.halfReset := rfl

@[simp] theorem Dev.setReg_now (a : Nat) (w : Word) : (d.setReg a w).now = d.now := rfl
@[simp] theorem Dev.setReg_free (a : Nat) (w : Word) : (d.setReg a w).free = d.free := rfl
@[simp] theorem Dev.setReg_err (a : Nat) (w : Word) : (d.setReg a w).err = d.err := rfl
@[simp] theorem Dev.setReg_stat (a : Nat) (w : Word) : (d.setReg a w).stat = d.stat := rfl
@[simp] theorem Dev.setReg_mem (a : Nat) (w : Word) : (d.setReg a w).mem = d.mem := rfl
@[simp] theorem Dev.setReg_rhz (a : Nat) (w : Word) : (d.setReg a w).rhz = d.rhz := rfl
@[simp] theorem Dev.setReg_halves (a : Nat) (w : Word) : (d.setReg a w).halves = d.halves := rfl
@[simp] theorem Dev.setReg_bridgeFail (a : Nat) (w : Word) : (d.setReg a w).bridgeFail = d.bridgeFail := rfl
@[simp] theorem Dev.setReg_bridgeOff (a : Nat) (w : Word) : (d.setReg a w).bridgeOff = d.bridgeOff := rfl
@[simp] theorem Dev.setReg_win (a : Nat) (w : Word) : (d.setReg a w).win = d.win := rfl
@[simp] theorem Dev.setReg_xfers (a : Nat) (w : Word) : (d.setReg a w).xfers = d.xfers := rfl
@[simp] theorem Dev.setReg_nextX (a : Nat) (w : Word) : (d.setReg a w).nextX = d.nextX := rfl
@[simp] theorem Dev.setReg_units (a : Nat) (w : Word) : (d.setReg a w).units = d.units := rfl
@[simp] theorem Dev.setReg_nextU (a : Nat) (w : Word) : (d.setReg a w).nextU = d.nextU := rfl
@[simp] theorem Dev.setReg_endedQ (a : Nat) (w : Word) : (d.setReg a w).endedQ = d.endedQ := rfl
@[simp] theorem Dev.setReg_regs (a : Nat) (w : Word) : (d.setReg a w).regs = d.regs.put a w := rfl
@[simp] theorem Dev.setReg_inForce (a : Nat) (w : Word) : (d.setReg a w).inForce = d.inForce := rfl
@[simp] theorem Dev.setReg_poolBase (a : Nat) (w : Word) : (d.setReg a w).poolBase = d.poolBase := rfl
@[simp] theorem Dev.setReg_poolCount (a : Nat) (w : Word) : (d.setReg a w).poolCount = d.poolCount := rfl
@[simp] theorem Dev.setReg_frame (a : Nat) (w : Word) : (d.setReg a w).frame = d.frame := rfl
@[simp] theorem Dev.setReg_lastTick (a : Nat) (w : Word) : (d.setReg a w).lastTick = d.lastTick := rfl
@[simp] theorem Dev.setReg_fronds (a : Nat) (w : Word) : (d.setReg a w).fronds = d.fronds := rfl
@[simp] theorem Dev.setReg_gemmas (a : Nat) (w : Word) : (d.setReg a w).gemmas = d.gemmas := rfl
@[simp] theorem Dev.setReg_arrStatus (a : Nat) (w : Word) : (d.setReg a w).arrStatus = d.arrStatus := rfl
@[simp] theorem Dev.setReg_seals (a : Nat) (w : Word) : (d.setReg a w).seals = d.seals := rfl
@[simp] theorem Dev.setReg_sealRuns (a : Nat) (w : Word) : (d.setReg a w).sealRuns = d.sealRuns := rfl
@[simp] theorem Dev.setReg_sealHeld (a : Nat) (w : Word) : (d.setReg a w).sealHeld = d.sealHeld := rfl
@[simp] theorem Dev.setReg_ports (a : Nat) (w : Word) : (d.setReg a w).ports = d.ports := rfl
@[simp] theorem Dev.setReg_frm (a : Nat) (w : Word) : (d.setReg a w).frm = d.frm := rfl
@[simp] theorem Dev.setReg_pwr (a : Nat) (w : Word) : (d.setReg a w).pwr = d.pwr := rfl
@[simp] theorem Dev.setReg_thm (a : Nat) (w : Word) : (d.setReg a w).thm = d.thm := rfl
@[simp] theorem Dev.setReg_bup (a : Nat) (w : Word) : (d.setReg a w).bup = d.bup := rfl
@[simp] theorem Dev.setReg_sec (a : Nat) (w : Word) : (d.setReg a w).sec = d.sec := rfl
@[simp] theorem Dev.setReg_pin (a : Nat) (w : Word) : (d.setReg a w).pin = d.pin := rfl
@[simp] theorem Dev.setReg_sweep (a : Nat) (w : Word) : (d.setReg a w).sweep = d.sweep := rfl
@[simp] theorem Dev.setReg_halfReset (a : Nat) (w : Word) : (d.setReg a w).halfReset = d.halfReset := rfl

@[simp] theorem Dev.putSeal_now (p : Nat) (x : Seal) : (d.putSeal p x).now = d.now := rfl
@[simp] theorem Dev.putSeal_free (p : Nat) (x : Seal) : (d.putSeal p x).free = d.free := rfl
@[simp] theorem Dev.putSeal_err (p : Nat) (x : Seal) : (d.putSeal p x).err = d.err := rfl
@[simp] theorem Dev.putSeal_stat (p : Nat) (x : Seal) : (d.putSeal p x).stat = d.stat := rfl
@[simp] theorem Dev.putSeal_mem (p : Nat) (x : Seal) : (d.putSeal p x).mem = d.mem := rfl
@[simp] theorem Dev.putSeal_rhz (p : Nat) (x : Seal) : (d.putSeal p x).rhz = d.rhz := rfl
@[simp] theorem Dev.putSeal_halves (p : Nat) (x : Seal) : (d.putSeal p x).halves = d.halves := rfl
@[simp] theorem Dev.putSeal_bridgeFail (p : Nat) (x : Seal) : (d.putSeal p x).bridgeFail = d.bridgeFail := rfl
@[simp] theorem Dev.putSeal_bridgeOff (p : Nat) (x : Seal) : (d.putSeal p x).bridgeOff = d.bridgeOff := rfl
@[simp] theorem Dev.putSeal_win (p : Nat) (x : Seal) : (d.putSeal p x).win = d.win := rfl
@[simp] theorem Dev.putSeal_xfers (p : Nat) (x : Seal) : (d.putSeal p x).xfers = d.xfers := rfl
@[simp] theorem Dev.putSeal_nextX (p : Nat) (x : Seal) : (d.putSeal p x).nextX = d.nextX := rfl
@[simp] theorem Dev.putSeal_units (p : Nat) (x : Seal) : (d.putSeal p x).units = d.units := rfl
@[simp] theorem Dev.putSeal_nextU (p : Nat) (x : Seal) : (d.putSeal p x).nextU = d.nextU := rfl
@[simp] theorem Dev.putSeal_endedQ (p : Nat) (x : Seal) : (d.putSeal p x).endedQ = d.endedQ := rfl
@[simp] theorem Dev.putSeal_regs (p : Nat) (x : Seal) : (d.putSeal p x).regs = d.regs := rfl
@[simp] theorem Dev.putSeal_inForce (p : Nat) (x : Seal) : (d.putSeal p x).inForce = d.inForce := rfl
@[simp] theorem Dev.putSeal_poolBase (p : Nat) (x : Seal) : (d.putSeal p x).poolBase = d.poolBase := rfl
@[simp] theorem Dev.putSeal_poolCount (p : Nat) (x : Seal) : (d.putSeal p x).poolCount = d.poolCount := rfl
@[simp] theorem Dev.putSeal_frame (p : Nat) (x : Seal) : (d.putSeal p x).frame = d.frame := rfl
@[simp] theorem Dev.putSeal_lastTick (p : Nat) (x : Seal) : (d.putSeal p x).lastTick = d.lastTick := rfl
@[simp] theorem Dev.putSeal_fronds (p : Nat) (x : Seal) : (d.putSeal p x).fronds = d.fronds := rfl
@[simp] theorem Dev.putSeal_gemmas (p : Nat) (x : Seal) : (d.putSeal p x).gemmas = d.gemmas := rfl
@[simp] theorem Dev.putSeal_arrStatus (p : Nat) (x : Seal) : (d.putSeal p x).arrStatus = d.arrStatus := rfl
@[simp] theorem Dev.putSeal_seals (p : Nat) (x : Seal) : (d.putSeal p x).seals = d.seals.put p x := rfl
@[simp] theorem Dev.putSeal_sealRuns (p : Nat) (x : Seal) : (d.putSeal p x).sealRuns = d.sealRuns := rfl
@[simp] theorem Dev.putSeal_sealHeld (p : Nat) (x : Seal) : (d.putSeal p x).sealHeld = d.sealHeld := rfl
@[simp] theorem Dev.putSeal_ports (p : Nat) (x : Seal) : (d.putSeal p x).ports = d.ports := rfl
@[simp] theorem Dev.putSeal_frm (p : Nat) (x : Seal) : (d.putSeal p x).frm = d.frm := rfl
@[simp] theorem Dev.putSeal_pwr (p : Nat) (x : Seal) : (d.putSeal p x).pwr = d.pwr := rfl
@[simp] theorem Dev.putSeal_thm (p : Nat) (x : Seal) : (d.putSeal p x).thm = d.thm := rfl
@[simp] theorem Dev.putSeal_bup (p : Nat) (x : Seal) : (d.putSeal p x).bup = d.bup := rfl
@[simp] theorem Dev.putSeal_sec (p : Nat) (x : Seal) : (d.putSeal p x).sec = d.sec := rfl
@[simp] theorem Dev.putSeal_pin (p : Nat) (x : Seal) : (d.putSeal p x).pin = d.pin := rfl
@[simp] theorem Dev.putSeal_sweep (p : Nat) (x : Seal) : (d.putSeal p x).sweep = d.sweep := rfl
@[simp] theorem Dev.putSeal_halfReset (p : Nat) (x : Seal) : (d.putSeal p x).halfReset = d.halfReset := rfl

@[simp] theorem Dev.dropSeal_now (p : Nat) : (d.dropSeal p).now = d.now := rfl
@[simp] theorem Dev.dropSeal_free (p : Nat) : (d.dropSeal p).free = d.free := rfl
@[simp] theorem Dev.dropSeal_err (p : Nat) : (d.dropSeal p).err = d.err := rfl
@[simp] theorem Dev.dropSeal_stat (p : Nat) : (d.dropSeal p).stat = d.stat := rfl
@[simp] theorem Dev.dropSeal_mem (p : Nat) : (d.dropSeal p).mem = d.mem := rfl
@[simp] theorem Dev.dropSeal_rhz (p : Nat) : (d.dropSeal p).rhz = d.rhz := rfl
@[simp] theorem Dev.dropSeal_halves (p : Nat) : (d.dropSeal p).halves = d.halves := rfl
@[simp] theorem Dev.dropSeal_bridgeFail (p : Nat) : (d.dropSeal p).bridgeFail = d.bridgeFail := rfl
@[simp] theorem Dev.dropSeal_bridgeOff (p : Nat) : (d.dropSeal p).bridgeOff = d.bridgeOff := rfl
@[simp] theorem Dev.dropSeal_win (p : Nat) : (d.dropSeal p).win = d.win := rfl
@[simp] theorem Dev.dropSeal_xfers (p : Nat) : (d.dropSeal p).xfers = d.xfers := rfl
@[simp] theorem Dev.dropSeal_nextX (p : Nat) : (d.dropSeal p).nextX = d.nextX := rfl
@[simp] theorem Dev.dropSeal_units (p : Nat) : (d.dropSeal p).units = d.units := rfl
@[simp] theorem Dev.dropSeal_nextU (p : Nat) : (d.dropSeal p).nextU = d.nextU := rfl
@[simp] theorem Dev.dropSeal_endedQ (p : Nat) : (d.dropSeal p).endedQ = d.endedQ := rfl
@[simp] theorem Dev.dropSeal_regs (p : Nat) : (d.dropSeal p).regs = d.regs := rfl
@[simp] theorem Dev.dropSeal_inForce (p : Nat) : (d.dropSeal p).inForce = d.inForce := rfl
@[simp] theorem Dev.dropSeal_poolBase (p : Nat) : (d.dropSeal p).poolBase = d.poolBase := rfl
@[simp] theorem Dev.dropSeal_poolCount (p : Nat) : (d.dropSeal p).poolCount = d.poolCount := rfl
@[simp] theorem Dev.dropSeal_frame (p : Nat) : (d.dropSeal p).frame = d.frame := rfl
@[simp] theorem Dev.dropSeal_lastTick (p : Nat) : (d.dropSeal p).lastTick = d.lastTick := rfl
@[simp] theorem Dev.dropSeal_fronds (p : Nat) : (d.dropSeal p).fronds = d.fronds := rfl
@[simp] theorem Dev.dropSeal_gemmas (p : Nat) : (d.dropSeal p).gemmas = d.gemmas := rfl
@[simp] theorem Dev.dropSeal_arrStatus (p : Nat) : (d.dropSeal p).arrStatus = d.arrStatus := rfl
@[simp] theorem Dev.dropSeal_seals (p : Nat) : (d.dropSeal p).seals = d.seals.drop p := rfl
@[simp] theorem Dev.dropSeal_sealRuns (p : Nat) : (d.dropSeal p).sealRuns = d.sealRuns := rfl
@[simp] theorem Dev.dropSeal_sealHeld (p : Nat) : (d.dropSeal p).sealHeld = d.sealHeld := rfl
@[simp] theorem Dev.dropSeal_ports (p : Nat) : (d.dropSeal p).ports = d.ports := rfl
@[simp] theorem Dev.dropSeal_frm (p : Nat) : (d.dropSeal p).frm = d.frm := rfl
@[simp] theorem Dev.dropSeal_pwr (p : Nat) : (d.dropSeal p).pwr = d.pwr := rfl
@[simp] theorem Dev.dropSeal_thm (p : Nat) : (d.dropSeal p).thm = d.thm := rfl
@[simp] theorem Dev.dropSeal_bup (p : Nat) : (d.dropSeal p).bup = d.bup := rfl
@[simp] theorem Dev.dropSeal_sec (p : Nat) : (d.dropSeal p).sec = d.sec := rfl
@[simp] theorem Dev.dropSeal_pin (p : Nat) : (d.dropSeal p).pin = d.pin := rfl
@[simp] theorem Dev.dropSeal_sweep (p : Nat) : (d.dropSeal p).sweep = d.sweep := rfl
@[simp] theorem Dev.dropSeal_halfReset (p : Nat) : (d.dropSeal p).halfReset = d.halfReset := rfl

@[simp] theorem Dev.modUnit_now (k : Nat) (f : WUnit → WUnit) : (d.modUnit k f).now = d.now := rfl
@[simp] theorem Dev.modUnit_free (k : Nat) (f : WUnit → WUnit) : (d.modUnit k f).free = d.free := rfl
@[simp] theorem Dev.modUnit_err (k : Nat) (f : WUnit → WUnit) : (d.modUnit k f).err = d.err := rfl
@[simp] theorem Dev.modUnit_stat (k : Nat) (f : WUnit → WUnit) : (d.modUnit k f).stat = d.stat := rfl
@[simp] theorem Dev.modUnit_mem (k : Nat) (f : WUnit → WUnit) : (d.modUnit k f).mem = d.mem := rfl
@[simp] theorem Dev.modUnit_rhz (k : Nat) (f : WUnit → WUnit) : (d.modUnit k f).rhz = d.rhz := rfl
@[simp] theorem Dev.modUnit_halves (k : Nat) (f : WUnit → WUnit) : (d.modUnit k f).halves = d.halves := rfl
@[simp] theorem Dev.modUnit_bridgeFail (k : Nat) (f : WUnit → WUnit) : (d.modUnit k f).bridgeFail = d.bridgeFail := rfl
@[simp] theorem Dev.modUnit_bridgeOff (k : Nat) (f : WUnit → WUnit) : (d.modUnit k f).bridgeOff = d.bridgeOff := rfl
@[simp] theorem Dev.modUnit_win (k : Nat) (f : WUnit → WUnit) : (d.modUnit k f).win = d.win := rfl
@[simp] theorem Dev.modUnit_xfers (k : Nat) (f : WUnit → WUnit) : (d.modUnit k f).xfers = d.xfers := rfl
@[simp] theorem Dev.modUnit_nextX (k : Nat) (f : WUnit → WUnit) : (d.modUnit k f).nextX = d.nextX := rfl
@[simp] theorem Dev.modUnit_units (k : Nat) (f : WUnit → WUnit) : (d.modUnit k f).units = d.units.map (fun u => if u.key == k then f u else u) := rfl
@[simp] theorem Dev.modUnit_nextU (k : Nat) (f : WUnit → WUnit) : (d.modUnit k f).nextU = d.nextU := rfl
@[simp] theorem Dev.modUnit_endedQ (k : Nat) (f : WUnit → WUnit) : (d.modUnit k f).endedQ = d.endedQ := rfl
@[simp] theorem Dev.modUnit_regs (k : Nat) (f : WUnit → WUnit) : (d.modUnit k f).regs = d.regs := rfl
@[simp] theorem Dev.modUnit_inForce (k : Nat) (f : WUnit → WUnit) : (d.modUnit k f).inForce = d.inForce := rfl
@[simp] theorem Dev.modUnit_poolBase (k : Nat) (f : WUnit → WUnit) : (d.modUnit k f).poolBase = d.poolBase := rfl
@[simp] theorem Dev.modUnit_poolCount (k : Nat) (f : WUnit → WUnit) : (d.modUnit k f).poolCount = d.poolCount := rfl
@[simp] theorem Dev.modUnit_frame (k : Nat) (f : WUnit → WUnit) : (d.modUnit k f).frame = d.frame := rfl
@[simp] theorem Dev.modUnit_lastTick (k : Nat) (f : WUnit → WUnit) : (d.modUnit k f).lastTick = d.lastTick := rfl
@[simp] theorem Dev.modUnit_fronds (k : Nat) (f : WUnit → WUnit) : (d.modUnit k f).fronds = d.fronds := rfl
@[simp] theorem Dev.modUnit_gemmas (k : Nat) (f : WUnit → WUnit) : (d.modUnit k f).gemmas = d.gemmas := rfl
@[simp] theorem Dev.modUnit_arrStatus (k : Nat) (f : WUnit → WUnit) : (d.modUnit k f).arrStatus = d.arrStatus := rfl
@[simp] theorem Dev.modUnit_seals (k : Nat) (f : WUnit → WUnit) : (d.modUnit k f).seals = d.seals := rfl
@[simp] theorem Dev.modUnit_sealRuns (k : Nat) (f : WUnit → WUnit) : (d.modUnit k f).sealRuns = d.sealRuns := rfl
@[simp] theorem Dev.modUnit_sealHeld (k : Nat) (f : WUnit → WUnit) : (d.modUnit k f).sealHeld = d.sealHeld := rfl
@[simp] theorem Dev.modUnit_ports (k : Nat) (f : WUnit → WUnit) : (d.modUnit k f).ports = d.ports := rfl
@[simp] theorem Dev.modUnit_frm (k : Nat) (f : WUnit → WUnit) : (d.modUnit k f).frm = d.frm := rfl
@[simp] theorem Dev.modUnit_pwr (k : Nat) (f : WUnit → WUnit) : (d.modUnit k f).pwr = d.pwr := rfl
@[simp] theorem Dev.modUnit_thm (k : Nat) (f : WUnit → WUnit) : (d.modUnit k f).thm = d.thm := rfl
@[simp] theorem Dev.modUnit_bup (k : Nat) (f : WUnit → WUnit) : (d.modUnit k f).bup = d.bup := rfl
@[simp] theorem Dev.modUnit_sec (k : Nat) (f : WUnit → WUnit) : (d.modUnit k f).sec = d.sec := rfl
@[simp] theorem Dev.modUnit_pin (k : Nat) (f : WUnit → WUnit) : (d.modUnit k f).pin = d.pin := rfl
@[simp] theorem Dev.modUnit_sweep (k : Nat) (f : WUnit → WUnit) : (d.modUnit k f).sweep = d.sweep := rfl
@[simp] theorem Dev.modUnit_halfReset (k : Nat) (f : WUnit → WUnit) : (d.modUnit k f).halfReset = d.halfReset := rfl

@[simp] theorem Dev.modXfer_now (k : Nat) (f : Xfer → Xfer) : (d.modXfer k f).now = d.now := rfl
@[simp] theorem Dev.modXfer_free (k : Nat) (f : Xfer → Xfer) : (d.modXfer k f).free = d.free := rfl
@[simp] theorem Dev.modXfer_err (k : Nat) (f : Xfer → Xfer) : (d.modXfer k f).err = d.err := rfl
@[simp] theorem Dev.modXfer_stat (k : Nat) (f : Xfer → Xfer) : (d.modXfer k f).stat = d.stat := rfl
@[simp] theorem Dev.modXfer_mem (k : Nat) (f : Xfer → Xfer) : (d.modXfer k f).mem = d.mem := rfl
@[simp] theorem Dev.modXfer_rhz (k : Nat) (f : Xfer → Xfer) : (d.modXfer k f).rhz = d.rhz := rfl
@[simp] theorem Dev.modXfer_halves (k : Nat) (f : Xfer → Xfer) : (d.modXfer k f).halves = d.halves := rfl
@[simp] theorem Dev.modXfer_bridgeFail (k : Nat) (f : Xfer → Xfer) : (d.modXfer k f).bridgeFail = d.bridgeFail := rfl
@[simp] theorem Dev.modXfer_bridgeOff (k : Nat) (f : Xfer → Xfer) : (d.modXfer k f).bridgeOff = d.bridgeOff := rfl
@[simp] theorem Dev.modXfer_win (k : Nat) (f : Xfer → Xfer) : (d.modXfer k f).win = d.win := rfl
@[simp] theorem Dev.modXfer_xfers (k : Nat) (f : Xfer → Xfer) : (d.modXfer k f).xfers = d.xfers.map (fun e => if e.id == k then f e else e) := rfl
@[simp] theorem Dev.modXfer_nextX (k : Nat) (f : Xfer → Xfer) : (d.modXfer k f).nextX = d.nextX := rfl
@[simp] theorem Dev.modXfer_units (k : Nat) (f : Xfer → Xfer) : (d.modXfer k f).units = d.units := rfl
@[simp] theorem Dev.modXfer_nextU (k : Nat) (f : Xfer → Xfer) : (d.modXfer k f).nextU = d.nextU := rfl
@[simp] theorem Dev.modXfer_endedQ (k : Nat) (f : Xfer → Xfer) : (d.modXfer k f).endedQ = d.endedQ := rfl
@[simp] theorem Dev.modXfer_regs (k : Nat) (f : Xfer → Xfer) : (d.modXfer k f).regs = d.regs := rfl
@[simp] theorem Dev.modXfer_inForce (k : Nat) (f : Xfer → Xfer) : (d.modXfer k f).inForce = d.inForce := rfl
@[simp] theorem Dev.modXfer_poolBase (k : Nat) (f : Xfer → Xfer) : (d.modXfer k f).poolBase = d.poolBase := rfl
@[simp] theorem Dev.modXfer_poolCount (k : Nat) (f : Xfer → Xfer) : (d.modXfer k f).poolCount = d.poolCount := rfl
@[simp] theorem Dev.modXfer_frame (k : Nat) (f : Xfer → Xfer) : (d.modXfer k f).frame = d.frame := rfl
@[simp] theorem Dev.modXfer_lastTick (k : Nat) (f : Xfer → Xfer) : (d.modXfer k f).lastTick = d.lastTick := rfl
@[simp] theorem Dev.modXfer_fronds (k : Nat) (f : Xfer → Xfer) : (d.modXfer k f).fronds = d.fronds := rfl
@[simp] theorem Dev.modXfer_gemmas (k : Nat) (f : Xfer → Xfer) : (d.modXfer k f).gemmas = d.gemmas := rfl
@[simp] theorem Dev.modXfer_arrStatus (k : Nat) (f : Xfer → Xfer) : (d.modXfer k f).arrStatus = d.arrStatus := rfl
@[simp] theorem Dev.modXfer_seals (k : Nat) (f : Xfer → Xfer) : (d.modXfer k f).seals = d.seals := rfl
@[simp] theorem Dev.modXfer_sealRuns (k : Nat) (f : Xfer → Xfer) : (d.modXfer k f).sealRuns = d.sealRuns := rfl
@[simp] theorem Dev.modXfer_sealHeld (k : Nat) (f : Xfer → Xfer) : (d.modXfer k f).sealHeld = d.sealHeld := rfl
@[simp] theorem Dev.modXfer_ports (k : Nat) (f : Xfer → Xfer) : (d.modXfer k f).ports = d.ports := rfl
@[simp] theorem Dev.modXfer_frm (k : Nat) (f : Xfer → Xfer) : (d.modXfer k f).frm = d.frm := rfl
@[simp] theorem Dev.modXfer_pwr (k : Nat) (f : Xfer → Xfer) : (d.modXfer k f).pwr = d.pwr := rfl
@[simp] theorem Dev.modXfer_thm (k : Nat) (f : Xfer → Xfer) : (d.modXfer k f).thm = d.thm := rfl
@[simp] theorem Dev.modXfer_bup (k : Nat) (f : Xfer → Xfer) : (d.modXfer k f).bup = d.bup := rfl
@[simp] theorem Dev.modXfer_sec (k : Nat) (f : Xfer → Xfer) : (d.modXfer k f).sec = d.sec := rfl
@[simp] theorem Dev.modXfer_pin (k : Nat) (f : Xfer → Xfer) : (d.modXfer k f).pin = d.pin := rfl
@[simp] theorem Dev.modXfer_sweep (k : Nat) (f : Xfer → Xfer) : (d.modXfer k f).sweep = d.sweep := rfl
@[simp] theorem Dev.modXfer_halfReset (k : Nat) (f : Xfer → Xfer) : (d.modXfer k f).halfReset = d.halfReset := rfl

@[simp] theorem Dev.endXfer_now (k : Nat) : (d.endXfer k).now = d.now := rfl
@[simp] theorem Dev.endXfer_free (k : Nat) : (d.endXfer k).free = d.free := rfl
@[simp] theorem Dev.endXfer_err (k : Nat) : (d.endXfer k).err = d.err := rfl
@[simp] theorem Dev.endXfer_stat (k : Nat) : (d.endXfer k).stat = d.stat := rfl
@[simp] theorem Dev.endXfer_mem (k : Nat) : (d.endXfer k).mem = d.mem := rfl
@[simp] theorem Dev.endXfer_rhz (k : Nat) : (d.endXfer k).rhz = d.rhz := rfl
@[simp] theorem Dev.endXfer_halves (k : Nat) : (d.endXfer k).halves = d.halves := rfl
@[simp] theorem Dev.endXfer_bridgeFail (k : Nat) : (d.endXfer k).bridgeFail = d.bridgeFail := rfl
@[simp] theorem Dev.endXfer_bridgeOff (k : Nat) : (d.endXfer k).bridgeOff = d.bridgeOff := rfl
@[simp] theorem Dev.endXfer_win (k : Nat) : (d.endXfer k).win = d.win := rfl
@[simp] theorem Dev.endXfer_xfers (k : Nat) : (d.endXfer k).xfers = d.xfers.filter (fun e => e.id != k) := rfl
@[simp] theorem Dev.endXfer_nextX (k : Nat) : (d.endXfer k).nextX = d.nextX := rfl
@[simp] theorem Dev.endXfer_units (k : Nat) : (d.endXfer k).units = d.units := rfl
@[simp] theorem Dev.endXfer_nextU (k : Nat) : (d.endXfer k).nextU = d.nextU := rfl
@[simp] theorem Dev.endXfer_endedQ (k : Nat) : (d.endXfer k).endedQ = d.endedQ := rfl
@[simp] theorem Dev.endXfer_regs (k : Nat) : (d.endXfer k).regs = d.regs := rfl
@[simp] theorem Dev.endXfer_inForce (k : Nat) : (d.endXfer k).inForce = d.inForce := rfl
@[simp] theorem Dev.endXfer_poolBase (k : Nat) : (d.endXfer k).poolBase = d.poolBase := rfl
@[simp] theorem Dev.endXfer_poolCount (k : Nat) : (d.endXfer k).poolCount = d.poolCount := rfl
@[simp] theorem Dev.endXfer_frame (k : Nat) : (d.endXfer k).frame = d.frame := rfl
@[simp] theorem Dev.endXfer_lastTick (k : Nat) : (d.endXfer k).lastTick = d.lastTick := rfl
@[simp] theorem Dev.endXfer_fronds (k : Nat) : (d.endXfer k).fronds = d.fronds := rfl
@[simp] theorem Dev.endXfer_gemmas (k : Nat) : (d.endXfer k).gemmas = d.gemmas := rfl
@[simp] theorem Dev.endXfer_arrStatus (k : Nat) : (d.endXfer k).arrStatus = d.arrStatus := rfl
@[simp] theorem Dev.endXfer_seals (k : Nat) : (d.endXfer k).seals = d.seals := rfl
@[simp] theorem Dev.endXfer_sealRuns (k : Nat) : (d.endXfer k).sealRuns = d.sealRuns := rfl
@[simp] theorem Dev.endXfer_sealHeld (k : Nat) : (d.endXfer k).sealHeld = d.sealHeld := rfl
@[simp] theorem Dev.endXfer_ports (k : Nat) : (d.endXfer k).ports = d.ports := rfl
@[simp] theorem Dev.endXfer_frm (k : Nat) : (d.endXfer k).frm = d.frm := rfl
@[simp] theorem Dev.endXfer_pwr (k : Nat) : (d.endXfer k).pwr = d.pwr := rfl
@[simp] theorem Dev.endXfer_thm (k : Nat) : (d.endXfer k).thm = d.thm := rfl
@[simp] theorem Dev.endXfer_bup (k : Nat) : (d.endXfer k).bup = d.bup := rfl
@[simp] theorem Dev.endXfer_sec (k : Nat) : (d.endXfer k).sec = d.sec := rfl
@[simp] theorem Dev.endXfer_pin (k : Nat) : (d.endXfer k).pin = d.pin := rfl
@[simp] theorem Dev.endXfer_sweep (k : Nat) : (d.endXfer k).sweep = d.sweep := rfl
@[simp] theorem Dev.endXfer_halfReset (k : Nat) : (d.endXfer k).halfReset = d.halfReset := rfl

@[simp] theorem Dev.modDom_now (i : Nat) (f : Dom → Dom) : (d.modDom i f).now = d.now := rfl
@[simp] theorem Dev.modDom_free (i : Nat) (f : Dom → Dom) : (d.modDom i f).free = d.free := rfl
@[simp] theorem Dev.modDom_err (i : Nat) (f : Dom → Dom) : (d.modDom i f).err = d.err := rfl
@[simp] theorem Dev.modDom_stat (i : Nat) (f : Dom → Dom) : (d.modDom i f).stat = d.stat := rfl
@[simp] theorem Dev.modDom_mem (i : Nat) (f : Dom → Dom) : (d.modDom i f).mem = d.mem := rfl
@[simp] theorem Dev.modDom_rhz (i : Nat) (f : Dom → Dom) : (d.modDom i f).rhz = d.rhz := rfl
@[simp] theorem Dev.modDom_halves (i : Nat) (f : Dom → Dom) : (d.modDom i f).halves = d.halves := rfl
@[simp] theorem Dev.modDom_bridgeFail (i : Nat) (f : Dom → Dom) : (d.modDom i f).bridgeFail = d.bridgeFail := rfl
@[simp] theorem Dev.modDom_bridgeOff (i : Nat) (f : Dom → Dom) : (d.modDom i f).bridgeOff = d.bridgeOff := rfl
@[simp] theorem Dev.modDom_win (i : Nat) (f : Dom → Dom) : (d.modDom i f).win = d.win := rfl
@[simp] theorem Dev.modDom_xfers (i : Nat) (f : Dom → Dom) : (d.modDom i f).xfers = d.xfers := rfl
@[simp] theorem Dev.modDom_nextX (i : Nat) (f : Dom → Dom) : (d.modDom i f).nextX = d.nextX := rfl
@[simp] theorem Dev.modDom_units (i : Nat) (f : Dom → Dom) : (d.modDom i f).units = d.units := rfl
@[simp] theorem Dev.modDom_nextU (i : Nat) (f : Dom → Dom) : (d.modDom i f).nextU = d.nextU := rfl
@[simp] theorem Dev.modDom_endedQ (i : Nat) (f : Dom → Dom) : (d.modDom i f).endedQ = d.endedQ := rfl
@[simp] theorem Dev.modDom_regs (i : Nat) (f : Dom → Dom) : (d.modDom i f).regs = d.regs := rfl
@[simp] theorem Dev.modDom_inForce (i : Nat) (f : Dom → Dom) : (d.modDom i f).inForce = d.inForce := rfl
@[simp] theorem Dev.modDom_poolBase (i : Nat) (f : Dom → Dom) : (d.modDom i f).poolBase = d.poolBase := rfl
@[simp] theorem Dev.modDom_poolCount (i : Nat) (f : Dom → Dom) : (d.modDom i f).poolCount = d.poolCount := rfl
@[simp] theorem Dev.modDom_frame (i : Nat) (f : Dom → Dom) : (d.modDom i f).frame = d.frame := rfl
@[simp] theorem Dev.modDom_lastTick (i : Nat) (f : Dom → Dom) : (d.modDom i f).lastTick = d.lastTick := rfl
@[simp] theorem Dev.modDom_fronds (i : Nat) (f : Dom → Dom) : (d.modDom i f).fronds = d.fronds := rfl
@[simp] theorem Dev.modDom_gemmas (i : Nat) (f : Dom → Dom) : (d.modDom i f).gemmas = d.gemmas := rfl
@[simp] theorem Dev.modDom_arrStatus (i : Nat) (f : Dom → Dom) : (d.modDom i f).arrStatus = d.arrStatus := rfl
@[simp] theorem Dev.modDom_seals (i : Nat) (f : Dom → Dom) : (d.modDom i f).seals = d.seals := rfl
@[simp] theorem Dev.modDom_sealRuns (i : Nat) (f : Dom → Dom) : (d.modDom i f).sealRuns = d.sealRuns := rfl
@[simp] theorem Dev.modDom_sealHeld (i : Nat) (f : Dom → Dom) : (d.modDom i f).sealHeld = d.sealHeld := rfl
@[simp] theorem Dev.modDom_ports (i : Nat) (f : Dom → Dom) : (d.modDom i f).ports = d.ports := rfl
@[simp] theorem Dev.modDom_frm (i : Nat) (f : Dom → Dom) : (d.modDom i f).frm = d.frm := rfl
@[simp] theorem Dev.modDom_pwr (i : Nat) (f : Dom → Dom) : (d.modDom i f).pwr = { d.pwr with dom := d.pwr.dom.put i (f (d.dom i)) } := rfl
@[simp] theorem Dev.modDom_thm (i : Nat) (f : Dom → Dom) : (d.modDom i f).thm = d.thm := rfl
@[simp] theorem Dev.modDom_bup (i : Nat) (f : Dom → Dom) : (d.modDom i f).bup = d.bup := rfl
@[simp] theorem Dev.modDom_sec (i : Nat) (f : Dom → Dom) : (d.modDom i f).sec = d.sec := rfl
@[simp] theorem Dev.modDom_pin (i : Nat) (f : Dom → Dom) : (d.modDom i f).pin = d.pin := rfl
@[simp] theorem Dev.modDom_sweep (i : Nat) (f : Dom → Dom) : (d.modDom i f).sweep = d.sweep := rfl
@[simp] theorem Dev.modDom_halfReset (i : Nat) (f : Dom → Dom) : (d.modDom i f).halfReset = d.halfReset := rfl

@[simp] theorem Dev.setThm_now (f : ThermS → ThermS) : (d.setThm f).now = d.now := rfl
@[simp] theorem Dev.setThm_free (f : ThermS → ThermS) : (d.setThm f).free = d.free := rfl
@[simp] theorem Dev.setThm_err (f : ThermS → ThermS) : (d.setThm f).err = d.err := rfl
@[simp] theorem Dev.setThm_stat (f : ThermS → ThermS) : (d.setThm f).stat = d.stat := rfl
@[simp] theorem Dev.setThm_mem (f : ThermS → ThermS) : (d.setThm f).mem = d.mem := rfl
@[simp] theorem Dev.setThm_rhz (f : ThermS → ThermS) : (d.setThm f).rhz = d.rhz := rfl
@[simp] theorem Dev.setThm_halves (f : ThermS → ThermS) : (d.setThm f).halves = d.halves := rfl
@[simp] theorem Dev.setThm_bridgeFail (f : ThermS → ThermS) : (d.setThm f).bridgeFail = d.bridgeFail := rfl
@[simp] theorem Dev.setThm_bridgeOff (f : ThermS → ThermS) : (d.setThm f).bridgeOff = d.bridgeOff := rfl
@[simp] theorem Dev.setThm_win (f : ThermS → ThermS) : (d.setThm f).win = d.win := rfl
@[simp] theorem Dev.setThm_xfers (f : ThermS → ThermS) : (d.setThm f).xfers = d.xfers := rfl
@[simp] theorem Dev.setThm_nextX (f : ThermS → ThermS) : (d.setThm f).nextX = d.nextX := rfl
@[simp] theorem Dev.setThm_units (f : ThermS → ThermS) : (d.setThm f).units = d.units := rfl
@[simp] theorem Dev.setThm_nextU (f : ThermS → ThermS) : (d.setThm f).nextU = d.nextU := rfl
@[simp] theorem Dev.setThm_endedQ (f : ThermS → ThermS) : (d.setThm f).endedQ = d.endedQ := rfl
@[simp] theorem Dev.setThm_regs (f : ThermS → ThermS) : (d.setThm f).regs = d.regs := rfl
@[simp] theorem Dev.setThm_inForce (f : ThermS → ThermS) : (d.setThm f).inForce = d.inForce := rfl
@[simp] theorem Dev.setThm_poolBase (f : ThermS → ThermS) : (d.setThm f).poolBase = d.poolBase := rfl
@[simp] theorem Dev.setThm_poolCount (f : ThermS → ThermS) : (d.setThm f).poolCount = d.poolCount := rfl
@[simp] theorem Dev.setThm_frame (f : ThermS → ThermS) : (d.setThm f).frame = d.frame := rfl
@[simp] theorem Dev.setThm_lastTick (f : ThermS → ThermS) : (d.setThm f).lastTick = d.lastTick := rfl
@[simp] theorem Dev.setThm_fronds (f : ThermS → ThermS) : (d.setThm f).fronds = d.fronds := rfl
@[simp] theorem Dev.setThm_gemmas (f : ThermS → ThermS) : (d.setThm f).gemmas = d.gemmas := rfl
@[simp] theorem Dev.setThm_arrStatus (f : ThermS → ThermS) : (d.setThm f).arrStatus = d.arrStatus := rfl
@[simp] theorem Dev.setThm_seals (f : ThermS → ThermS) : (d.setThm f).seals = d.seals := rfl
@[simp] theorem Dev.setThm_sealRuns (f : ThermS → ThermS) : (d.setThm f).sealRuns = d.sealRuns := rfl
@[simp] theorem Dev.setThm_sealHeld (f : ThermS → ThermS) : (d.setThm f).sealHeld = d.sealHeld := rfl
@[simp] theorem Dev.setThm_ports (f : ThermS → ThermS) : (d.setThm f).ports = d.ports := rfl
@[simp] theorem Dev.setThm_frm (f : ThermS → ThermS) : (d.setThm f).frm = d.frm := rfl
@[simp] theorem Dev.setThm_pwr (f : ThermS → ThermS) : (d.setThm f).pwr = d.pwr := rfl
@[simp] theorem Dev.setThm_thm (f : ThermS → ThermS) : (d.setThm f).thm = f d.thm := rfl
@[simp] theorem Dev.setThm_bup (f : ThermS → ThermS) : (d.setThm f).bup = d.bup := rfl
@[simp] theorem Dev.setThm_sec (f : ThermS → ThermS) : (d.setThm f).sec = d.sec := rfl
@[simp] theorem Dev.setThm_pin (f : ThermS → ThermS) : (d.setThm f).pin = d.pin := rfl
@[simp] theorem Dev.setThm_sweep (f : ThermS → ThermS) : (d.setThm f).sweep = d.sweep := rfl
@[simp] theorem Dev.setThm_halfReset (f : ThermS → ThermS) : (d.setThm f).halfReset = d.halfReset := rfl

@[simp] theorem Dev.setPin_now (f : PinS → PinS) : (d.setPin f).now = d.now := rfl
@[simp] theorem Dev.setPin_free (f : PinS → PinS) : (d.setPin f).free = d.free := rfl
@[simp] theorem Dev.setPin_err (f : PinS → PinS) : (d.setPin f).err = d.err := rfl
@[simp] theorem Dev.setPin_stat (f : PinS → PinS) : (d.setPin f).stat = d.stat := rfl
@[simp] theorem Dev.setPin_mem (f : PinS → PinS) : (d.setPin f).mem = d.mem := rfl
@[simp] theorem Dev.setPin_rhz (f : PinS → PinS) : (d.setPin f).rhz = d.rhz := rfl
@[simp] theorem Dev.setPin_halves (f : PinS → PinS) : (d.setPin f).halves = d.halves := rfl
@[simp] theorem Dev.setPin_bridgeFail (f : PinS → PinS) : (d.setPin f).bridgeFail = d.bridgeFail := rfl
@[simp] theorem Dev.setPin_bridgeOff (f : PinS → PinS) : (d.setPin f).bridgeOff = d.bridgeOff := rfl
@[simp] theorem Dev.setPin_win (f : PinS → PinS) : (d.setPin f).win = d.win := rfl
@[simp] theorem Dev.setPin_xfers (f : PinS → PinS) : (d.setPin f).xfers = d.xfers := rfl
@[simp] theorem Dev.setPin_nextX (f : PinS → PinS) : (d.setPin f).nextX = d.nextX := rfl
@[simp] theorem Dev.setPin_units (f : PinS → PinS) : (d.setPin f).units = d.units := rfl
@[simp] theorem Dev.setPin_nextU (f : PinS → PinS) : (d.setPin f).nextU = d.nextU := rfl
@[simp] theorem Dev.setPin_endedQ (f : PinS → PinS) : (d.setPin f).endedQ = d.endedQ := rfl
@[simp] theorem Dev.setPin_regs (f : PinS → PinS) : (d.setPin f).regs = d.regs := rfl
@[simp] theorem Dev.setPin_inForce (f : PinS → PinS) : (d.setPin f).inForce = d.inForce := rfl
@[simp] theorem Dev.setPin_poolBase (f : PinS → PinS) : (d.setPin f).poolBase = d.poolBase := rfl
@[simp] theorem Dev.setPin_poolCount (f : PinS → PinS) : (d.setPin f).poolCount = d.poolCount := rfl
@[simp] theorem Dev.setPin_frame (f : PinS → PinS) : (d.setPin f).frame = d.frame := rfl
@[simp] theorem Dev.setPin_lastTick (f : PinS → PinS) : (d.setPin f).lastTick = d.lastTick := rfl
@[simp] theorem Dev.setPin_fronds (f : PinS → PinS) : (d.setPin f).fronds = d.fronds := rfl
@[simp] theorem Dev.setPin_gemmas (f : PinS → PinS) : (d.setPin f).gemmas = d.gemmas := rfl
@[simp] theorem Dev.setPin_arrStatus (f : PinS → PinS) : (d.setPin f).arrStatus = d.arrStatus := rfl
@[simp] theorem Dev.setPin_seals (f : PinS → PinS) : (d.setPin f).seals = d.seals := rfl
@[simp] theorem Dev.setPin_sealRuns (f : PinS → PinS) : (d.setPin f).sealRuns = d.sealRuns := rfl
@[simp] theorem Dev.setPin_sealHeld (f : PinS → PinS) : (d.setPin f).sealHeld = d.sealHeld := rfl
@[simp] theorem Dev.setPin_ports (f : PinS → PinS) : (d.setPin f).ports = d.ports := rfl
@[simp] theorem Dev.setPin_frm (f : PinS → PinS) : (d.setPin f).frm = d.frm := rfl
@[simp] theorem Dev.setPin_pwr (f : PinS → PinS) : (d.setPin f).pwr = d.pwr := rfl
@[simp] theorem Dev.setPin_thm (f : PinS → PinS) : (d.setPin f).thm = d.thm := rfl
@[simp] theorem Dev.setPin_bup (f : PinS → PinS) : (d.setPin f).bup = d.bup := rfl
@[simp] theorem Dev.setPin_sec (f : PinS → PinS) : (d.setPin f).sec = d.sec := rfl
@[simp] theorem Dev.setPin_pin (f : PinS → PinS) : (d.setPin f).pin = f d.pin := rfl
@[simp] theorem Dev.setPin_sweep (f : PinS → PinS) : (d.setPin f).sweep = d.sweep := rfl
@[simp] theorem Dev.setPin_halfReset (f : PinS → PinS) : (d.setPin f).halfReset = d.halfReset := rfl

@[simp] theorem Dev.setSess_now (p : Nat) (x : Sess) : (d.setSess p x).now = d.now := rfl
@[simp] theorem Dev.setSess_free (p : Nat) (x : Sess) : (d.setSess p x).free = d.free := rfl
@[simp] theorem Dev.setSess_err (p : Nat) (x : Sess) : (d.setSess p x).err = d.err := rfl
@[simp] theorem Dev.setSess_stat (p : Nat) (x : Sess) : (d.setSess p x).stat = d.stat := rfl
@[simp] theorem Dev.setSess_mem (p : Nat) (x : Sess) : (d.setSess p x).mem = d.mem := rfl
@[simp] theorem Dev.setSess_rhz (p : Nat) (x : Sess) : (d.setSess p x).rhz = d.rhz := rfl
@[simp] theorem Dev.setSess_halves (p : Nat) (x : Sess) : (d.setSess p x).halves = d.halves := rfl
@[simp] theorem Dev.setSess_bridgeFail (p : Nat) (x : Sess) : (d.setSess p x).bridgeFail = d.bridgeFail := rfl
@[simp] theorem Dev.setSess_bridgeOff (p : Nat) (x : Sess) : (d.setSess p x).bridgeOff = d.bridgeOff := rfl
@[simp] theorem Dev.setSess_win (p : Nat) (x : Sess) : (d.setSess p x).win = d.win := rfl
@[simp] theorem Dev.setSess_xfers (p : Nat) (x : Sess) : (d.setSess p x).xfers = d.xfers := rfl
@[simp] theorem Dev.setSess_nextX (p : Nat) (x : Sess) : (d.setSess p x).nextX = d.nextX := rfl
@[simp] theorem Dev.setSess_units (p : Nat) (x : Sess) : (d.setSess p x).units = d.units := rfl
@[simp] theorem Dev.setSess_nextU (p : Nat) (x : Sess) : (d.setSess p x).nextU = d.nextU := rfl
@[simp] theorem Dev.setSess_endedQ (p : Nat) (x : Sess) : (d.setSess p x).endedQ = d.endedQ := rfl
@[simp] theorem Dev.setSess_regs (p : Nat) (x : Sess) : (d.setSess p x).regs = d.regs := rfl
@[simp] theorem Dev.setSess_inForce (p : Nat) (x : Sess) : (d.setSess p x).inForce = d.inForce := rfl
@[simp] theorem Dev.setSess_poolBase (p : Nat) (x : Sess) : (d.setSess p x).poolBase = d.poolBase := rfl
@[simp] theorem Dev.setSess_poolCount (p : Nat) (x : Sess) : (d.setSess p x).poolCount = d.poolCount := rfl
@[simp] theorem Dev.setSess_frame (p : Nat) (x : Sess) : (d.setSess p x).frame = d.frame := rfl
@[simp] theorem Dev.setSess_lastTick (p : Nat) (x : Sess) : (d.setSess p x).lastTick = d.lastTick := rfl
@[simp] theorem Dev.setSess_fronds (p : Nat) (x : Sess) : (d.setSess p x).fronds = d.fronds := rfl
@[simp] theorem Dev.setSess_gemmas (p : Nat) (x : Sess) : (d.setSess p x).gemmas = d.gemmas := rfl
@[simp] theorem Dev.setSess_arrStatus (p : Nat) (x : Sess) : (d.setSess p x).arrStatus = d.arrStatus := rfl
@[simp] theorem Dev.setSess_seals (p : Nat) (x : Sess) : (d.setSess p x).seals = d.seals := rfl
@[simp] theorem Dev.setSess_sealRuns (p : Nat) (x : Sess) : (d.setSess p x).sealRuns = d.sealRuns := rfl
@[simp] theorem Dev.setSess_sealHeld (p : Nat) (x : Sess) : (d.setSess p x).sealHeld = d.sealHeld := rfl
@[simp] theorem Dev.setSess_ports (p : Nat) (x : Sess) : (d.setSess p x).ports = d.ports := rfl
@[simp] theorem Dev.setSess_frm (p : Nat) (x : Sess) : (d.setSess p x).frm = d.frm := rfl
@[simp] theorem Dev.setSess_pwr (p : Nat) (x : Sess) : (d.setSess p x).pwr = d.pwr := rfl
@[simp] theorem Dev.setSess_thm (p : Nat) (x : Sess) : (d.setSess p x).thm = d.thm := rfl
@[simp] theorem Dev.setSess_bup (p : Nat) (x : Sess) : (d.setSess p x).bup = d.bup := rfl
@[simp] theorem Dev.setSess_sec (p : Nat) (x : Sess) : (d.setSess p x).sec = { d.sec with sess := d.sec.sess.put p x } := rfl
@[simp] theorem Dev.setSess_pin (p : Nat) (x : Sess) : (d.setSess p x).pin = d.pin := rfl
@[simp] theorem Dev.setSess_sweep (p : Nat) (x : Sess) : (d.setSess p x).sweep = d.sweep := rfl
@[simp] theorem Dev.setSess_halfReset (p : Nat) (x : Sess) : (d.setSess p x).halfReset = d.halfReset := rfl

@[simp] theorem Dev.setFw_now (f : FwS) : (d.setFw f).now = d.now := rfl
@[simp] theorem Dev.setFw_free (f : FwS) : (d.setFw f).free = d.free := rfl
@[simp] theorem Dev.setFw_err (f : FwS) : (d.setFw f).err = d.err := rfl
@[simp] theorem Dev.setFw_stat (f : FwS) : (d.setFw f).stat = d.stat := rfl
@[simp] theorem Dev.setFw_mem (f : FwS) : (d.setFw f).mem = d.mem := rfl
@[simp] theorem Dev.setFw_rhz (f : FwS) : (d.setFw f).rhz = d.rhz := rfl
@[simp] theorem Dev.setFw_halves (f : FwS) : (d.setFw f).halves = d.halves := rfl
@[simp] theorem Dev.setFw_bridgeFail (f : FwS) : (d.setFw f).bridgeFail = d.bridgeFail := rfl
@[simp] theorem Dev.setFw_bridgeOff (f : FwS) : (d.setFw f).bridgeOff = d.bridgeOff := rfl
@[simp] theorem Dev.setFw_win (f : FwS) : (d.setFw f).win = d.win := rfl
@[simp] theorem Dev.setFw_xfers (f : FwS) : (d.setFw f).xfers = d.xfers := rfl
@[simp] theorem Dev.setFw_nextX (f : FwS) : (d.setFw f).nextX = d.nextX := rfl
@[simp] theorem Dev.setFw_units (f : FwS) : (d.setFw f).units = d.units := rfl
@[simp] theorem Dev.setFw_nextU (f : FwS) : (d.setFw f).nextU = d.nextU := rfl
@[simp] theorem Dev.setFw_endedQ (f : FwS) : (d.setFw f).endedQ = d.endedQ := rfl
@[simp] theorem Dev.setFw_regs (f : FwS) : (d.setFw f).regs = d.regs := rfl
@[simp] theorem Dev.setFw_inForce (f : FwS) : (d.setFw f).inForce = d.inForce := rfl
@[simp] theorem Dev.setFw_poolBase (f : FwS) : (d.setFw f).poolBase = d.poolBase := rfl
@[simp] theorem Dev.setFw_poolCount (f : FwS) : (d.setFw f).poolCount = d.poolCount := rfl
@[simp] theorem Dev.setFw_frame (f : FwS) : (d.setFw f).frame = d.frame := rfl
@[simp] theorem Dev.setFw_lastTick (f : FwS) : (d.setFw f).lastTick = d.lastTick := rfl
@[simp] theorem Dev.setFw_fronds (f : FwS) : (d.setFw f).fronds = d.fronds := rfl
@[simp] theorem Dev.setFw_gemmas (f : FwS) : (d.setFw f).gemmas = d.gemmas := rfl
@[simp] theorem Dev.setFw_arrStatus (f : FwS) : (d.setFw f).arrStatus = d.arrStatus := rfl
@[simp] theorem Dev.setFw_seals (f : FwS) : (d.setFw f).seals = d.seals := rfl
@[simp] theorem Dev.setFw_sealRuns (f : FwS) : (d.setFw f).sealRuns = d.sealRuns := rfl
@[simp] theorem Dev.setFw_sealHeld (f : FwS) : (d.setFw f).sealHeld = d.sealHeld := rfl
@[simp] theorem Dev.setFw_ports (f : FwS) : (d.setFw f).ports = d.ports := rfl
@[simp] theorem Dev.setFw_frm (f : FwS) : (d.setFw f).frm = d.frm := rfl
@[simp] theorem Dev.setFw_pwr (f : FwS) : (d.setFw f).pwr = d.pwr := rfl
@[simp] theorem Dev.setFw_thm (f : FwS) : (d.setFw f).thm = d.thm := rfl
@[simp] theorem Dev.setFw_bup (f : FwS) : (d.setFw f).bup = d.bup := rfl
@[simp] theorem Dev.setFw_sec (f : FwS) : (d.setFw f).sec = { d.sec with fw := f } := rfl
@[simp] theorem Dev.setFw_pin (f : FwS) : (d.setFw f).pin = d.pin := rfl
@[simp] theorem Dev.setFw_sweep (f : FwS) : (d.setFw f).sweep = d.sweep := rfl
@[simp] theorem Dev.setFw_halfReset (f : FwS) : (d.setFw f).halfReset = d.halfReset := rfl

@[simp] theorem Dev.setSlot_now (i : Nat) (x : PlanSlot) : (d.setSlot i x).now = d.now := rfl
@[simp] theorem Dev.setSlot_free (i : Nat) (x : PlanSlot) : (d.setSlot i x).free = d.free := rfl
@[simp] theorem Dev.setSlot_err (i : Nat) (x : PlanSlot) : (d.setSlot i x).err = d.err := rfl
@[simp] theorem Dev.setSlot_stat (i : Nat) (x : PlanSlot) : (d.setSlot i x).stat = d.stat := rfl
@[simp] theorem Dev.setSlot_mem (i : Nat) (x : PlanSlot) : (d.setSlot i x).mem = d.mem := rfl
@[simp] theorem Dev.setSlot_rhz (i : Nat) (x : PlanSlot) : (d.setSlot i x).rhz = d.rhz := rfl
@[simp] theorem Dev.setSlot_halves (i : Nat) (x : PlanSlot) : (d.setSlot i x).halves = d.halves := rfl
@[simp] theorem Dev.setSlot_bridgeFail (i : Nat) (x : PlanSlot) : (d.setSlot i x).bridgeFail = d.bridgeFail := rfl
@[simp] theorem Dev.setSlot_bridgeOff (i : Nat) (x : PlanSlot) : (d.setSlot i x).bridgeOff = d.bridgeOff := rfl
@[simp] theorem Dev.setSlot_win (i : Nat) (x : PlanSlot) : (d.setSlot i x).win = d.win := rfl
@[simp] theorem Dev.setSlot_xfers (i : Nat) (x : PlanSlot) : (d.setSlot i x).xfers = d.xfers := rfl
@[simp] theorem Dev.setSlot_nextX (i : Nat) (x : PlanSlot) : (d.setSlot i x).nextX = d.nextX := rfl
@[simp] theorem Dev.setSlot_units (i : Nat) (x : PlanSlot) : (d.setSlot i x).units = d.units := rfl
@[simp] theorem Dev.setSlot_nextU (i : Nat) (x : PlanSlot) : (d.setSlot i x).nextU = d.nextU := rfl
@[simp] theorem Dev.setSlot_endedQ (i : Nat) (x : PlanSlot) : (d.setSlot i x).endedQ = d.endedQ := rfl
@[simp] theorem Dev.setSlot_regs (i : Nat) (x : PlanSlot) : (d.setSlot i x).regs = d.regs := rfl
@[simp] theorem Dev.setSlot_inForce (i : Nat) (x : PlanSlot) : (d.setSlot i x).inForce = d.inForce := rfl
@[simp] theorem Dev.setSlot_poolBase (i : Nat) (x : PlanSlot) : (d.setSlot i x).poolBase = d.poolBase := rfl
@[simp] theorem Dev.setSlot_poolCount (i : Nat) (x : PlanSlot) : (d.setSlot i x).poolCount = d.poolCount := rfl
@[simp] theorem Dev.setSlot_frame (i : Nat) (x : PlanSlot) : (d.setSlot i x).frame = d.frame := rfl
@[simp] theorem Dev.setSlot_lastTick (i : Nat) (x : PlanSlot) : (d.setSlot i x).lastTick = d.lastTick := rfl
@[simp] theorem Dev.setSlot_fronds (i : Nat) (x : PlanSlot) : (d.setSlot i x).fronds = d.fronds := rfl
@[simp] theorem Dev.setSlot_gemmas (i : Nat) (x : PlanSlot) : (d.setSlot i x).gemmas = d.gemmas := rfl
@[simp] theorem Dev.setSlot_arrStatus (i : Nat) (x : PlanSlot) : (d.setSlot i x).arrStatus = d.arrStatus := rfl
@[simp] theorem Dev.setSlot_seals (i : Nat) (x : PlanSlot) : (d.setSlot i x).seals = d.seals := rfl
@[simp] theorem Dev.setSlot_sealRuns (i : Nat) (x : PlanSlot) : (d.setSlot i x).sealRuns = d.sealRuns := rfl
@[simp] theorem Dev.setSlot_sealHeld (i : Nat) (x : PlanSlot) : (d.setSlot i x).sealHeld = d.sealHeld := rfl
@[simp] theorem Dev.setSlot_ports (i : Nat) (x : PlanSlot) : (d.setSlot i x).ports = d.ports := rfl
@[simp] theorem Dev.setSlot_frm (i : Nat) (x : PlanSlot) : (d.setSlot i x).frm = { d.frm with slots := d.frm.slots.put i x } := rfl
@[simp] theorem Dev.setSlot_pwr (i : Nat) (x : PlanSlot) : (d.setSlot i x).pwr = d.pwr := rfl
@[simp] theorem Dev.setSlot_thm (i : Nat) (x : PlanSlot) : (d.setSlot i x).thm = d.thm := rfl
@[simp] theorem Dev.setSlot_bup (i : Nat) (x : PlanSlot) : (d.setSlot i x).bup = d.bup := rfl
@[simp] theorem Dev.setSlot_sec (i : Nat) (x : PlanSlot) : (d.setSlot i x).sec = d.sec := rfl
@[simp] theorem Dev.setSlot_pin (i : Nat) (x : PlanSlot) : (d.setSlot i x).pin = d.pin := rfl
@[simp] theorem Dev.setSlot_sweep (i : Nat) (x : PlanSlot) : (d.setSlot i x).sweep = d.sweep := rfl
@[simp] theorem Dev.setSlot_halfReset (i : Nat) (x : PlanSlot) : (d.setSlot i x).halfReset = d.halfReset := rfl

@[simp] theorem Dev.bump_now (c n : Nat) : (d.bump c n).now = d.now := rfl
@[simp] theorem Dev.bump_free (c n : Nat) : (d.bump c n).free = d.free := rfl
@[simp] theorem Dev.bump_err (c n : Nat) : (d.bump c n).err = d.err := rfl
@[simp] theorem Dev.bump_stat (c n : Nat) : (d.bump c n).stat = { d.stat with live := modify d.stat.live c 0 (fun v => min (v + n) (2 ^ 48 - 1)) } := rfl
@[simp] theorem Dev.bump_mem (c n : Nat) : (d.bump c n).mem = d.mem := rfl
@[simp] theorem Dev.bump_rhz (c n : Nat) : (d.bump c n).rhz = d.rhz := rfl
@[simp] theorem Dev.bump_halves (c n : Nat) : (d.bump c n).halves = d.halves := rfl
@[simp] theorem Dev.bump_bridgeFail (c n : Nat) : (d.bump c n).bridgeFail = d.bridgeFail := rfl
@[simp] theorem Dev.bump_bridgeOff (c n : Nat) : (d.bump c n).bridgeOff = d.bridgeOff := rfl
@[simp] theorem Dev.bump_win (c n : Nat) : (d.bump c n).win = d.win := rfl
@[simp] theorem Dev.bump_xfers (c n : Nat) : (d.bump c n).xfers = d.xfers := rfl
@[simp] theorem Dev.bump_nextX (c n : Nat) : (d.bump c n).nextX = d.nextX := rfl
@[simp] theorem Dev.bump_units (c n : Nat) : (d.bump c n).units = d.units := rfl
@[simp] theorem Dev.bump_nextU (c n : Nat) : (d.bump c n).nextU = d.nextU := rfl
@[simp] theorem Dev.bump_endedQ (c n : Nat) : (d.bump c n).endedQ = d.endedQ := rfl
@[simp] theorem Dev.bump_regs (c n : Nat) : (d.bump c n).regs = d.regs := rfl
@[simp] theorem Dev.bump_inForce (c n : Nat) : (d.bump c n).inForce = d.inForce := rfl
@[simp] theorem Dev.bump_poolBase (c n : Nat) : (d.bump c n).poolBase = d.poolBase := rfl
@[simp] theorem Dev.bump_poolCount (c n : Nat) : (d.bump c n).poolCount = d.poolCount := rfl
@[simp] theorem Dev.bump_frame (c n : Nat) : (d.bump c n).frame = d.frame := rfl
@[simp] theorem Dev.bump_lastTick (c n : Nat) : (d.bump c n).lastTick = d.lastTick := rfl
@[simp] theorem Dev.bump_fronds (c n : Nat) : (d.bump c n).fronds = d.fronds := rfl
@[simp] theorem Dev.bump_gemmas (c n : Nat) : (d.bump c n).gemmas = d.gemmas := rfl
@[simp] theorem Dev.bump_arrStatus (c n : Nat) : (d.bump c n).arrStatus = d.arrStatus := rfl
@[simp] theorem Dev.bump_seals (c n : Nat) : (d.bump c n).seals = d.seals := rfl
@[simp] theorem Dev.bump_sealRuns (c n : Nat) : (d.bump c n).sealRuns = d.sealRuns := rfl
@[simp] theorem Dev.bump_sealHeld (c n : Nat) : (d.bump c n).sealHeld = d.sealHeld := rfl
@[simp] theorem Dev.bump_ports (c n : Nat) : (d.bump c n).ports = d.ports := rfl
@[simp] theorem Dev.bump_frm (c n : Nat) : (d.bump c n).frm = d.frm := rfl
@[simp] theorem Dev.bump_pwr (c n : Nat) : (d.bump c n).pwr = d.pwr := rfl
@[simp] theorem Dev.bump_thm (c n : Nat) : (d.bump c n).thm = d.thm := rfl
@[simp] theorem Dev.bump_bup (c n : Nat) : (d.bump c n).bup = d.bup := rfl
@[simp] theorem Dev.bump_sec (c n : Nat) : (d.bump c n).sec = d.sec := rfl
@[simp] theorem Dev.bump_pin (c n : Nat) : (d.bump c n).pin = d.pin := rfl
@[simp] theorem Dev.bump_sweep (c n : Nat) : (d.bump c n).sweep = d.sweep := rfl
@[simp] theorem Dev.bump_halfReset (c n : Nat) : (d.bump c n).halfReset = d.halfReset := rfl

/-! The parts that an update through a function leaves: each is the update of the part itself. -/

theorem Dev.modFrond_eq (f : Nat) (h : Frond → Frond) : d.modFrond f h = d.setFrond f (h (d.frond f)) := rfl
theorem Dev.modGemma_eq (g : Nat) (h : Gemma → Gemma) : d.modGemma g h = d.setGemma g (h (d.gemma g)) := rfl
theorem Dev.modPort_eq (p : Nat) (h : PortS → PortS) : d.modPort p h = d.setPort p (h (d.port p)) := rfl
theorem Dev.inc_eq (c : Nat) : d.inc c = d.bump c 1 := rfl

/-! Reading a part after it, or another of its kind, is set. -/

theorem Dev.frond_setFrond (i j : Nat) (x : Frond) : (d.setFrond i x).frond j = if j = i then x else d.frond j := by
  simp [Dev.frond, SMap.get_put]
@[simp] theorem Dev.frond_setFrond_self (i : Nat) (x : Frond) : (d.setFrond i x).frond i = x := by
  simp [Dev.frond_setFrond]
theorem Dev.gemma_setGemma (i j : Nat) (x : Gemma) : (d.setGemma i x).gemma j = if j = i then x else d.gemma j := by
  simp [Dev.gemma, SMap.get_put]
@[simp] theorem Dev.gemma_setGemma_self (i : Nat) (x : Gemma) : (d.setGemma i x).gemma i = x := by
  simp [Dev.gemma_setGemma]
theorem Dev.half_setHalf (i j : Nat) (x : Half) : (d.setHalf i x).half j = if j = i then x else d.half j := by
  simp [Dev.half, SMap.get_put]
@[simp] theorem Dev.half_setHalf_self (i : Nat) (x : Half) : (d.setHalf i x).half i = x := by
  simp [Dev.half_setHalf]
theorem Dev.rhiz_setRhz (i j : Nat) (x : Rhz) : (d.setRhz i x).rhiz j = if j = i then x else d.rhiz j := by
  simp [Dev.rhiz, SMap.get_put]
@[simp] theorem Dev.rhiz_setRhz_self (i : Nat) (x : Rhz) : (d.setRhz i x).rhiz i = x := by
  simp [Dev.rhiz_setRhz]
theorem Dev.bank_setBank (i j : Nat) (x : Bank) : (d.setBank i x).bank j = if j = i then x else d.bank j := by
  simp [Dev.bank, SMap.get_put]
@[simp] theorem Dev.bank_setBank_self (i : Nat) (x : Bank) : (d.setBank i x).bank i = x := by
  simp [Dev.bank_setBank]
theorem Dev.layer_setLayer (i j : Nat) (x : MemLayer) : (d.setLayer i x).layer j = if j = i then x else d.layer j := by
  simp [Dev.layer, SMap.get_put]
@[simp] theorem Dev.layer_setLayer_self (i : Nat) (x : MemLayer) : (d.setLayer i x).layer i = x := by
  simp [Dev.layer_setLayer]
theorem Dev.port_setPort (i j : Nat) (x : PortS) : (d.setPort i x).port j = if j = i then x else d.port j := by
  simp [Dev.port, SMap.get_put]
@[simp] theorem Dev.port_setPort_self (i : Nat) (x : PortS) : (d.setPort i x).port i = x := by
  simp [Dev.port_setPort]
theorem Dev.reg_setReg (i j : Nat) (x : Word) : (d.setReg i x).reg j = if j = i then x else d.reg j := by
  simp [Dev.reg, SMap.get_put]
@[simp] theorem Dev.reg_setReg_self (i : Nat) (x : Word) : (d.setReg i x).reg i = x := by
  simp [Dev.reg_setReg]
theorem Dev.sess_setSess (i j : Nat) (x : Sess) : (d.setSess i x).sess j = if j = i then x else d.sess j := by
  simp [Dev.sess, SMap.get_put]
@[simp] theorem Dev.sess_setSess_self (i : Nat) (x : Sess) : (d.setSess i x).sess i = x := by
  simp [Dev.sess_setSess]
theorem Dev.dom_modDom (i j : Nat) (f : Dom → Dom) : (d.modDom i f).dom j = if j = i then f (d.dom i) else d.dom j := by
  simp [Dev.dom, SMap.get_put]

/-- The unit of a key after a change of the units: that unit changed, or the others as they were. -/
theorem Dev.unit_modUnit (k j : Nat) (f : WUnit → WUnit) (hf : ∀ u, (f u).key = u.key) :
    (d.modUnit k f).unit j = (d.unit j).map (fun u => if u.key == k then f u else u) := by
  simp only [Dev.unit, Dev.modUnit_units, List.find?_map]
  congr 2
  funext u
  simp only [Function.comp_apply]
  split_ifs <;> simp [hf]

theorem Dev.xfer_modXfer (k j : Nat) (f : Xfer → Xfer) (hf : ∀ u, (f u).id = u.id) :
    (d.modXfer k f).xfer j = (d.xfer j).map (fun u => if u.id == k then f u else u) := by
  simp only [Dev.xfer, Dev.modXfer_xfers, List.find?_map]
  congr 2
  funext u
  simp only [Function.comp_apply]
  split_ifs <;> simp [hf]

end Sys2Proof.Machine
end

