-- ==== Sys2Proof/Laws/Exec.lean ====
section
/-! SUPPORT. What the shared ways of acting do: a command of a running module, an instruction of a frond or of a gemma. -/

namespace Sys2Proof.Machine

theorem onDev_alive {f : Dev → Dev} {s : State} (h : s.dev.alive = true) : onDev f s = .next (s.ran (f s.dev)) := by
  simp [onDev, h]

theorem onDev_stopped {f : Dev → Dev} {s : State} (h : s.dev.alive = false) : onDev f s = .next s := by simp [onDev, h]

theorem onFuse_alive {f : Dev → Fuses → Dev × Fuses} {s : State} (h : s.dev.alive = true) :
    onFuse f s = .next { s.ran (f s.dev s.fuse).1 with fuse := (f s.dev s.fuse).2 } := by simp [onFuse, h]

theorem onFuse_stopped {f : Dev → Fuses → Dev × Fuses} {s : State} (h : s.dev.alive = false) : onFuse f s = .next s := by
  simp [onFuse, h]

/-- A command of the module answers a state with the queue, the fuses and the flash as they were. -/
theorem onDev_answers (f : Dev → Dev) (s : State) :
    ∃ t, onDev f s = .next t ∧ t.pending = s.pending ∧ t.flash = s.flash ∧ t.fuse = s.fuse := by
  unfold onDev
  split
  · exact ⟨_, rfl, rfl, rfl, rfl⟩
  · exact ⟨_, rfl, rfl, rfl, rfl⟩

theorem onFuse_answers (f : Dev → Fuses → Dev × Fuses) (s : State) :
    ∃ t, onFuse f s = .next t ∧ t.pending = s.pending ∧ t.flash = s.flash ∧
      (t.fuse = s.fuse ∨ t.fuse = (f s.dev s.fuse).2) := by
  unfold onFuse
  split
  · exact ⟨_, rfl, rfl, rfl, .inr rfl⟩
  · exact ⟨_, rfl, rfl, rfl, .inl rfl⟩

theorem onPin_answers (f : Dev → Dev) (s : State) :
    ∃ t, onPin f s = .next t ∧ t.pending = s.pending ∧ t.flash = s.flash ∧ t.fuse = s.fuse := ⟨_, rfl, rfl, rfl, rfl⟩

/-! ### Fronds -/

/-- The instruction that stands acts, where it is of the command's mnemonic. -/
theorem Dev.frondGo_issues {d : Dev} {f : Nat} {u : WUnit} {b : BitVec 128} {mine : BitVec 128 → Bool}
    {body : Dev → WUnit → BitVec 128 → Dev} (h : Issues d f u b) (hm : mine b = true) :
    d.frondGo f mine body = body d u b := by
  have hl := h.listed
  simp [Dev.frondGo, h.unit, Nat.not_le.2 h.inside, h.unpoisoned, h.word, Option.ne_none_iff_isSome.2 hl, hm, h.clean]

/-- An instruction of another mnemonic leaves the frond as it is. -/
theorem Dev.frondGo_other {d : Dev} {f : Nat} {u : WUnit} {b : BitVec 128} {mine : BitVec 128 → Bool}
    {body : Dev → WUnit → BitVec 128 → Dev} (h : Issues d f u b) (hm : mine b = false) : d.frondGo f mine body = d := by
  have hl := h.listed
  simp [Dev.frondGo, h.unit, Nat.not_le.2 h.inside, h.unpoisoned, h.word, Option.ne_none_iff_isSome.2 hl, hm]

theorem Dev.frondGo_idle {d : Dev} {f : Nat} {mine : BitVec 128 → Bool} {body : Dev → WUnit → BitVec 128 → Dev}
    (h : d.issuing f = none) : d.frondGo f mine body = d := by simp [Dev.frondGo, h]

/-- All that a frond's issue stage can do. -/
theorem Dev.frondGo_cases (d : Dev) (f : Nat) (mine : BitVec 128 → Bool) (body : Dev → WUnit → BitVec 128 → Dev) :
    d.frondGo f mine body = d ∨ d.frondGo f mine body = d.frondPoison f ∨
      d.frondGo f mine body = d.frondExc f 1 (d.frond f).pc 0 ∨
      ∃ u b, Issues d f u b ∧ mine b = true ∧ d.frondGo f mine body = body d u b := by
  unfold Dev.frondGo
  cases hu : d.issuing f with
  | none => simp
  | some u =>
    simp only
    split_ifs with h1 h2 h3 h4 h5
    · exact .inl rfl
    · exact .inr (.inl rfl)
    · exact .inr (.inr (.inl rfl))
    · exact .inl rfl
    · exact .inr (.inr (.inl rfl))
    · refine .inr (.inr (.inr ⟨u, _, ⟨hu, by omega, by simpa using h2, rfl, ?_, by simpa using h5⟩, by simpa using h4, rfl⟩))
      simpa [Option.isSome_iff_ne_none] using h3

theorem Dev.checked_ok {d : Dev} {f : Nat} {c : Chk} {go : Dev → Dev} (h : c = .ok) : d.checked f c go = go d := by
  subst h; rfl

/-! ### Gemmas -/

theorem Dev.gemGo_issues {d : Dev} {g : Nat} {u : WUnit} {i : RvI} {k : GKind} {mine : RvI → GKind → Bool}
    {body : Dev → WUnit → RvI → Dev} (h : GemIssues d g u i k) (hk : k ≠ .illegal) (hm : mine i k = true) :
    d.gemGo g mine body = body d u i := by
  simp [Dev.gemGo, h.unit, h.fetched, h.kind, hk, hm]

theorem Dev.gemGo_other {d : Dev} {g : Nat} {u : WUnit} {i : RvI} {k : GKind} {mine : RvI → GKind → Bool}
    {body : Dev → WUnit → RvI → Dev} (h : GemIssues d g u i k) (hk : k ≠ .illegal) (hm : mine i k = false) :
    d.gemGo g mine body = d := by
  simp [Dev.gemGo, h.unit, h.fetched, h.kind, hk, hm]

/-- All that a gemma's issue stage can do. -/
theorem Dev.gemGo_cases (d : Dev) (g : Nat) (mine : RvI → GKind → Bool) (body : Dev → WUnit → RvI → Dev) :
    d.gemGo g mine body = d ∨ (∃ code, d.gemGo g mine body = d.gemExc g code (d.gemma g).pc 0) ∨
      d.gemGo g mine body = d.gemPoison g ∨
      ∃ u i k, GemIssues d g u i k ∧ mine i k = true ∧ d.gemGo g mine body = body d u i := by
  unfold Dev.gemGo
  cases hu : d.gemIssuing g with
  | none => simp
  | some u =>
    simp only
    cases hf : (d.gemma g).fetch with
    | past => exact .inr (.inl ⟨5, rfl⟩)
    | poison => exact .inr (.inr (.inl rfl))
    | word o =>
      cases o with
      | none => exact .inr (.inl ⟨1, rfl⟩)
      | some i =>
        simp only
        split_ifs with h1 h2
        · exact .inr (.inl ⟨1, rfl⟩)
        · exact .inr (.inr (.inr ⟨u, i, _, ⟨hu, hf, rfl⟩, h2, rfl⟩))
        · exact .inl rfl

theorem Dev.gemChecked_ok {d : Dev} {g : Nat} {c : Chk} {go : Dev → Dev} (h : c = .ok) : d.gemChecked g c go = go d := by
  subst h; rfl

/-! ### Registers of a frond -/

@[simp] theorem Frond.setR_store (x : Frond) (n : Nat) (v : DWord) (p : Bool) : (x.setR n v p).store = x.store := by
  unfold Frond.setR; split <;> rfl
@[simp] theorem Frond.setR_storeP (x : Frond) (n : Nat) (v : DWord) (p : Bool) : (x.setR n v p).storeP = x.storeP := by
  unfold Frond.setR; split <;> rfl
@[simp] theorem Frond.setR_len (x : Frond) (n : Nat) (v : DWord) (p : Bool) : (x.setR n v p).len = x.len := by
  unfold Frond.setR; split <;> rfl
@[simp] theorem Frond.setR_flags (x : Frond) (n : Nat) (v : DWord) (p : Bool) : (x.setR n v p).flags = x.flags := by
  unfold Frond.setR; split <;> rfl
@[simp] theorem Frond.setR_loops (x : Frond) (n : Nat) (v : DWord) (p : Bool) : (x.setR n v p).loops = x.loops := by
  unfold Frond.setR; split <;> rfl
@[simp] theorem Frond.setR_mrow (x : Frond) (n : Nat) (v : DWord) (p : Bool) : (x.setR n v p).mrow = x.mrow := by
  unfold Frond.setR; split <;> rfl
@[simp] theorem Frond.setR_eps (x : Frond) (n : Nat) (v : DWord) (p : Bool) : (x.setR n v p).eps = x.eps := by
  unfold Frond.setR; split <;> rfl
@[simp] theorem Frond.setR_sticky (x : Frond) (n : Nat) (v : DWord) (p : Bool) : (x.setR n v p).sticky = x.sticky := by
  unfold Frond.setR; split <;> rfl
@[simp] theorem Frond.setR_pc (x : Frond) (n : Nat) (v : DWord) (p : Bool) : (x.setR n v p).pc = x.pc := by
  unfold Frond.setR; split <;> rfl
@[simp] theorem Frond.setR_ip (x : Frond) (n : Nat) (v : DWord) (p : Bool) : (x.setR n v p).ip = x.ip := by
  unfold Frond.setR; split <;> rfl
@[simp] theorem Frond.setR_waiting (x : Frond) (n : Nat) (v : DWord) (p : Bool) : (x.setR n v p).waiting = x.waiting := by
  unfold Frond.setR; split <;> rfl
@[simp] theorem Frond.setR_lastCommit (x : Frond) (n : Nat) (v : DWord) (p : Bool) : (x.setR n v p).lastCommit = x.lastCommit := by
  unfold Frond.setR; split <;> rfl
@[simp] theorem Frond.setR_os (x : Frond) (n : Nat) (v : DWord) (p : Bool) : (x.setR n v p).os = x.os := by
  unfold Frond.setR; split <;> rfl
@[simp] theorem Frond.setR_osP (x : Frond) (n : Nat) (v : DWord) (p : Bool) : (x.setR n v p).osP = x.osP := by
  unfold Frond.setR; split <;> rfl
@[simp] theorem Frond.setR_side (x : Frond) (n : Nat) (v : DWord) (p : Bool) : (x.setR n v p).side = x.side := by
  unfold Frond.setR; split <;> rfl
@[simp] theorem Frond.setR_arrs (x : Frond) (n : Nat) (v : DWord) (p : Bool) : (x.setR n v p).arrs = x.arrs := by
  unfold Frond.setR; split <;> rfl
@[simp] theorem Frond.setR_cq (x : Frond) (n : Nat) (v : DWord) (p : Bool) : (x.setR n v p).cq = x.cq := by
  unfold Frond.setR; split <;> rfl
@[simp] theorem Frond.setR_order (x : Frond) (n : Nat) (v : DWord) (p : Bool) : (x.setR n v p).order = x.order := by
  unfold Frond.setR; split <;> rfl
@[simp] theorem Frond.setR_unit (x : Frond) (n : Nat) (v : DWord) (p : Bool) : (x.setR n v p).unit = x.unit := by
  unfold Frond.setR; split <;> rfl
@[simp] theorem Frond.setR_wrFail (x : Frond) (n : Nat) (v : DWord) (p : Bool) : (x.setR n v p).wrFail = x.wrFail := by
  unfold Frond.setR; split <;> rfl
@[simp] theorem Frond.setR_att (x : Frond) (n : Nat) (v : DWord) (p : Bool) : (x.setR n v p).att = x.att := by
  unfold Frond.setR; split <;> rfl

/-- A written register reads as written, s0 as 0, and the others as before. -/
theorem Frond.r_setR (x : Frond) (n m : Nat) (v : DWord) (p : Bool) :
    (x.setR n v p).r m = if m = n ∧ n ≠ 0 then v else x.r m := by
  by_cases hn : n = 0
  · simp [Frond.setR, hn]
  · by_cases hm : m = n
    · subst hm; simp [Frond.setR, Frond.r, hn]
    · simp [Frond.setR, Frond.r, hn, hm]

end Sys2Proof.Machine
end

