-- ==== Sys2Proof/Laws/Fec.lean ====
section
/-! SUPPORT. The code of the links: words without an error decode to themselves. -/

namespace Sys2Proof.Machine

theorem gfMul_zero (x : Nat) : gfMul 0 x = 0 := by
  simp only [gfMul]
  generalize List.range 10 = l
  induction l with
  | nil => rfl
  | cons a l ih => simpa [gfDouble] using ih

theorem polyHi_zeros (n : Nat) (p : List Nat) (x : Nat) : polyHi (List.replicate n 0 ++ p) x = polyHi p x := by
  induction n with
  | zero => rfl
  | succ n ih => simpa [polyHi, List.replicate_succ, gfMul_zero] using ih

theorem zeros_good (n : Nat) : (rsSyndromes (List.replicate n 0)).all (· == 0) = true := by
  unfold rsSyndromes
  refine List.all_eq_true.2 fun v hv => ?_
  obtain ⟨j, _, rfl⟩ := List.mem_map.1 hv
  rw [← List.append_nil (List.replicate n 0), polyHi_zeros]
  rfl

theorem rsDecode_good (r : List Nat) (h : (rsSyndromes r).all (· == 0) = true) : rsDecode r = some r := by
  simp only [rsDecode]
  rw [if_pos h]

theorem fecReceive_lost (w : Nat) (a b : List (List Nat)) (h : rsDecode (fecGather w a) = none) : fecReceive w a b = none := by
  unfold fecReceive
  generalize rsDecode (fecGather w b) = o
  rw [h]

theorem fecErrors_none (w l : Nat) (x : List Nat) : fecErrors w l x x = (0, 0) := by
  have h : ∀ e ∈ (List.range 544).zip (x.zip x), e.2.1 = e.2.2 := fun e he => by
    have := (List.of_mem_zip he).2
    rw [List.zip_eq_zipWith, List.zipWith_self] at this
    obtain ⟨a, _, e'⟩ := List.mem_map.1 this
    rw [← e']
  simp only [fecErrors]
  generalize (List.range 544).zip (x.zip x) = m at h
  induction m with
  | nil => rfl
  | cons a m ih => simpa [h a (List.mem_cons_self ..)] using ih fun e he => h e (List.mem_cons_of_mem _ he)

theorem fecReceive_clean (w : Nat) (l : List (List Nat)) (n : Nat) (e : fecGather w l = List.replicate n 0) :
    ∃ r, fecReceive w l l = some r ∧ ∀ e ∈ r.2, e = (0, 0) := by
  unfold fecReceive
  rw [e, rsDecode_good _ (zeros_good n)]
  refine ⟨_, rfl, fun x hx => ?_⟩
  obtain ⟨_, _, rfl⟩ := List.mem_map.1 hx
  rw [fecErrors_none]; rfl

end Sys2Proof.Machine
end

