-- ==== Sys2Proof/Laws/Memory.lean ====
section
/-! SUPPORT. The operations on device memory keep its canonical form. -/

namespace Sys2Proof.Machine

/-- What unlisted bytes of a word read depends on the areas, the layers and the fronds' places alone. -/
theorem Dev.under_congr {d e : Dev} (ha : e.mem.areas = d.mem.areas) (hl : e.mem.layers = d.mem.layers)
    (hf : e.fronds = d.fronds) (w : Nat) : e.under w = d.under w := by
  simp [Dev.under, Dev.layer, Dev.layerOf, Dev.phys, Dev.frond, ha, hl, hf]

theorem Memory.wf_iff (d : Dev) : Memory.wf d = true ↔
    SMap.rising d.mem.cells = true ∧ SMap.rising d.mem.poison = true ∧
      ∀ c ∈ d.mem.cells, ¬ ((d.under (c.1 / 64)).zero = true ∧ c.2 = 0#8) := by
  simp only [Memory.wf, Bool.and_eq_true, List.all_eq_true, Bool.not_eq_true', Bool.and_eq_false_iff, beq_eq_false_iff_ne,
    and_assoc, not_and_or, Bool.not_eq_true, ne_eq]

/-- An operation that leaves the cells, the poison, the areas, the layers and the places keeps the form. -/
theorem Memory.wf_congr {d e : Dev} (hc : e.mem.cells = d.mem.cells) (hp : e.mem.poison = d.mem.poison)
    (ha : e.mem.areas = d.mem.areas) (hl : e.mem.layers = d.mem.layers) (hf : e.fronds = d.fronds) :
    Memory.wf e = Memory.wf d := by
  simp only [Memory.wf, hc, hp, fun w => Dev.under_congr ha hl hf w]

/-- Fewer cells and other rising poison keep the form where unlisted bytes read as before, or no longer read 0. -/
theorem Memory.wf_of_sub {d e : Dev} (h : Memory.wf d = true) (hr : SMap.rising e.mem.cells = true)
    (hp : SMap.rising e.mem.poison = true)
    (hc : ∀ c ∈ e.mem.cells, c ∈ d.mem.cells ∧
      ((e.under (c.1 / 64)).zero = true → (d.under (c.1 / 64)).zero = true)) : Memory.wf e = true := by
  rw [Memory.wf_iff] at *
  exact ⟨hr, hp, fun c hm hz => h.2.2 c (hc c hm).1 ⟨(hc c hm).2 hz.1, hz.2⟩⟩

/-! ### Cells of one word -/

theorem putWord_foldl_rising (l : List Nat) (w : Nat) (g : Gran) (mask : BitVec 64) (m : List Host.Cell)
    (h : SMap.rising m = true) :
    SMap.rising (l.foldl (fun m i => if mask.getLsbD i then putByte m (64 * w + i) (gByte g i) else m) m) = true := by
  induction l generalizing m with
  | nil => exact h
  | cons i l ih =>
    simp only [List.foldl_cons]
    split
    · exact ih _ (SMap.rising_put h _ _)
    · exact ih _ h

theorem putWord_rising {m : List Host.Cell} (h : SMap.rising m = true) (w : Nat) (g : Gran) (mask : BitVec 64) :
    SMap.rising (putWord m w g mask) = true := putWord_foldl_rising _ w g mask m h

/-- A cell after a write of a word: an old one, or one of the word. -/
theorem mem_putWord_foldl (l : List Nat) (hl : ∀ i ∈ l, i < 64) (w : Nat) (g : Gran) (mask : BitVec 64)
    (m : List Host.Cell) (c : Host.Cell)
    (h : c ∈ l.foldl (fun m i => if mask.getLsbD i then putByte m (64 * w + i) (gByte g i) else m) m) :
    c ∈ m ∨ c.1 / 64 = w := by
  induction l generalizing m with
  | nil => exact .inl h
  | cons i l ih =>
    simp only [List.foldl_cons] at h
    rcases ih (fun j hj => hl j (by simp [hj])) _ h with h | h
    · split at h
      · rcases SMap.mem_put h with rfl | h
        · have := hl i (by simp)
          exact .inr (by simp only; omega)
        · exact .inl h
      · exact .inl h
    · exact .inr h

theorem mem_putWord {m : List Host.Cell} {w : Nat} {g : Gran} {mask : BitVec 64} {c : Host.Cell}
    (h : c ∈ putWord m w g mask) : c ∈ m ∨ c.1 / 64 = w :=
  mem_putWord_foldl _ (fun _ hi => List.mem_range.1 hi) w g mask m c h

/-- A write of a word leaves the cells of the others. -/
theorem find_putWord_foldl (l : List Nat) (hl : ∀ i ∈ l, i < 64) (w : Nat) (g : Gran) (mask : BitVec 64)
    (m : List Host.Cell) (a : Nat) (ha : a / 64 ≠ w) :
    SMap.find (l.foldl (fun m i => if mask.getLsbD i then putByte m (64 * w + i) (gByte g i) else m) m) a =
      SMap.find m a := by
  induction l generalizing m with
  | nil => rfl
  | cons i l ih =>
    simp only [List.foldl_cons]
    rw [ih (fun j hj => hl j (by simp [hj]))]
    split
    · have := hl i (by simp)
      exact SMap.find_put_ne _ _ (by omega)
    · rfl

theorem find_putWord (m : List Host.Cell) {w a : Nat} (g : Gran) (mask : BitVec 64) (ha : a / 64 ≠ w) :
    SMap.find (putWord m w g mask) a = SMap.find m a :=
  find_putWord_foldl _ (fun _ hi => List.mem_range.1 hi) w g mask m a ha

/-! ### The operations -/

theorem Dev.storePoison_wf {d : Dev} (h : Memory.wf d = true) (w : Nat) : Memory.wf (d.storePoison w) = true := by
  have h' := (Memory.wf_iff d).1 h
  refine Memory.wf_of_sub h (SMap.rising_filter h'.1 _) (SMap.rising_put h'.2.1 _ _) fun c hc => ?_
  exact ⟨List.mem_of_mem_filter hc, fun hz => by
    rwa [Dev.under_congr (d := d) (e := d.storePoison w) rfl rfl rfl] at hz⟩

theorem Dev.storeWord_wf {d : Dev} (h : Memory.wf d = true) (w : Nat) (g : Gran) (mask : BitVec 64) :
    Memory.wf (d.storeWord w g mask) = true := by
  have h' := (Memory.wf_iff d).1 h
  have hu : ∀ v, (d.storeWord w g mask).under v = d.under v := fun v => Dev.under_congr rfl rfl rfl v
  rw [Memory.wf_iff]
  refine ⟨?_, SMap.rising_drop h'.2.1 _, fun c hc hz => ?_⟩
  · simp only [Dev.storeWord]
    split
    · exact SMap.rising_filter (putWord_rising h'.1 _ _ _) _
    · exact putWord_rising h'.1 _ _ _
  · rw [hu] at hz
    simp only [Dev.storeWord] at hc
    have hm : c ∈ putWord d.mem.cells w g mask := by
      split at hc
      · exact List.mem_of_mem_filter hc
      · exact hc
    rcases mem_putWord hm with hm | hm
    · exact h'.2.2 c hm hz
    · rw [hm] at hz
      rw [if_pos hz.1] at hc
      simpa [hm, hz.2] using (List.mem_filter.1 hc).2

theorem Dev.setBank_wf (d : Dev) (b : Nat) (x : Bank) : Memory.wf (d.setBank b x) = Memory.wf d :=
  Memory.wf_congr rfl rfl rfl rfl rfl

theorem Dev.bump_wf (d : Dev) (c n : Nat) : Memory.wf (d.bump c n) = Memory.wf d := Memory.wf_congr rfl rfl rfl rfl rfl

/-- A layer of a word is that of its part of the address space. -/
theorem Dev.layerOf_half (d : Dev) {a b : Nat} (h : a / 2 ^ 31 = b / 2 ^ 31) : d.layerOf a = d.layerOf b := by
  have hp : partOf a = partOf b := by simp only [partOf]; omega
  have hb : a / 2 ^ 31 % 2 = b / 2 ^ 31 % 2 := by rw [h]
  simp only [Dev.layerOf, hp, hb]

/-- Whether an area holds a word. -/
def Area.has (w : Nat) (e : Area) : Bool := w * 64 / 2 ^ 31 == e.key && decide (e.lo ≤ w * 64) && decide (w * 64 < e.hi)

/-- What unlisted bytes of a word read, where no area holds it. -/
def Dev.underLayer (d : Dev) (w : Nat) : Area :=
  let ly := d.layer (d.layerOf (w * 64))
  { lo := 0, hi := 0, epoch := ly.epoch, zero := ly.filled, marched := ly.marched }

theorem Dev.under_eq (d : Dev) (w : Nat) : d.under w = (d.mem.areas.find? (Area.has w)).getD (d.underLayer w) := by
  unfold Dev.under Dev.underLayer
  change (match d.mem.areas.find? (Area.has w) with
    | some e => e
    | none => _) = _
  cases d.mem.areas.find? (Area.has w) <;> rfl

/-- An area that holds a word lies in its layer. -/
theorem Area.has_layer {d : Dev} {w : Nat} {e : Area} (h : Area.has w e = true) :
    d.layerOf (e.key * 2 ^ 31) = d.layerOf (w * 64) := by
  simp only [Area.has, Bool.and_eq_true, beq_iff_eq] at h
  rw [← h.1.1]
  exact d.layerOf_half (by omega)

theorem Dev.under_wipe {d e : Dev} {i : Nat} (hf : e.fronds = d.fronds)
    (ha : e.mem.areas = d.mem.areas.filter (fun x => d.layerOf (x.key * 2 ^ 31) != i))
    (hl : ∀ k, k ≠ i → e.layer k = d.layer k) {w : Nat} (hw : d.layerOf (w * 64) ≠ i) : e.under w = d.under w := by
  have ho : ∀ a, e.layerOf a = d.layerOf a := fun a => by simp only [Dev.layerOf, Dev.phys, Dev.frond, hf]
  have hfind : e.mem.areas.find? (Area.has w) = d.mem.areas.find? (Area.has w) := by
    rw [ha, List.find?_filter]
    congr 1
    funext x
    by_cases hk : Area.has w x = true
    · have h1 : (d.layerOf (x.key * 2 ^ 31) != i) = true := by
        rw [Area.has_layer hk]
        exact bne_iff_ne.2 hw
      rw [h1, hk]; rfl
    · rw [Bool.not_eq_true] at hk
      rw [hk, decide_eq_false (by simp)]
  rw [Dev.under_eq, Dev.under_eq, hfind]
  simp only [Dev.underLayer, ho, hl _ hw]

theorem Dev.wipeLayer_wf {d : Dev} (h : Memory.wf d = true) (i : Nat) : Memory.wf (d.wipeLayer i) = true := by
  have h' := (Memory.wf_iff d).1 h
  have hl : ∀ k, k ≠ i → (d.wipeLayer i).layer k = d.layer k := fun k hk => by
    simp [Dev.wipeLayer, Dev.layer, hk]
  refine Memory.wf_of_sub h (SMap.rising_filter h'.1 _) (SMap.rising_filter h'.2.1 _) fun c hc => ?_
  have hm := List.mem_filter.1 hc
  refine ⟨hm.1, fun hz => ?_⟩
  have hw : d.layerOf (c.1 / 64 * 64) ≠ i := by
    rw [d.layerOf_half (b := c.1) (by omega)]
    exact bne_iff_ne.1 hm.2
  rwa [Dev.under_wipe (d := d) (e := d.wipeLayer i) rfl rfl hl hw] at hz

/-- A march of a layer that lists no cell keeps the form, whatever it fills. -/
theorem Dev.marchLayer_wf {d : Dev} (h : Memory.wf d = true) {i : Nat} (fill : Bool)
    (he : ∀ c ∈ d.mem.cells, d.layerOf c.1 ≠ i) : Memory.wf (d.marchLayer i fill) = true := by
  have h' := (Memory.wf_iff d).1 h
  refine Memory.wf_of_sub h h'.1 h'.2.1 fun c hc => ⟨hc, fun hz => ?_⟩
  have hw : d.layerOf (c.1 / 64 * 64) ≠ i := by
    rw [d.layerOf_half (b := c.1) (by omega)]
    exact he c hc
  have hk : (d.marchLayer i fill).layerOf (c.1 / 64 * 64) = d.layerOf (c.1 / 64 * 64) := rfl
  have hl : (d.marchLayer i fill).layer (d.layerOf (c.1 / 64 * 64)) = d.layer (d.layerOf (c.1 / 64 * 64)) := by
    simp [Dev.marchLayer, Dev.layer, hw]
  simp only [Dev.under, hk, hl] at hz ⊢
  exact hz

/-- A layer just wiped lists no cell. -/
theorem Dev.wipeLayer_empty (d : Dev) (i : Nat) : ∀ c ∈ (d.wipeLayer i).mem.cells, (d.wipeLayer i).layerOf c.1 ≠ i := by
  intro c hc
  have h : (d.wipeLayer i).layerOf c.1 = d.layerOf c.1 := rfl
  rw [h]
  exact bne_iff_ne.1 (List.mem_filter.1 hc).2

/-- Areas put first keep the form, where none of them reads 0. -/
theorem Memory.wf_areas_first {d e : Dev} (h : Memory.wf d = true) (hr : SMap.rising e.mem.cells = true)
    (hp : SMap.rising e.mem.poison = true) (hc : ∀ c ∈ e.mem.cells, c ∈ d.mem.cells) (new : List Area)
    (ha : e.mem.areas = new ++ d.mem.areas) (hn : ∀ x ∈ new, x.zero = false) (hl : e.mem.layers = d.mem.layers)
    (hf : e.fronds = d.fronds) : Memory.wf e = true := by
  refine Memory.wf_of_sub h hr hp fun c hm => ⟨hc c hm, fun hz => ?_⟩
  have hu : e.underLayer (c.1 / 64) = d.underLayer (c.1 / 64) := by
    simp only [Dev.underLayer, Dev.layer, Dev.layerOf, Dev.phys, Dev.frond, hl, hf]
  rw [Dev.under_eq, ha, List.find?_append, hu] at hz
  rw [Dev.under_eq]
  cases hx : new.find? (Area.has (c.1 / 64)) with
  | none => simpa [hx] using hz
  | some x => simp [hx, hn x (List.mem_of_find?_eq_some hx)] at hz

/-- Areas put last keep the form, where each reads as its layer does. -/
theorem Memory.wf_areas_last {d e : Dev} (h : Memory.wf d = true) (hc : e.mem.cells = d.mem.cells)
    (hp : e.mem.poison = d.mem.poison) (new : List Area) (ha : e.mem.areas = d.mem.areas ++ new)
    (hn : ∀ x ∈ new, x.zero = (d.layer (d.layerOf (x.key * 2 ^ 31))).filled) (hl : e.mem.layers = d.mem.layers)
    (hf : e.fronds = d.fronds) : Memory.wf e = true := by
  have h' := (Memory.wf_iff d).1 h
  refine Memory.wf_of_sub h (hc ▸ h'.1) (hp ▸ h'.2.1) fun c hm => ⟨hc ▸ hm, fun hz => ?_⟩
  have hu : e.underLayer (c.1 / 64) = d.underLayer (c.1 / 64) := by
    simp only [Dev.underLayer, Dev.layer, Dev.layerOf, Dev.phys, Dev.frond, hl, hf]
  rw [Dev.under_eq, ha, List.find?_append, hu] at hz
  rw [Dev.under_eq]
  cases ho : d.mem.areas.find? (Area.has (c.1 / 64)) with
  | some x => simpa [ho] using hz
  | none =>
    rw [ho] at hz
    cases hx : new.find? (Area.has (c.1 / 64)) with
    | none => simpa [hx] using hz
    | some x =>
      have hk := Area.has_layer (d := d) (List.find?_some hx)
      rw [hx, Option.none_or, Option.getD_some, hn x (List.mem_of_find?_eq_some hx), hk] at hz
      exact hz

theorem Dev.unwrite_wf {d : Dev} (h : Memory.wf d = true) (p lo hi : Nat) : Memory.wf (d.unwrite p lo hi) = true := by
  have h' := (Memory.wf_iff d).1 h
  refine Memory.wf_areas_first h (SMap.rising_filter h'.1 _) (SMap.rising_filter h'.2.1 _)
    (fun c hc => List.mem_of_mem_filter hc) _ rfl (fun x hx => ?_) rfl rfl
  obtain ⟨y, -, rfl⟩ := List.mem_map.1 hx
  rfl

theorem Dev.keepUnder_wf {d : Dev} (h : Memory.wf d = true) (p mib : Nat) : Memory.wf (d.keepUnder p mib) = true := by
  refine Memory.wf_areas_last h rfl rfl _ rfl (fun x hx => ?_) rfl rfl
  obtain ⟨y, -, rfl⟩ := List.mem_map.1 hx
  simp only
  rw [d.layerOf_half (a := y.1) (b := y.1 / 2 ^ 31 * 2 ^ 31) (by omega)]

end Sys2Proof.Machine
end

