-- ==== Sys2Proof/Tests/Slice0.lean ====
section
/-! SUPPORT. Tests of the model: for every statement with hypotheses, states and operands that meet them clause by clause;
the checks of well-formedness; single steps whose results the manual gives. -/

set_option Elab.async false

namespace Sys2Proof.Tests

open Sys2Proof Sys2Proof.Machine

/-! ### Small states -/

/-- A module in operation with every domain ON: window set 0 grants both spaces, and memory that nothing has written reads
0. -/
def dev : Dev :=
  let mem : MemS := { layers := (List.range 32).map (fun i => (i, { ({} : MemLayer) with marched := true, filled := true })) }
  let win : SecWin := { win := [(0, 0xF0000000#32), (1, 0x4FFFFFFF#32), (4, 0xF0000000#32), (5, 0x5FFFFFFF#32)], installed := [0] }
  { State.reset.dev with mem := mem, win := win, pwr := {}, bup := { State.reset.dev.bup with stage := 7, state := 1 } }

def st (d : Dev) : State := { State.reset with dev := d }

/-- An instruction word of a frond from (value, low bit) fields. -/
def insn (l : List (Nat × Nat)) : BitVec 128 := BitVec.ofNat 128 (l.foldl (fun a e => a + e.1 * 2 ^ e.2) 0)

/-- A running unit of a kind on a target. -/
def unitOf (kind target : Nat) : WUnit :=
  { key := 1, seq := 0, index := 0, uid := 0, kind := kind, batch := false, cont := false, budget := 0, target := target
    gemMask := 1#8, wset := 0, phase := 1 }

/-- Frond 0, as x gives it, at instruction b of a program of two. -/
def frondAt (x : Frond) (b : BitVec 128) : Dev :=
  { dev with units := [unitOf 0 0], nextU := 2, fronds := [(0, { x with up := true, unit := 1, store := [(0, b)], len := 2 })] }

/-- What the statements of a frond's instructions assume of every one of them. -/
def Stands (x : Frond) (b : BitVec 128) : Prop := (frondAt x b).alive = true ∧ Issues (frondAt x b) 0 (unitOf 0 0) b

theorem stands (x : Frond) (b : BitVec 128)
    (h : x.pc = 0 ∧ x.storeP = [] ∧ (opFields (opOf b)).isSome = true ∧ bitsClean b = true) : Stands x b := by
  obtain ⟨h1, h2, h3, h4⟩ := h
  refine ⟨rfl, rfl, ?_, ?_, ?_, h3, h4⟩ <;>
    simp [frondAt, Dev.frond, SMap.get, SMap.find, h1, h2]

/-! ### The queue and the machine -/

theorem witness_StepTakesFront : State.reset.pending = [] := rfl

/-- A module without power, and a command that is none of the pins'. -/
theorem witness_StoppedModuleKeeps :
    Dev.alive { dev with bup := { dev.bup with powered := false } } = false ∧ ofPins (.nop 0) = false := ⟨rfl, rfl⟩

theorem witness_SettledModuleRests : Settled dev :=
  ⟨rfl, fun _ h => by simp [dev, State.reset, Dev.reset] at h, fun _ h => by simp [dev, State.reset, Dev.reset] at h, fun _ => rfl,
    fun _ h => by simp [dev, State.reset, Dev.reset] at h, rfl, rfl, by decide, by decide⟩

theorem witness_OneTimeMemoryOneWay : step { State.reset with pending := [.nop 0] } = .next { st State.reset.dev.finish with pending := [] } := rfl

/-! ### Fronds -/

theorem witness_FrondScalarResults :
    Stands {} 0#128 ∧
    Stands { sreg := [(1, 5#64)] } (insn [(0x08, 0), (1, 8), (16, 9), (63, 14), (1, 20), (7, 32)]) ∧
    (let b := insn [(0x08, 0), (63, 14), (1, 20), (2, 26)]
     Stands {} b ∧ fld b 9 5 ≤ 16 ∧ (frondAt {} b).pendingReg 0 63 = false ∧ (frondAt {} b).pendingReg 0 2 = false) ∧
    (let b := insn [(0x08, 0), (17, 9)]
     Stands {} b ∧ fld b 9 5 = 17) ∧
    (let b := insn [(0x0C, 0), (2, 8), (5, 14)]
     Stands {} b ∧ (frondAt {} b).now ≤ 0 ∧ fld b 14 6 = 5) :=
  ⟨stands _ _ (by decide), stands _ _ (by decide), ⟨stands _ _ (by decide), by decide, by decide, by decide⟩,
    ⟨stands _ _ (by decide), by decide⟩, stands _ _ (by decide), by decide, by decide⟩

theorem witness_FrondIssueAdvances :
    let x (pc : Nat) (ls : List LoopLv) : Frond := (frondAt { pc := pc, loops := ls } 0#128).frond 0
    ((x 0 []).loops = [] ∧ (x 0 []).pc + 1 < (x 0 []).len) ∧
    ((x 1 []).loops = [] ∧ (x 1 []).len ≤ (x 1 []).pc + 1) ∧
    ((x 0 [⟨0, 1, 2⟩]).loops = [⟨0, 1, 2⟩] ∧ 1 ≠ (x 0 [⟨0, 1, 2⟩]).pc ∧ (x 0 [⟨0, 1, 2⟩]).pc + 1 < (x 0 []).len) ∧
    ((x 1 [⟨0, 1, 2⟩]).loops = [⟨0, 1, 2⟩] ∧ 1 = (x 1 [⟨0, 1, 2⟩]).pc ∧ 0 < (x 1 [⟨0, 1, 2⟩]).len) ∧
    ((x 0 [⟨0, 0, 1⟩]).loops = [⟨0, 0, 1⟩] ∧ 0 = (x 0 [⟨0, 0, 1⟩]).pc ∧ (x 0 [⟨0, 0, 1⟩]).pc + 1 < (x 0 [⟨0, 0, 1⟩]).len) := by
  decide

theorem witness_FrondControlResults :
    (let b := insn [(0x10, 0), (6, 8), (1, 11), (2, 17), (1, 23)]
     Stands {} b ∧ fld b 8 3 < 7 ∧ fld b 23 14 < ((frondAt {} b).frond 0).len ∧ (frondAt {} b).pendingReg 0 1 = false ∧
     ((frondAt {} b).frond 0).pois 1 = false) ∧
    (let b := insn [(0x11, 0), (1, 14), (1, 46)]
     Stands {} b ∧ 0 < fld b 14 32 ∧ ((frondAt {} b).frond 0).pc + 1 ≤ fld b 46 14 ∧ fld b 46 14 < ((frondAt {} b).frond 0).len ∧
     ((frondAt {} b).frond 0).loops.length < 4) ∧
    Stands {} (insn [(0x14, 0), (3, 8), (1, 12)]) ∧ Stands {} (insn [(0x17, 0)]) :=
  ⟨⟨stands _ _ (by decide), by decide, by decide, by decide, by decide⟩, ⟨stands _ _ (by decide), by decide, by decide, by decide,
    by decide⟩, stands _ _ (by decide), stands _ _ (by decide)⟩

theorem witness_FrondCommitAndEnd :
    (let b := insn [(0x02, 0), (0xFFFE, 8)]
     Stands {} b ∧ fld b 8 16 ≠ 0xFFFF) ∧ Stands {} (insn [(0x01, 0)]) :=
  ⟨⟨stands _ _ (by decide), by decide⟩, stands _ _ (by decide)⟩

/-- SLD and SST of the last doubleword of device memory, SIG and WAITM of its last word. -/
theorem witness_FrondSmallAccesses :
    let x (a : DWord) : Frond := { sreg := [(1, a)] }
    let reg (a : DWord) (b : BitVec 128) (sa : Nat) (off : Int) : Prop :=
      (frondAt (x a) b).pendingReg 0 sa = false ∧ ((frondAt (x a) b).frond 0).pois sa = false ∧
      ((((frondAt (x a) b).frond 0).r sa).toNat : Int) + off = a.toNat ∧ a.toNat < 2 ^ 40
    let e : DWord := 0xFFFFFFFFF8#64
    let w : DWord := 0xFFFFFFFFFC#64
    (let b := insn [(0x0A, 0), (2, 8), (1, 14)]
     Stands (x e) b ∧ reg e b 1 (sfld b 20 32) ∧ fld b 58 1 = 0 ∧ e.toNat % 8 = 0 ∧ (frondAt (x e) b).pendingReg 0 2 = false) ∧
    (let b := insn [(0x0B, 0), (2, 8), (1, 14)]
     Stands (x e) b ∧ reg e b 1 (sfld b 20 32) ∧ fld b 58 1 = 0 ∧ (frondAt (x e) b).pendingReg 0 2 = false) ∧
    (let b := insn [(0x16, 0), (1, 8), (7, 46)]
     Stands (x w) b ∧ reg w b 1 (sfld b 14 32) ∧ fld b 84 1 = 0 ∧ w.toNat % 4 = 0 ∧ (frondAt (x w) b).streamsOut 0 < 16) ∧
    (let b := insn [(0x15, 0), (1, 8), (5, 46)]
     Stands (x w) b ∧ reg w b 1 (sfld b 14 32) ∧ fld b 87 1 = 0 ∧ fld b 46 3 < 6) := by
  refine ⟨⟨stands _ _ ?_, ?_⟩, ⟨stands _ _ ?_, ?_⟩, ⟨stands _ _ ?_, ?_⟩, ⟨stands _ _ ?_, ?_⟩⟩ <;> decide

/-- Streams of the last granule of the operand store. -/
theorem witness_FrondStreams :
    let d (b : BitVec 128) : Dev := frondAt { sreg := [(1, 4096#64)] } b
    let ok (b : BitVec 128) (sa osa rowG rows : Nat) (stride off : Int) : Prop :=
      (d b).sthOn 0 = false ∧ (d b).streamsOut 0 < 16 ∧ (d b).pendingReg 0 sa = false ∧ ((d b).frond 0).pois sa = false ∧
      ((((d b).frond 0).r sa).toNat : Int) + off * 64 = 4096 ∧ stride % 64 = 0 ∧ rowsOut 4096 rowG rows stride = false ∧
      osa + rowG * rows ≤ 393216
    (let b := insn [(0x20, 0), (1, 14), (393215, 20), (1, 39), (1, 49)]
     Stands { sreg := [(1, 4096#64)] } b ∧ fld b 127 1 = 0 ∧
       ok b (fld b 14 6) (fld b 20 19) (cnt (fld b 39 10) 1024) (cnt (fld b 49 16) 65536) (sfld b 65 32) (sfld b 97 24)) ∧
    (let b := insn [(0x21, 0), (1, 14), (393215, 20), (1, 39), (1, 49)]
     Stands { sreg := [(1, 4096#64)] } b ∧ fld b 127 1 = 0 ∧
       ok b (fld b 14 6) (fld b 20 19) (cnt (fld b 39 10) 1024) (cnt (fld b 49 16) 65536) (sfld b 65 32) (sfld b 97 24)) ∧
    (let b := insn [(0x22, 0), (2, 8), (2, 10), (1, 17), (393215, 23), (1, 42), (1, 52)]
     Stands { sreg := [(1, 4096#64)] } b ∧ fld b 126 1 = 0 ∧ fld b 8 2 ≠ 3 ∧ fld b 10 2 ≠ 3 ∧
       ok b (fld b 17 6) (fld b 23 19) (cnt (fld b 42 10) 1024) (cnt (fld b 52 16) 65536) (sfld b 68 32) (sfld b 100 20)) := by
  refine ⟨⟨stands _ _ ?_, ?_⟩, ⟨stands _ _ ?_, ?_⟩, ⟨stands _ _ ?_, ?_⟩⟩ <;> decide

/-- Two granules in set 0, which grants them, and in set 1, which grants nothing. -/
theorem witness_IssueChecksWindows :
    let x : Xfer := { id := 0, mid := 0x915, kind := .sts, base := 0, n := 2, limit := 2 }
    (x.remote = none ∧ 0 < x.n ∧ x.next = 0 ∧ ∀ i < x.n, dev.allowed 0 0 x.kind.acc (x.addr i / 4096) = true) ∧
    (¬ dev.allowed 1 0 x.kind.acc (x.addr 0 / 4096) = true ∧ x.mid < 0x916) ∧
    (let d : Dev := { dev with win := { dev.win with win := [(0, 0xF0000000#32), (1, 0x40000000#32)] } }
     d.allowed 0 0 x.kind.acc (4032 / 4096) = true ∧ ¬ d.allowed 0 0 x.kind.acc (4096 / 4096) = true) := by decide

theorem witness_ComputeInstructionsQueue :
    ((frondAt {} 0#128).frond 0).cq.length < 8 ∧
    (let b := insn [(0x30, 0), (1, 8), (1, 25), (12, 15), (12, 19)]
     Stands {} b ∧ noneOf (topCodes ((frondAt {} b).frond 0).classAhead (topF b)) = true) ∧
    (let b := insn [(0x31, 0), (15, 8), (2, 12)]
     Stands {} b ∧ fld b 8 4 ≠ 0 ∧ fld b 12 2 ≠ 3) ∧
    (let b := insn [(0x32, 0), (1, 8), (12, 12)]
     Stands {} b ∧ noneOf (tmoviCodes b) = true) ∧
    (let b := insn [(0x33, 0), (1, 8), (12, 12)]
     Stands {} b ∧ noneOf (tmovoCodes ((frondAt {} b).frond 0).classAhead b) = true) ∧
    (let b := insn [(0x34, 0), (1, 8)]
     Stands {} b ∧ noneOf (tmovrCodes ((frondAt {} b).frond 0).classAhead b) = true) ∧
    (let b := insn [(0x38, 0), (12, 8), (1000, 31), (1, 50)]
     Stands {} b ∧ noneOf (turnCodes b) = true) ∧
    (let b := insn [(0x40, 0), (2, 8), (12, 14), (12, 18), (100, 39), (200, 73), (64, 90)]
     Stands {} b ∧ noneOf (rowCodes b) = true) ∧
    (let b := insn [(0x41, 0)]
     Stands {} b ∧ noneOf (topkrCodes b) = true) ∧
    Stands {} (insn [(0x42, 0)]) := by
  refine ⟨by decide, ⟨stands _ _ ?_, ?_⟩, ⟨stands _ _ ?_, ?_⟩, ⟨stands _ _ ?_, ?_⟩, ⟨stands _ _ ?_, ?_⟩, ⟨stands _ _ ?_, ?_⟩,
    ⟨stands _ _ ?_, ?_⟩, ⟨stands _ _ ?_, ?_⟩, ⟨stands _ _ ?_, ?_⟩, stands _ _ ?_⟩ <;> decide

theorem witness_ComputeInstructionEffects :
    opOf (insn [(0x42, 0)]) = 0x42 ∧
    (let e : CQ := { n := 0, ip := 0, bits := insn [(0x31, 0), (9, 8), (1, 15)], started := true }
     ((frondAt { cq := [e] } 0#128).frond 0).cq = [e] ∧ opOf e.bits = 0x31) := by decide

theorem witness_UnitEndingsAndCarries :
    let d := frondAt {} 0#128
    (d.unit (d.frond 0).unit = some (unitOf 0 0) ∧ (unitOf 0 0).phase = 1) ∧
    ((d.units.map (·.key)).Nodup ∧ (d.units.filter (fun u => u.phase != 3 && decide (0 < u.carried))).length ≤ 512) ∧
    (∀ u ∈ d.units, u.key < d.nextU) := by decide

/-- A transfer of frond 0 with nothing left, and one with a granule ready. -/
def frondXfer (kind : XKind) (gr : List XGr) : Xfer :=
  { id := 1, mid := 0, kind := kind, base := 0, n := 1, limit := 1, next := 1, gr := gr }

theorem witness_FrondWaitsAndStreams :
    let d (x : Xfer) : Dev := { frondAt {} 0#128 with xfers := [x], nextX := 2 }
    let r : XGr := { i := 0, stage := 1, status := 1 }
    (d (frondXfer .waitm [])).alive = true ∧
    (((d (frondXfer .waitm [])).issuing 0).isSome = true ∧ (d (frondXfer .waitm [])).xfers.find?
      (fun y => y.mid == 0 && y.kind == .waitm && y.next == 1 && y.gr.isEmpty && y.sent.isEmpty) = some (frondXfer .waitm [])) ∧
    (d (frondXfer .sts [])).xfer 1 = some (frondXfer .sts []) ∧
    ((d (frondXfer .lds [r])).xfer 1 = some (frondXfer .lds [r]) ∧ r.status < 4 ∧
      (frondXfer .lds [r]).gr.find? (fun y => y.i == r.i && y.stage == 1) = some r) ∧
    (d (frondXfer .sts [r])).xfer 1 = some (frondXfer .sts [r]) := by decide +kernel

/-- A descriptor of MERGE with n rows of two parts. -/
def mergeDesc (n : Nat) : List Word :=
  [166020#32, 16842753#32, 0#32, 1#32, 0#32, 0#32, 0#32, 0#32, 0#32, 0#32, 0#32, 0#32, BitVec.ofNat 32 n, 2#32, 0#32, 0#32]

theorem witness_AttentionCommands :
    (let b := insn [(0x48, 0), (1, 15)]
     let d := frondAt {} b
     Stands {} b ∧ fld b 8 2 = 0 ∧ fld b 10 1 = 0 ∧ (((d.frond 0).r 1).toNat : Int) + sfld b 21 32 = 0 ∧
       (d.frond 0).att.running = false) ∧
    (let b := insn [(0x48, 0), (1, 8)]
     let att : AttRun := { desc := mergeDesc 1, fresh := true }
     Stands { att := att } b ∧ fld b 8 2 = 1 ∧ ADesc.bad ⟨att.desc⟩ att.arena att.fresh = false) ∧
    (let d := frondAt { att := { rdesc := mergeDesc 65, running := true } } 0#128
     d.issuing 0 = some (unitOf 0 0) ∧ ADesc.mode ⟨(d.frond 0).att.rdesc⟩ = 4 ∧
       64 * ((d.frond 0).att.tile + 1) < ADesc.nq ⟨(d.frond 0).att.rdesc⟩ ∧ ADesc.lse ⟨(d.frond 0).att.rdesc⟩ = false) := by
  refine ⟨⟨stands _ _ ?_, ?_⟩, ⟨stands _ _ ?_, ?_⟩, ?_⟩ <;> decide +kernel

/-! ### Gemmas -/

/-- A 32-bit instruction by its fields. -/
def rv (op rd f3 rs1 rs2 f7 : Nat) : Nat := op + rd * 2 ^ 7 + f3 * 2 ^ 12 + rs1 * 2 ^ 15 + rs2 * 2 ^ 20 + f7 * 2 ^ 25

/-- Gemma 0, as x gives it, at instruction w, its program's only one. -/
def gemmaAt (x : Gemma) (w : Nat) : Dev :=
  { dev with units := [unitOf 1 0], nextU := 2
             gemmas := [(0, { x with up := true, running := true, len := 4, sram := [(0, BitVec.ofNat 512 w)] })] }

/-- What the statements of a gemma's instructions assume of every one of a group. -/
def GStands (x : Gemma) (w : Nat) (k : GKind) : Prop :=
  (gemmaAt x w).alive = true ∧ GemIssues (gemmaAt x w) 0 (unitOf 1 0) (rvDecode32 w) k

theorem gstands (x : Gemma) (w : Nat) (k : GKind)
    (h : (gemmaAt x w).gemIssuing 0 = some (unitOf 1 0) ∧ ((gemmaAt x w).gemma 0).fetch = .word (some (rvDecode32 w)) ∧
      (rvDecode32 w).kind (((gemmaAt x w).gemma 0).fcsr / 32) = k) : GStands x w k := ⟨rfl, h.1, h.2.1, h.2.2⟩

/-- LUI, AUIPC, ADDI, ADD, MUL, JAL, JALR, BEQ and FENCE stand. -/
theorem witness_GemmaIntegerResults :
    (GStands {} 0xFFFFF0B7 .base ∧ (rvDecode32 0xFFFFF0B7).op = 0x37) ∧
    (GStands {} 0xFFFFF097 .base ∧ (rvDecode32 0xFFFFF097).op = 0x17) ∧
    (GStands {} 0x80008093 .base ∧ (rvDecode32 0x80008093).op = 0x13) ∧
    (GStands {} (rv 0x33 1 0 2 3 0) .base ∧ (rvDecode32 (rv 0x33 1 0 2 3 0)).f7 ≠ 1) ∧
    (GStands {} (rv 0x33 1 0 2 3 1) .base ∧ (rvDecode32 (rv 0x33 1 0 2 3 1)).f7 = 1) ∧
    (GStands {} 0x0000006F .base ∧ (rvDecode32 0x6F).op = 0x6F) ∧
    (GStands {} 0x00008067 .base ∧ (rvDecode32 0x8067).op = 0x67 ∧ ((gemmaAt {} 0x8067).gemma 0).px 1 = false) ∧
    (GStands {} 0x00208063 .base ∧ (rvDecode32 0x208063).op = 0x63 ∧ ((gemmaAt {} 0x208063).gemma 0).px 2 = false) ∧
    (GStands {} 0x0000000F .base ∧ (rvDecode32 0x0F).op = 0x0F) := by
  refine ⟨⟨gstands _ _ _ ?_, ?_⟩, ⟨gstands _ _ _ ?_, ?_⟩, ⟨gstands _ _ _ ?_, ?_⟩, ⟨gstands _ _ _ ?_, ?_⟩, ⟨gstands _ _ _ ?_, ?_⟩,
    ⟨gstands _ _ _ ?_, ?_⟩, ⟨gstands _ _ _ ?_, ?_⟩, ⟨gstands _ _ _ ?_, ?_⟩, ⟨gstands _ _ _ ?_, ?_⟩⟩ <;> decide +kernel

/-- LW, FLW, SW and FSW of the last word of the SRAM. -/
theorem witness_GemmaLoadsAndStores :
    let x : Gemma := { x := [(1, 0x1FFFC#32)] }
    let ok (w : Nat) (wr : Bool) : Prop :=
      let i := rvDecode32 w
      let d := gemmaAt x w
      let a := ((d.gemma 0).rx i.rs1 + BitVec.ofInt 32 i.imm).toNat
      GStands x w .base ∧ (d.gemma 0).px i.rs1 = false ∧ a % 4 = 0 ∧ a + 4 = 0x20000 ∧ 2 ^ (i.f3 % 4) = 4 ∧
        d.gemStall 0 a 4 wr = false
    ok (rv 0x03 2 2 1 0 0) false ∧ ok (rv 0x07 2 2 1 0 0) false ∧ ok (rv 0x23 0 2 1 2 0) true ∧ ok (rv 0x27 0 2 1 2 0) true := by
  refine ⟨⟨gstands _ _ _ ?_, ?_⟩, ⟨gstands _ _ _ ?_, ?_⟩, ⟨gstands _ _ _ ?_, ?_⟩, ⟨gstands _ _ _ ?_, ?_⟩⟩ <;> decide +kernel

/-- ECALL; CSRRW, CSRRS, CSRRC of 0x800; CSRRS of a counter with rs1 = x0. -/
theorem witness_GemmaSystemInstructions :
    GStands {} 0x00000073 .ecall ∧
    (GStands {} 0x800110F3 .csr ∧ (rvDecode32 0x800110F3).f3 % 4 = 1 ∧ ((gemmaAt {} 0x800110F3).gemma 0).px 2 = false) ∧
    (GStands {} 0x800120F3 .csr ∧ (rvDecode32 0x800120F3).f3 % 4 = 2 ∧ (rvDecode32 0x800120F3).rs1 ≠ 0) ∧
    (GStands {} 0x800130F3 .csr ∧ (rvDecode32 0x800130F3).f3 % 4 = 3 ∧ (rvDecode32 0x800130F3).rs1 ≠ 0) ∧
    (GStands {} 0xC02020F3 .csr ∧ (rvDecode32 0xC02020F3).rs1 = 0 ∧ ((rvDecode32 0xC02020F3).imm % 4096).toNat = 0xC02) := by
  refine ⟨gstands _ _ _ ?_, ⟨gstands _ _ _ ?_, ?_⟩, ⟨gstands _ _ _ ?_, ?_⟩, ⟨gstands _ _ _ ?_, ?_⟩, ⟨gstands _ _ _ ?_, ?_⟩⟩ <;>
    decide +kernel

theorem witness_ProgramFetchFaults :
    (let d := frondAt { storeP := [(0, ())] } 0#128
     d.issuing 0 = some (unitOf 0 0) ∧ (d.frond 0).pc < (d.frond 0).len ∧ ((d.frond 0).storeP.find (d.frond 0).pc).isSome = true) ∧
    (let d := frondAt {} 0xFF#128
     d.issuing 0 = some (unitOf 0 0) ∧ opFields (opOf ((d.frond 0).store.get (d.frond 0).pc 0#128)) = none) ∧
    (let d := gemmaAt { pc := 4 } 0
     d.gemIssuing 0 = some (unitOf 1 0) ∧ (d.gemma 0).fetch = .past) ∧
    ((gemmaAt { sramP := [(0, ())] } 0).gemma 0).fetch = .poison ∧ ((gemmaAt {} 0).gemma 0).fetch = .word none ∧
    (((gemmaAt {} 0x7F).gemma 0).fetch = .word (some (rvDecode32 0x7F)) ∧ (rvDecode32 0x7F).kind 0 = .illegal) := by
  decide +kernel

/-- The last granule of the first half of the gemma's memory and the last of staging. -/
theorem witness_GemmaBankTransfers :
    let x : Gemma := { x := [(1, 0x1FFFFFC0#32), (2, 1023#32)] }
    let ok (w : Nat) (n : Nat) : Prop :=
      let i := rvDecode32 w
      let d := gemmaAt x w
      let y := d.gemma 0
      let a := (y.rx i.rs1).toNat
      GStands x w .transfer ∧ i.rd = 0 ∧ y.px i.rs1 = false ∧ y.px i.rs2 = false ∧ gbaBad a n = false ∧
        d.bankBusy 0 (gbaLin 0 a) = false ∧ d.gemAtomHeld 0 (gbaLin 0 a) n = false
    let sd (w : Nat) (wr : Bool) : Prop :=
      let d := gemmaAt x w
      let s := (d.gemma 0).rx 2
      sdRange s = false ∧ sdBad s = false ∧ d.gemStall 0 (0x10000 + 64 * sdFirst s) (64 * sdCount s) wr = false
    (ok (rv 0x0B 0 0 1 2 1) 1 ∧ sd (rv 0x0B 0 0 1 2 1) true) ∧ (ok (rv 0x0B 0 1 1 2 0) 1 ∧ sd (rv 0x0B 0 1 1 2 0) false) ∧
    ok (rv 0x0B 0 2 1 3 0) 0 ∧
    (GStands x (rv 0x0B 0 6 0 0 31) .transfer ∧ (rvDecode32 (rv 0x0B 0 6 0 0 31)).f7 < 32) := by
  refine ⟨⟨⟨gstands _ _ _ ?_, ?_⟩, ?_⟩, ⟨⟨gstands _ _ _ ?_, ?_⟩, ?_⟩, ⟨gstands _ _ _ ?_, ?_⟩, ⟨gstands _ _ _ ?_, ?_⟩⟩ <;> decide +kernel

theorem witness_GemmaCacheTransfers :
    let x : Gemma := { x := [(1, 64#32), (2, 1023#32)] }
    let ok (w : Nat) (wr : Bool) : Prop :=
      let i := rvDecode32 w
      let d := gemmaAt x w
      let s := (d.gemma 0).rx i.rs2
      GStands x w .transfer ∧ i.rd = 0 ∧ (d.gemma 0).px i.rs1 = false ∧ (d.gemma 0).px i.rs2 = false ∧
        (d.gemma 0).caddr i.rs1 % 64 = 0 ∧ sdRange s = false ∧ sdBad s = false ∧ d.cachePath 0 < 8 ∧
        d.gemStall 0 (0x10000 + 64 * sdFirst s) (64 * sdCount s) wr = false
    ok (rv 0x0B 0 3 1 2 3) true ∧ ok (rv 0x0B 0 4 1 2 2) false ∧ ok (rv 0x0B 0 5 1 2 10) false := by
  refine ⟨⟨gstands _ _ _ ?_, ?_⟩, ⟨gstands _ _ _ ?_, ?_⟩, ⟨gstands _ _ _ ?_, ?_⟩⟩ <;> decide +kernel

/-- A vector of 32 elements at the start of staging, in format f. -/
def vecAt (f : Nat) : Gemma :=
  { x := [(1, 0x10000#32)], f := [(3, canonNan)], csr := [(0x802, BitVec.ofNat 32 f), (0x803, 1#32)]
    v := [(5, { int := true })] }

theorem witness_GemmaVectorOperands :
    let ok (f w : Nat) (ill fmt wr : Bool) : Prop :=
      GStands (vecAt f) w .vector ∧ (gemmaAt (vecAt f) w).opChk 0 (rvDecode32 w).rs1 ill fmt wr = .ok
    (ok 9 (rv 0x2B 15 0 1 0 0) (hi16 15 || (0 : Nat) != 0) false false ∧ fmtInt ((gemmaAt (vecAt 9) 0).gemma 0).gfmt = true) ∧
    ok 0 (rv 0x2B 15 0 1 0 0) (hi16 15 || (0 : Nat) != 0) false false ∧
    (ok 12 (rv 0x2B 0 0 1 4 1) (hi16 4) (clsBad (vecAt 12) 4 (fmtInt 12)) true ∧ (vecAt 12).gfmt = 12) ∧
    (ok 12 (rv 0x2B 3 0 1 4 2) (hi16 4) (fmtInt 12 || clsBad (vecAt 12) 4 false) false ∧
      (f32 ((gemmaAt (vecAt 12) 0).gemma 0).f[0]!.2).isNan = true) ∧
    ok 12 (rv 0x2B 4 0 1 3 3) (hi16 4) (fmtInt 12 || clsBad (vecAt 12) 4 false) false ∧
    ok 12 (rv 0x2B 4 0 1 6 4) (hi16 4 || hi16 6) (clsBad (vecAt 12) 4 false || clsBad (vecAt 12) 6 false) false ∧
    ok 9 (rv 0x2B 5 0 1 5 5) (hi16 5 || hi16 5) (clsBad (vecAt 9) 5 true || clsBad (vecAt 9) 5 true) false := by
  refine ⟨⟨⟨gstands _ _ _ ?_, ?_⟩, ?_⟩, ⟨gstands _ _ _ ?_, ?_⟩, ⟨⟨gstands _ _ _ ?_, ?_⟩, ?_⟩, ⟨⟨gstands _ _ _ ?_, ?_⟩, ?_⟩, ⟨gstands _ _ _ ?_, ?_⟩,
    ⟨gstands _ _ _ ?_, ?_⟩, ⟨gstands _ _ _ ?_, ?_⟩⟩ <;> decide +kernel

/-- Vector 5 is an integer vector, the others are not. -/
theorem witness_GemmaVectorRegisters :
    let x := vecAt 12
    let ok (w : Nat) : Prop := GStands x w .vector ∧ (rvDecode32 w).rs1 < 16 ∧ (x.vec (rvDecode32 w).rs1).int = false
    (ok (rv 0x2B 15 0 1 2 6) ∧ (x.vec 15).int = false ∧ (x.vec 2).int = false) ∧ ok (rv 0x2B 15 0 1 3 7) ∧
    ok (rv 0x2B 15 0 2 1 8) ∧ ok (rv 0x2B 3 0 4 0 9) ∧ ([0#32] : List Word) ≠ [] ∧ ok (rv 0x2B 3 0 4 0 10) ∧ ok (rv 0x2B 3 0 15 0 11) ∧
    ok (rv 0x2B 3 0 4 0 12) ∧ ok (rv 0x2B 3 0 4 0 13) := by
  refine ⟨⟨⟨gstands _ _ _ ?_, ?_⟩, ?_⟩, ⟨gstands _ _ _ ?_, ?_⟩, ⟨gstands _ _ _ ?_, ?_⟩, ⟨gstands _ _ _ ?_, ?_⟩, ?_,
    ⟨gstands _ _ _ ?_, ?_⟩, ⟨gstands _ _ _ ?_, ?_⟩, ⟨gstands _ _ _ ?_, ?_⟩, ⟨gstands _ _ _ ?_, ?_⟩⟩ <;> decide +kernel

/-- Two equal extremes. -/
theorem witness_GemmaIntegerExtremes : ([5#32, -7#32, -7#32] : List Word) ≠ [] ∧ iPick false [5#32, -7#32, -7#32] = -7#32 ∧
    argPick false true [5#32, -7#32, -7#32] = 1#32 := by decide +kernel

theorem witness_GemmaControlInstructions :
    let x : Gemma := { x := [(1, 0x1FFFC#32), (2, 4#32), (3, 0x1FFFFFC0#32), (4, 64#32)] }
    let ok (w : Nat) : Prop :=
      let i := rvDecode32 w
      let d := gemmaAt x w
      GStands x w .control ∧ d.xfers = [] ∧ (d.gemma 0).px i.rs1 = false ∧ (d.gemma 0).px i.rs2 = false ∧ (d.gemma 0).wrFail = 0
    (ok (rv 0x5B 0 0 28 31 127) ∧ 127 * 512 + 31 * 16 + 28 / 2 = 0xFFFE ∧ (gemmaAt x 0).barrierId (unitOf 1 0) = none) ∧
    ok (rv 0x5B 0 1 0 0 0) ∧
    (ok (rv 0x5B 0 2 1 2 0) ∧ ((gemmaAt x 0).gemma 0).caddr 1 % 4 = 0 ∧ (gemmaAt x 0).cachePath 0 < 8) ∧
    ok (rv 0x5B 0 3 1 2 5) ∧
    (ok (rv 0x5B 0 4 3 4 3) ∧ (x.rx 3).toNat < 2 ^ 29 ∧ (x.rx 3).toNat % 2 ^ 27 + (x.rx 4).toNat = 2 ^ 27) ∧
    (ok (rv 0x5B 5 5 1 2 0) ∧ (x.rx 1).toNat + (x.rx 2).toNat = 0x20000 ∧ (gemmaAt x 0).gemStall 0 0x1FFFC 4 false = false) ∧
    ok (rv 0x5B 5 6 1 0 0) ∧ ok (rv 0x5B 0 7 0 0 0) := by
  refine ⟨⟨⟨gstands _ _ _ ?_, ?_⟩, ?_⟩, ⟨gstands _ _ _ ?_, ?_⟩, ⟨⟨gstands _ _ _ ?_, ?_⟩, ?_⟩, ⟨gstands _ _ _ ?_, ?_⟩,
    ⟨⟨gstands _ _ _ ?_, ?_⟩, ?_⟩, ⟨⟨gstands _ _ _ ?_, ?_⟩, ?_⟩, ⟨gstands _ _ _ ?_, ?_⟩, ⟨gstands _ _ _ ?_, ?_⟩⟩ <;> decide +kernel

theorem witness_GemmaEnds :
    let x (k : XKind) : Xfer := { id := 1, mid := 0x100, kind := k, base := 0, n := 1, limit := 1, next := 1 }
    let d (k : XKind) : Dev := { gemmaAt {} 0 with xfers := [x k] }
    ((d .gLd).xfer 1 = some (x .gLd) ∧ (x .gLd).mid = gemmaMid 0 ∧ (d .gLd).unit 0 = none) ∧ (d .gLd).sealBusy (localBank 0 3) = false ∧
    (let e := gemmaAt { barrier := some 0 } 0
     e.unit 1 = some (unitOf 1 0) ∧ (unitOf 1 0).gemList = [0] ∧ (e.gemma 0).barrier = some 0) ∧
    (((d .gWaitm).gemIssuing 0).isSome = true ∧ (d .gWaitm).xfers.find?
      (fun y => y.mid == gemmaMid 0 && y.kind == .gWaitm && y.next == 1 && y.gr.isEmpty && y.sent.isEmpty) = some (x .gWaitm)) := by
  decide +kernel

/-- The highest register and another. -/
theorem witness_GemmaRegisters : (31 : Nat) ≠ 0 ∧ (30 : Nat) ≠ 31 := by decide

/-! ### Frames, plans and units -/

/-- A period of 1 ms; the internal generator where src is 1. -/
def framed (src : Nat) : Dev :=
  { dev with inForce := [(tickCtrl, BitVec.ofNat 32 (src + 1000 * 2 ^ 8))], frm := { dev.frm with opened := true } }

theorem witness_FrameTicks :
    (framed 0).alive = true ∧ (framed 0).bup.stage = 7 ∧ (framed 1).srcInternal = true ∧ (framed 0).srcInternal = false ∧
    (framed 0).frm.opened = true ∧ 2 * (499999 - (framed 0).lastTick) < (framed 0).periodNs ∧
    ((framed 0).periodNs ≤ 2 * (500000 - (framed 0).lastTick) ∧ (framed 0).frm.standIn = false ∧
      4000000 = (framed 0).lastTick + 4 * (framed 0).periodNs) ∧
    1000000 = (framed 1).lastTick + (framed 1).periodNs ∧
    (let d : Dev := { framed 0 with frm := { (framed 0).frm with standIn := true } }
     d.frm.opened = true ∧ d.frm.standIn = true ∧ d.frm.restore = false ∧ (d.reg tickCtrl).getLsbD 0 = false) := by decide +kernel

/-- A unit that has not started, of a kind and a length, and one that stopped with two endings. -/
def waitingUnit (kind length : Nat) : WUnit := { unitOf kind 0 with phase := 0, length := length }
def stoppedUnit : WUnit := { unitOf 0 0 with phase := 2, stops := [(8, 5), (12, 0)] }

theorem witness_PlansAndUnits :
    (dev.bup.stage = 7 ∧ (dev.slot 0).st ≠ 2) ∧ ((dev.setSlot 0 { st := 1 }).slot 0).st = 1 ∧ ((dev.setSlot 1 { st := 2 }).slot 1).st = 2 ∧
    (let d (u : WUnit) : Dev := { dev with units := [u] }
     ((d (waitingUnit 0 0)).unit 1 = some (waitingUnit 0 0) ∧ (d (waitingUnit 0 0)).ready (waitingUnit 0 0) = true ∧
       ((d (waitingUnit 0 0)).upTo 5).unavailable (waitingUnit 0 0) = 5) ∧
     ((d (waitingUnit 2 64)).ready (waitingUnit 2 64) = true ∧ ((d (waitingUnit 2 64)).upTo 5).unavailable (waitingUnit 2 64) = 0 ∧
       ((d (waitingUnit 2 64)).upTo 5).mustWait (waitingUnit 2 64) = false) ∧
     ((d stoppedUnit).unit 1 = some stoppedUnit ∧ (d stoppedUnit).drained stoppedUnit = true ∧ ∃ e ∈ stoppedUnit.stops, e.1 = 12)) := by
  refine ⟨by decide +kernel, by decide +kernel, by decide +kernel, ⟨by decide +kernel, by decide +kernel, by decide +kernel⟩⟩

/-! ### Banks, the rhizoid and the cache -/

theorem witness_BankReads :
    let p : Dev := { dev with mem := { dev.mem with poison := [(0, ())] } }
    p.stored 0 = true ∧ (dev.stored 0 = false ∧ dev.failMask 0 .rhizoid (.never 1#64) ≠ 0#64) ∧
    dev.failMask 0 .channel (.second 1#64) = 0#64 := by decide +kernel

/-- A word of stored poison, one never written, the full mask and a mask of one byte; a failed lane that carries byte 0. -/
theorem witness_BankWrites :
    let p : Dev := { dev with mem := { dev.mem with poison := [(0, ())] } }
    let l : Dev := dev.setRhz 0 { ({} : Rhz) with failed := [0] }
    (l.rhiz 0).deadBytes false 0 &&& 1#64 ≠ 0#64 ∧ (dev.rhiz 0).deadBytes true 0 &&& 1#64 = 0#64 ∧
    Memory.wf p = true ∧ p.stored 0 = true ∧ p.stored 1 = false ∧ (1#64 : BitVec 64) ≠ fullMask ∧ (1#64 : BitVec 64) ≠ 0#64 ∧
    fullMask ≠ 0#64 := by decide +kernel

theorem witness_BanksKeepForm : Memory.wf dev = true := by decide

/-- A transfer of frond 0 of one granule of its own partition, with its first piece to be performed. -/
def ownXfer (kind : XKind) : Xfer := { id := 1, mid := 0, kind := kind, base := 0, n := 1, limit := 1 }

theorem witness_RhizoidAccesses :
    let d (x : Xfer) : Dev := { frondAt {} 0#128 with xfers := [x], nextX := 2 }
    let ok (x : Xfer) : Prop := (d x).alive = true ∧ (d x).xfer x.id = some x ∧ (d x).mayPerform x = true ∧
      (d x).viaRhizoid x x.next = true ∧ x.gr.all (fun r => r.i != x.next) = true ∧ (d x).claimed 0 = false ∧
      (d x).partStatus 0 = 0 ∧ ((d x).half ((d x).home 0)).find 0 = none ∧
      ((d x).half ((d x).home 0)).evicts.any (fun e => e.cl.line == 0) = false ∧ ((d x).half ((d x).home 0)).ghost 0 = none
    (ok (ownXfer .lds) ∧ (d (ownXfer .lds)).unstableRead ((d (ownXfer .lds)).hacc (ownXfer .lds) 0) = false ∧
      (ownXfer .lds).deadLine = none ∧ (d (ownXfer .lds)).stored 0 = false ∧ (d (ownXfer .lds)).failMask 0 .rhizoid .good = 0#64) ∧
    (ok (ownXfer .sts) ∧ ((d (ownXfer .sts)).pieceData (ownXfer .sts) 0).2 = false ∧ (ownXfer .sts).maskOf 0 ≠ 0#64 ∧
      Memory.wf (d (ownXfer .sts)) = true ∧ (d (ownXfer .sts)).stored 0 = false ∧
      ((d (ownXfer .sts)).rhiz 0).deadBytes false 0 &&& (ownXfer .sts).maskOf 0 = 0#64) ∧
    (let e : Dev := { dev with win := { dev.win with frozen := [0x910], drains := [⟨0x910, 0, 0, 0, 0xFFFF, 7, false, 0, false⟩] } }
     e.win.drains.find? (fun r => r.mid == 0x910) = some ⟨0x910, 0, 0, 0, 0xFFFF, 7, false, 0, false⟩ ∧
       e.xfers.any (fun x => x.mid == 0x910) = false) := by decide +kernel

/-- A transfer over the cache path of gemma 0, and the line it hits, all of it valid, in way 0 of its set. -/
def cacheXfer (kind : XKind) : Xfer := { id := 1, mid := 0x100, kind := kind, base := 192, n := 1, limit := 1 }
def hitLine : CLine := { line := 0, valid := BitVec.allOnes 256, dirty := 1#256 }
def cacheDev (x : Xfer) : Dev := { gemmaAt {} 0 with xfers := [x], nextX := 2, halves := [(0, { lines := [(0, hitLine)] })] }

theorem witness_CacheAccesses :
    let ok (x : Xfer) : Prop :=
      let d := cacheDev x
      d.alive = true ∧ d.xfer x.id = some x ∧ d.mayPerform x = true ∧ d.viaRhizoid x x.next = false ∧ d.sigFails x = false ∧
      x.gr.all (fun r => r.i != x.next) = true ∧ x.word x.next = 3 ∧ d.targetStatus x.mid (x.addr x.next) = 0 ∧
      d.targetStatus x.mid (3 * 64) = 0 ∧ d.halfHeld (d.home (partOf (x.addr x.next))) = false ∧
      d.home (partOf (3 * 64)) = 0 ∧ (d.half 0).find 0 = some (0, hitLine) ∧ (d.half 0).evicts.any (fun e => e.cl.line == 0) = false ∧
      (d.half 0).fills.any (fun f => f.line == 0) = false ∧ hitLine.wPois 3 = false ∧
      x.maskOf x.next &&& ~~~ (hitLine.wValid 3) = 0#64 ∧ (d.pieceData x x.next).2 = false
    (ok (cacheXfer .gCrd) ∧ (cacheXfer .gCrd).kind.isRead = true ∧
      (let d := cacheDev (cacheXfer .gCrd)
       d.unstableRead (d.hacc (cacheXfer .gCrd) 0) = false ∧ hitLine.serves (d.hacc (cacheXfer .gCrd) 0) = true ∧
       (cacheXfer .gCrd).deadLine = none)) ∧
    ((cacheDev (cacheXfer .copyRead)).allowedAt 0 .read 192 = true ∧ (cacheXfer .copyRead).kind.isRead = true) ∧
    (ok (cacheXfer .gCwr) ∧ (cacheXfer .gCwr).kind.isRead = false ∧ (cacheXfer .gCwr).kind.isAtomic = false) ∧
    (ok (cacheXfer .gAtom) ∧ (cacheXfer .gAtom).kind.isRead = false ∧ (cacheXfer .gAtom).kind.isAtomic = true) := by
  refine ⟨⟨?_, ?_⟩, ?_, ⟨?_, ?_⟩, ⟨?_, ?_⟩⟩ <;> decide +kernel

/-- A fill of line 0 with its read waiting, and an eviction of it that has issued. -/
theorem witness_FillsAndEvictions :
    let a : HAcc := { x := 1, i := 0, mid := 0x100, w := 3, kind := 0 }
    let c : CLine := { line := 0, valid := 1#256, dirty := 1#256 }
    let f : Fill := { line := 0, way := 0, opened := 0, need := 8#4, waiters := [a] }
    let hf : Half := { lines := [(0, c)], fills := [f] }
    let v : Evict := { cl := c, closed := true }
    (hf.fills.find? (fun f => f.line == 0) = some f ∧ hf.find 0 = some (f.way, c) ∧ hf.lines.find f.way = some c ∧ c.pois = 0#4 ∧
      (∀ j < 4, dev.stored (4 * 0 + j) = false ∧ dev.failMask (4 * 0 + j) .channel .good = 0#64) ∧ dev.claimed 0 = false) ∧
    (({ evicts := [v] } : Half).evicts.find? (fun e => e.cl.line == 0 && e.closed) = some v ∧ Memory.wf dev = true ∧
      v.cl.wPois 0 = false ∧ v.cl.wDirty 0 ≠ 0#64 ∧ ∀ j < 4, (dev.rhiz 0).deadBytes true j &&& v.cl.wDirty j = 0#64) ∧
    2 * (dev.bank 8191).lastRef + 31250 ≤ 2 * 15625 := by decide +kernel

/-- The last byte of the device address space. -/
theorem witness_HostAddressBijection : hostToLinear true (2 ^ 40 - 1) = 0x00FFFFFFFF ∧ linearToHost true 0x00FFFFFFFF = 2 ^ 40 - 1 := by
  decide +kernel

/-! ### Links -/

def reqOf (pkt : BitVec 4) (space : BitVec 2) (addr : Nat) (rsn : Nat) (data : List Byte) : ReqHdr :=
  { pkt := pkt, space := space, lu := false, dst := 0#12, hops := 0#4, len := 4#13, aop := 0#2, afmt := 0#2
    addr := BitVec.ofNat 40 addr, rsn := BitVec.ofNat 48 rsn, tag := 0#32, data := data }

/-- Numbers just above, at, 4,095 below and 4,096 below the highest so far, by window. -/
theorem witness_ArrivalsClassified :
    let w (n : Nat) (done : Bool) : WinE := { rsn := n, hdr := reqOf 1#4 0#2 0 n [], done := done }
    let x : PortS := { st := 3, high := some 5000, win := [w 5000 true, w 4999 false] }
    rsnDiff 5001 5000 = 1 ∧ rsnDiff 904 5000 = -4096 ∧ rsnDiff 905 5000 = -4095 ∧
    x.win.find? (fun e => e.rsn == 905) = none ∧ x.win.find? (fun e => e.rsn == 5000) = some (w 5000 true) ∧
    x.win.find? (fun e => e.rsn == 4999) = some (w 4999 false) ∧ rsnDiff 0 (2 ^ 48 - 1) = 1 := by decide +kernel

/-- Port 0 ACTIVE. -/
def linked (x : PortS) : Dev := { dev with ports := [(0, { x with st := 3 })] }

theorem witness_RequestsBegin :
    let bytes : List Byte := [1#8, 2#8, 3#8, 4#8]
    let ok (d : Dev) (r : ReqHdr) : Prop := d.alive = true ∧ d.carries 0 (reqBytes r) = true ∧ r.dst.toNat = d.moduleId ∧
      malformed r = false ∧
      ∃ e, ((d.upTo 9).takePacket 0 (reqBytes r)).arrive 0 r = (e, .fresh)
    let d1 (d : Dev) (r : ReqHdr) : Dev := (((d.upTo 9).takePacket 0 (reqBytes r)).arrive 0 r).1
    let x (k : XKind) : Xfer := { id := 1, mid := 0x910, kind := k, base := 64, n := 1, limit := 1 }
    (ok (linked {}) (reqOf 1#4 0#2 124 1 []) ∧ (d1 (linked {}) (reqOf 1#4 0#2 124 1 [])).isFrozen 0x910 = false ∧
      (d1 (linked {}) (reqOf 1#4 0#2 124 1 [])).refusedPieces (x .portRead) = ([], [])) ∧
    (ok (linked {}) (reqOf 2#4 1#2 124 1 bytes) ∧
      (d1 (linked {}) (reqOf 2#4 1#2 124 1 bytes)).refusedPieces { x .portWrite with host := some false } = ([], [])) ∧
    (ok (linked {}) (reqOf 3#4 0#2 124 1 bytes) ∧ (d1 (linked {}) (reqOf 3#4 0#2 124 1 bytes)).refusedPieces (x .portAtomic) = ([], [])) ∧
    (ok (linked {}) (reqOf 1#4 2#2 0x1000000C 1 []) ∧ blk 0x1000000C < 0x11 ∧
      (d1 (linked {}) (reqOf 1#4 2#2 0x1000000C 1 [])).allowed 0 1 .read (0x1000000C / 4096) = true) ∧
    (ok (linked {}) (reqOf 2#4 2#2 0x01000008 1 bytes) ∧ authOnly 0x01000008 = false ∧
      (d1 (linked {}) (reqOf 2#4 2#2 0x01000008 1 bytes)).allowed 0 1 .write (0x01000008 / 4096) = true) ∧
    (ok (linked {}) (reqOf 2#4 2#2 0x0B000704 1 bytes) ∧ authOnly 0x0B000704 = true) ∧
    (let f : Dev := { linked {} with win := { dev.win with frozen := [0x910] } }
     ok f (reqOf 1#4 0#2 124 1 []) ∧ (d1 f (reqOf 1#4 0#2 124 1 [])).isFrozen 0x910 = true ∧ secRead (reqOf 1#4 0#2 124 1 []) = false) := by
  refine ⟨⟨⟨?_, ?_, ?_, ?_, _, rfl⟩, ?_⟩, ⟨⟨?_, ?_, ?_, ?_, _, rfl⟩, ?_⟩, ⟨⟨?_, ?_, ?_, ?_, _, rfl⟩, ?_⟩, ⟨⟨?_, ?_, ?_, ?_, _, rfl⟩, ?_⟩,
    ⟨⟨?_, ?_, ?_, ?_, _, rfl⟩, ?_⟩, ⟨⟨?_, ?_, ?_, ?_, _, rfl⟩, ?_⟩, ⟨⟨?_, ?_, ?_, ?_, _, rfl⟩, ?_⟩⟩ <;> decide +kernel

theorem witness_RequestsEnd :
    let o : OutReq := { rsn := 1, pkt := 1, queued := 0, limit := 10 }
    let d := linked { outs := [o] }
    let c (rsn : Nat) : CplHdr := { status := 0#4, sealRes := 0#3, dup := false, rsn := BitVec.ofNat 48 rsn, tag := 0#32, result := 0#16
                                    pmask := 0#64, data := [] }
    d.alive = true ∧ d.carries 0 (cplBytes (c 1)) = true ∧
    (((((d.upTo 9).takePacket 0 (cplBytes (c 2))).inc (cPort 0 27)).port 0).outs.find? (fun o => o.rsn == 2) = none) ∧
    (((((d.upTo 9).takePacket 0 (cplBytes (c 1))).inc (cPort 0 27)).port 0).outs.find? (fun o => o.rsn == 1) = some o) ∧
    (d.port 0).st = 3 ∧ o.queued + o.limit ≤ (d.port 0).active (max d.now 10) := by decide +kernel

/-- A flit with its first bytes as given, 248 at most, and a CRC that holds. -/
def flitOf (hd : List Byte) : List Byte :=
  let b := hd ++ List.replicate (248 - hd.length) 0#8
  b ++ leBytes 8 (crc64 b).toNat

theorem leBytes_succ (n v : Nat) : leBytes (n + 1) v = BitVec.ofNat 8 (v % 256) :: leBytes n (v / 256) := by
  simp only [leBytes, List.range_succ_eq_map, List.map_cons, List.map_map, bitsAt]
  refine congrArg₂ _ (by simp) (List.map_congr_left fun i _ => ?_)
  have e : 2 ^ (8 * (i + 1)) = 256 * 2 ^ (8 * i) := by rw [Nat.mul_succ, Nat.pow_add, Nat.mul_comm]
  show BitVec.ofNat 8 (v / 2 ^ (8 * (i + 1)) % 2 ^ 8) = BitVec.ofNat 8 (v / 256 / 2 ^ (8 * i) % 2 ^ 8)
  rw [e, Nat.div_div_eq_div_mul]

theorem leNat_leBytes (n v : Nat) (h : v < 256 ^ n) : leNat (leBytes n v) = v := by
  induction n generalizing v with
  | zero => simp [leBytes, leNat]; omega
  | succ n ih =>
    have h' : v / 256 < 256 ^ n := by rw [Nat.div_lt_iff_lt_mul (by decide)]; rwa [Nat.pow_succ] at h
    have e : leNat (leBytes n (v / 256)) = v / 256 := ih _ h'
    rw [leBytes_succ]
    simp only [leNat, List.foldr_cons] at e ⊢
    rw [e, BitVec.toNat_ofNat]
    omega

theorem flitOf_good (hd : List Byte) (h : hd.length ≤ 248) :
    (flitOf hd).length = 256 ∧ (crc64 ((flitOf hd).take 248)).toNat = atBytes (flitOf hd) 248 8 := by
  have hl : (hd ++ List.replicate (248 - hd.length) 0#8).length = 248 := by simp; omega
  have h8 (v : Nat) : (leBytes 8 v).length = 8 := by simp [leBytes]
  refine ⟨by simp only [flitOf, List.length_append (bs := leBytes _ _), hl, h8], ?_⟩
  simp only [flitOf, atBytes]
  rw [List.take_left' hl, List.drop_left' hl, List.take_of_length_le (Nat.le_of_eq (h8 _)), leNat_leBytes 8 _ (BitVec.isLt _)]

/-- A flit whose CRC is not that of its zeros. -/
def badFlit : List Byte := List.replicate 248 0#8 ++ [1#8, 0#8, 0#8, 0#8, 0#8, 0#8, 0#8, 0#8]

theorem crc64_zeros (n : Nat) : crc64 (List.replicate n 0#8) = 0#64 := by
  induction n with
  | zero => rfl
  | succ n ih => exact ih

theorem badFlit_bad : badFlit.length = 256 ∧ (crc64 (badFlit.take 248)).toNat ≠ atBytes badFlit 248 8 := by
  have hl : (List.replicate 248 0#8).length = 248 := List.length_replicate
  refine ⟨by rw [badFlit, List.length_append, hl]; rfl, ?_⟩
  rw [badFlit, atBytes, List.take_left' hl, List.drop_left' hl, crc64_zeros]
  decide

/-- x^600 by the generator: its nearest word would have its error beyond the shortened code. -/
def farTail : List Nat :=
  [356, 966, 893, 892, 557, 153, 482, 659, 417, 749, 898, 77, 541, 151, 76, 223, 498, 430, 665,
   586, 174, 81, 37, 994, 697, 168, 545, 204, 82, 740]

theorem far_syndromes : (List.range 30).map (fun j => polyHi farTail (gfAlpha j)) =
    (List.range 30).map (fun j => gfAlpha (600 * j % 1023)) := by decide +kernel
theorem far_locator : rsLocator ((List.range 30).map (fun j => gfAlpha (600 * j % 1023))) = [1, gfAlpha 600] := by decide +kernel
theorem far_roots : ∀ e < 544, polyLo [1, gfAlpha 600] (gfAlpha (480 + e)) ≠ 0 := by decide +kernel

/-- A word whose locator is that of the far error does not decode. -/
theorem rsDecode_lost (r : List Nat) (l : r.length = 544) (n : (rsSyndromes r).all (· == 0) = false)
    (h : rsLocator (rsSyndromes r) = [1, gfAlpha 600]) : rsDecode r = none := by
  have f (om dc : List Nat) : ((List.range 544).zip r).map (fun e =>
      let x := gfAlpha (543 - e.1)
      let xi := gfAlpha (480 + e.1)
      if polyLo [1, gfAlpha 600] xi == 0 then e.2 ^^^ gfMul x (gfMul (polyLo om xi) (gfInv (polyLo dc xi))) else e.2) = r := by
    have e : ((List.range 544).zip r).map Prod.snd = r := List.map_snd_zip (by rw [List.length_range, l])
    conv_rhs => rw [← e]
    refine List.map_congr_left fun a ha => ?_
    simp only
    rw [if_neg]
    simpa using far_roots a.1 (List.mem_range.1 (List.of_mem_zip ha).1)
  simp only [rsDecode]
  rw [if_neg (by rw [n]; decide), h, f, if_neg]
  rw [n, Bool.and_false]
  decide

def farLanes : List (List Nat) := (List.range 2).map (fun i => List.replicate 257 0 ++
  ((List.range 15).map (fun j => farTail.getD (2 * j + i) 0)))

theorem far_gather : fecGather 2 farLanes = List.replicate 514 0 ++ farTail :=
  eq_of_beq (by decide +kernel)

theorem far_word (n : Nat) : rsSyndromes (List.replicate n 0 ++ farTail) = (List.range 30).map (fun j => gfAlpha (600 * j % 1023)) := by
  unfold rsSyndromes
  rw [← far_syndromes]
  exact List.map_congr_left fun j _ => polyHi_zeros n farTail _

theorem far_lost (n : Nat) (h : n = 514) : rsDecode (List.replicate n 0 ++ farTail) = none :=
  rsDecode_lost _ (by rw [List.length_append, List.length_replicate, h]; rfl) (by rw [far_word]; decide +kernel)
    (by rw [far_word]; exact far_locator)

theorem fecReceive_none : fecReceive 2 farLanes [] = none :=
  fecReceive_lost _ _ _ (far_gather ▸ far_lost 514 rfl)

/-- A block of zeros decodes without a correction. -/
theorem fecReceive_some : ∃ r, fecReceive 2 [] [] = some r ∧ ∀ e ∈ r.2, e = (0, 0) :=
  fecReceive_clean 2 [] 544 (by simp [fecGather])

/-- A DATA flit, a NULL flit, a HELLO, a flit that fails its CRC; a block that decodes and one that does not; a flit not acknowledged for 2 µs. -/
theorem witness_LinkFlits :
    let good (f : List Byte) : Prop := f.length = 256 ∧ (crc64 (f.take 248)).toNat = atBytes f 248 8
    let x : PortS := { st := 3, rxExp := 4095, txBuf := [⟨0, false, 0, []⟩], laneErr := [20000000] }
    let w0 (f : List Byte) : Nat := atBytes f 0 4
    let data := flitOf [0xF1#8, 0xFF#8]
    let null := flitOf [0xF0#8, 0xFF#8]
    let hello := flitOf ([2#8, 0#8, 0#8, 0#8, 0#8, 0#8, 0#8, 0#8, 1#8] ++ List.replicate 12 0#8 ++ [0x80#8])
    (good data ∧ w0 data % 16 = 1 ∧ bitsAt (w0 data) 4 12 = x.rxExp) ∧
    (good null ∧ w0 null % 16 = 0 ∧ bitsAt (w0 null) 4 12 = x.rxExp) ∧
    (good hello ∧ w0 hello % 16 = 2 ∧ atBytes hello 8 1 = 1 ∧ bitsAt (w0 hello) 28 2 = 0 ∧ atBytes hello 20 2 / 2 ^ 15 % 2 = 1 ∧
      x.psess = none) ∧
    ¬ good badFlit ∧
    ((∃ r, fecReceive (lanesOf x.width) [] [] = some r ∧ ∀ l < 8, x.laneErr.getD l 0 +
        ((List.replicate (x.group * lanesOf x.width) (0, 0) ++ r.2).getD l (0, 0)).2 ≤ 20000000) ∧
      fecReceive (lanesOf x.width) farLanes [] = none ∧ ∀ l < 8, x.laneErr.getD l 0 ≤ 20000000) ∧
    (x.txBuf ≠ [] ∧ x.advAt + 2000 ≤ 2000 ∧ x.attempts < 8) := by
  refine ⟨⟨flitOf_good _ (by decide), ?_⟩, ⟨flitOf_good _ (by decide), ?_⟩, ⟨flitOf_good _ (by decide), ?_⟩,
    fun h => badFlit_bad.2 h.2, ⟨?_, fecReceive_none, ?_⟩, ?_⟩
  case refine_4 =>
    obtain ⟨r, h, z⟩ := fecReceive_some
    have z' (l : Nat) : r.2.getD l (0, 0) = (0, 0) := by
      rcases lt_or_ge l r.2.length with k | k
      · rw [List.getD_eq_getElem _ _ k]; exact z _ (List.getElem_mem k)
      · rw [List.getD_eq_default _ _ k]
    refine ⟨r, h, fun l k => ?_⟩
    show _ + (r.2.getD l (0, 0)).2 ≤ _
    rw [z']
    have : ∀ l < 8, [20000000].getD l 0 + 0 ≤ 20000000 := by decide
    exact this l k
  all_goals decide +kernel

theorem witness_LinkStates :
    let d (st : Nat) : Dev := { dev with ports := [(0, { st := st, width := 0 })], regs := [(portReg 0 0, 1#32)] }
    let x := ((d 4).upTo 300000000).port 0
    let bad (y : PortS) (lanes : BitVec 8) : BitVec 8 := y.laneBad ||| ~~~ lanes
    let y := ((d 2).upTo 9).port 0
    let hello := flitOf ([2#8, 0#8, 0#8, 0#8, 0#8, 0#8, 0#8, 0#8, 1#8] ++ List.replicate 12 0#8 ++ [0x80#8])
    ((((d 1).upTo 9).port 0).st = 1 ∧ ((d 1).upTo 9).pickGroup 0xFF#8 = some (0, 0)) ∧ ((d 1).upTo 9).pickGroup 0#8 = none ∧
    (y.st = 2 ∧ y.ready = false ∧ ((d 2).upTo 9).pickGroup (~~~ bad y 0x0F#8) = some (1, 0) ∧ ((d 2).upTo 9).pickGroup (~~~ bad y 0#8) = none) ∧
    (x.st = 4 ∧ x.entering = false ∧ ((d 4).upTo 300000000).now ≤ x.stAt + 300000000 ∧
      ((d 4).upTo 300000000).pickGroup (~~~ bad x 0xFF#8) = some (0, 0) ∧ ((d 4).upTo 300000000).pickGroup (~~~ bad x 0#8) = none) ∧
    ((hello.length = 256 ∧ (crc64 (hello.take 248)).toNat = atBytes hello 248 8) ∧ atBytes hello 0 4 % 16 = 2 ∧ atBytes hello 8 1 = 1 ∧
      atBytes hello 20 2 / 2 ^ 15 % 2 = 1 ∧ ((dev.modPort 0 (fun z => { z with st := 2, entering := true })).port 0).entering = true ∧
      ((dev.modPort 0 (fun z => { z with st := 2, entering := true })).port 0).psess = none) ∧
    x.stAt + 300000000 ≤ 300000000 ∧
    ((((d 5).upTo 100000000).port 0).st = 5 ∧ (((d 5).upTo 100000000).port 0).stAt + 100000000 ≤ 100000000 ∧
      ((d 5).upTo 100000000).portEn 0 = true ∧ ((d 5).upTo 100000000).portStopped 0 = false ∧ (d 5).pin.refclk = true ∧
      (d 5).bup.resets = []) := by
  refine ⟨?_, ?_, ?_, ?_, ⟨flitOf_good _ (by decide), ?_⟩, ?_, ?_⟩ <;> decide +kernel

/-! ### Commands over the links -/

/-- A module with an ADMIN session on port 0 under the key 0, with copy engine 0 frozen and a remapped row. -/
def cmdDev : Dev :=
  { linked {} with
    sec := { dev.sec with sess := [(0, { active := true, admin := true })] }
    win := { dev.win with frozen := [0x900] }
    mem := { dev.mem with banks := [(8191, { slots := [(0, 16383)] })] } }

/-- A command of type ty with a body, tagged for that session. -/
def cmdOf (ty : Nat) (body : List Word) : CmdPkt :=
  let c : CmdPkt := { port := 0, rsn := 1#48, rtag := 0#32, space := 0#2, len := 32 + 4 * body.length, bodyLen := 4 * body.length
                      modl := 0#12, reserved := true, counter := 1#64, body := body, tag := 0#128, t := 0 }
  { c with tag := Config.kmac256 0#256 (cmdDev.tagInput c ty) }

/-- A device once a command has come, and once its counter is used. -/
def come (d : Dev) (c : CmdPkt) : Dev := ((d.cmdTaken c).arrive c.port ((d.cmdTaken c).cmdHdr c)).1
def counted (d : Dev) (c : CmdPkt) : Dev := (come d c).setSess c.port { (come d c).sess c.port with last := c.counter }

theorem cmdOf_new (ty : Nat) (body : List Word) (h : body.length ≤ 1016)
    (ht : (come cmdDev (cmdOf ty body)).isFrozen (portMid 0) = false) : CmdNew cmdDev (cmdOf ty body) ty (come cmdDev (cmdOf ty body)) where
  carried := .inl rfl
  fresh := rfl
  thawed := .inl ht
  device := rfl
  some := by show 32 + 4 * body.length ≠ 0; omega
  fits := by show 32 + 4 * body.length ≤ 4096; omega

theorem cmdOf_auth (ty : Nat) (body : List Word) (h : cmdTagged ty = true) : (come cmdDev (cmdOf ty body)).cmdAuth (cmdOf ty body) ty = (0, true) := by
  have e : (come cmdDev (cmdOf ty body)).tagInput (cmdOf ty body) ty = cmdDev.tagInput { cmdOf ty body with tag := 0#128 } ty := rfl
  have hs : (come cmdDev (cmdOf ty body)).sess (cmdOf ty body).port.val = { active := true, admin := true } := rfl
  simp only [Dev.cmdAuth, h, hs, e]
  simp [cmdOf]

/-- A tagged command whose format holds passes the shared checks. -/
theorem cmdOf_passes (ty : Nat) (body : List Word) (h : cmdTagged ty = true ∧ body.length ≤ 1016 ∧
    (come cmdDev (cmdOf ty body)).isFrozen (portMid 0) = false ∧ (come cmdDev (cmdOf ty body)).cmdFormat (cmdOf ty body) ty = true ∧
    (body.getD 0 0#32).toNat &&& bodyMask ty = (body.getD 0 0#32).toNat) :
    CmdPasses cmdDev (cmdOf ty body) ty (counted cmdDev (cmdOf ty body)) where
  new := ⟨_, cmdOf_new ty body h.2.1 h.2.2.1, h.2.2.2.1, by rw [cmdOf_auth ty body h.1], by rw [cmdOf_auth ty body h.1]; rfl⟩
  body := h.2.2.2.2

/-- A command whose body is a word short, one without a session, and one whose key lacks ADMIN. -/
theorem witness_CommandChecks :
    (let c := cmdOf 0x21 []
     CmdNew cmdDev c 0x21 (come cmdDev c) ∧ (come cmdDev c).cmdFormat c 0x21 = false) ∧
    (let c := cmdOf 0x21 [600#32]
     let d := linked {}
     CmdNew d c 0x21 (come d c) ∧ (come d c).cmdFormat c 0x21 = true ∧ (come d c).cmdAuth c 0x21 = (2, false)) ∧
    (let d : Dev := { cmdDev with sec := { cmdDev.sec with sess := [(0, { active := true })] } }
     let c := cmdOf 0x51 [0#32]
     CmdNew d c 0x51 (come d c) ∧ (come d c).cmdFormat c 0x51 = true ∧ (come d c).cmdAuth c 0x51 = (5, true)) ∧
    (let c := cmdOf 0x99 []
     CmdNew cmdDev c 0x99 (come cmdDev c) ∧ 0x99 ∉ cmdTypes) := by
  refine ⟨⟨cmdOf_new _ _ (by decide) (by decide), by decide⟩, ⟨⟨.inl rfl, rfl, .inl rfl, rfl, by decide, by decide⟩, by decide, rfl⟩,
    ⟨⟨.inl rfl, rfl, .inl rfl, rfl, by decide, by decide⟩, by decide, ?_⟩, cmdOf_new _ _ (by decide) (by decide), by decide⟩
  simp only [Dev.cmdAuth]
  rw [if_neg (by decide), if_neg (by decide), if_neg]
  · decide
  · simp only [bne_iff_ne, ne_eq, Decidable.not_not]; rfl

/-- Where Falcon accepts every signature and index 0 is trusted on port 0. -/
theorem witness_SessionCommands :
    (∀ _ : ∀ k m s, Config.falconVerify k m s = true,
      let c := cmdOf 0x01 (List.replicate 723 0#32)
      let d : Dev := { linked {} with sec := { dev.sec with trust := [(0, 1, true, [])] } }
      CmdPasses d c 0x01 (come d c) ∧ (come d c).initCheck c = 0) ∧
    (let c := cmdOf 0x01 (List.replicate 723 0#32)
     CmdPasses cmdDev c 0x01 (come cmdDev c) ∧ (come cmdDev c).initCheck c = 12) ∧
    (({ linked {} with sec := { dev.sec with sess := [(0, { next := [(1#256, 0, true, 0, [])] })] } } : Dev).sess 0).next =
      (1#256, 0, true, 0, []) :: [] ∧
    (let c := cmdOf 0x02 (List.replicate 10 0#32)
     let d : Dev := { linked {} with regs := [(0x0B000704, 1#32)] }
     CmdPasses d c 0x02 (come d c) ∧ c.addr 8 = some 0 ∧ (come d c).sec.keyGone = false ∧ (come d c).cmdGrants 0 .write 0 1664 = true) ∧
    (({ linked {} with sec := { dev.sec with reports := [(0, 0, [])] } } : Dev).sec.reports.find? (fun r => r.1 == 0)) = some (0, 0, []) := by
  refine ⟨fun h => ⟨⟨⟨_, ⟨.inl rfl, rfl, .inl rfl, rfl, by decide +kernel, by decide +kernel⟩, by decide +kernel, rfl, rfl⟩, by decide⟩, ?_⟩,
    ⟨⟨⟨_, ⟨.inl rfl, rfl, .inl rfl, rfl, by decide +kernel, by decide +kernel⟩, by decide +kernel, rfl, rfl⟩, by decide⟩, by decide +kernel⟩, by decide,
    ⟨⟨⟨_, ⟨.inl rfl, rfl, .inl rfl, rfl, by decide +kernel, by decide +kernel⟩, by decide +kernel, rfl, rfl⟩, by decide⟩, by decide +kernel⟩, by decide⟩
  simp only [Dev.initCheck, h]
  decide +kernel

/-- A manifest of zeros at address 0, where Falcon accepts every signature and digests are 0; an update in each state. -/
theorem witness_FirmwareUpdates :
    (let c := cmdOf 0x10 [0#32, 0#32, 7#32]
     CmdPasses cmdDev c 0x10 (counted cmdDev c) ∧ c.addr 0 = some 0 ∧ (c.word 2).toNat < 8 ∧ (counted cmdDev c).sec.fw.st = 0 ∧
       (counted cmdDev c).cmdGrants 0 .read 0 4096 = true) ∧
    (let d (f : FwS) : Dev := { dev with sec := { dev.sec with fw := f } }
     (d { st := 1, base := 2 ^ 40 - 4096 }).sec.fw.st = 1 ∧ (d { st := 2 }).sec.fw.st = 2 ∧
       ((d { st := 3, round := 3 }).sec.fw.st = 3 ∧ (d { st := 3, round := 3 }).sec.fw.last = false)) ∧
    (∀ _ : ∀ k m s, Config.falconVerify k m s = true, ∀ _ : ∀ bs, Config.digest 0 bs = 0#256,
      let m : List Byte := List.replicate 4096 0#8
      let fs : Fuses := { vendor := [(0, 0#256)] }
      fwBlocks m = [0, 0, 0] ∧
      vendorCode fs (fwSlot m) (fwKey m) (m.take 1844) ((m.drop 1844).take 1280) = 0 ∧
      digestBytes (Config.digest 0 []) = (m.drop 16).take 32 ∧ ∀ k < 3, fs.minVer.getD k 0 ≤ fwVersion m k) := by
  refine ⟨⟨cmdOf_passes _ _ (by decide), by decide +kernel⟩, by decide, fun h1 h2 => ⟨by decide +kernel, ?_, ?_, by decide +kernel⟩⟩
  · simp only [vendorCode, h1, h2]; decide +kernel
  · rw [h2]; decide +kernel

theorem witness_SettingCommands :
    (let c := cmdOf 0x20 [0#32, 0x01000008#32, 0xFFFFFFFF#32, 5#32]
     let d := counted cmdDev c
     CmdPasses cmdDev c 0x20 d ∧ ∀ e ∈ c.entries, d.cfgCheck 0 e = 0) ∧
    (CmdPasses cmdDev (cmdOf 0x21 [2400#32]) 0x21 (counted cmdDev (cmdOf 0x21 [2400#32])) ∧ bf (2400#32 : Word) 11 0 = 2400) ∧
    (CmdPasses cmdDev (cmdOf 0x40 [0x900#32]) 0x40 (counted cmdDev (cmdOf 0x40 [0x900#32])) ∧
      (counted cmdDev (cmdOf 0x40 [0x900#32])).isFrozen 0x900 = true) ∧
    (CmdPasses cmdDev (cmdOf 0x40 [0x901#32]) 0x40 (counted cmdDev (cmdOf 0x40 [0x901#32])) ∧
      (counted cmdDev (cmdOf 0x40 [0x901#32])).isFrozen 0x901 = false) ∧
    (let v : Word := pack [(8191, 0), (16383, 13), (0, 27), (1, 31)]
     let d := counted cmdDev (cmdOf 0x50 [1#32, v])
     CmdPasses cmdDev (cmdOf 0x50 [1#32, v]) 0x50 d ∧ v.getLsbD 31 = true ∧ (d.slotsAfter (bf v 12 0)).find (bf v 30 27) = some (bf v 26 13)) ∧
    (let c := cmdOf 0x60 (0x1FF#32 :: List.replicate 64 0#32)
     let d := counted cmdDev c
     CmdPasses cmdDev c 0x60 d ∧ bf (c.word 0) 7 0 = 255 ∧ (c.word 0).getLsbD 8 = true ∧ (∀ i < 16, winBad (c.word (1 + 4 * i)) (c.word (2 + 4 * i)) = false) ∧
       d.units = []) ∧
    (let c := cmdOf 0x61 [5#32]
     let d := counted cmdDev c
     CmdPasses cmdDev c 0x61 d ∧ bf (c.word 0) 2 0 = 5 ∧ d.win.installed.contains (bf (c.word 0) 15 8) = true ∧ d.win.pendSet = []) := by
  refine ⟨⟨cmdOf_passes _ _ ?_, ?_⟩, ⟨cmdOf_passes _ _ ?_, ?_⟩, ⟨cmdOf_passes _ _ ?_, ?_⟩, ⟨cmdOf_passes _ _ ?_, ?_⟩,
    ⟨cmdOf_passes _ _ ?_, ?_⟩, ⟨cmdOf_passes _ _ ?_, ?_⟩, ⟨cmdOf_passes _ _ ?_, ?_⟩⟩ <;> decide +kernel

/-- Keys and signatures of zeros, where Falcon accepts every signature and digests are 0. -/
theorem witness_KeyAndDebugCommands :
    (∀ _ : ∀ k m s, Config.falconVerify k m s = true, ∀ _ : ∀ bs, Config.digest 0 bs = 0#256,
      let fs : Fuses := { vendor := [(0, 0#256), (1, 0#256)] }
      let c := cmdOf 0x30 (List.replicate 778 0#32)
      let e := cmdOf 0x31 (0x001#32 :: List.replicate 769 0#32)
      (CmdPasses cmdDev c 0x30 (counted cmdDev c) ∧ fs.owner = none ∧
        ∀ id : List Byte, vendorCode fs (bf (c.word 8) 1 0) ((c.bytes.drop 36).take 1793) (id ++ c.bytes.take 32) (c.bytes.drop 1832) = 0) ∧
      (CmdPasses cmdDev e 0x31 (counted cmdDev e) ∧ bf (e.word 0) 1 0 = 1 ∧ bf (e.word 0) 9 8 = 0 ∧ fs.live.filter (fun k => k != 1) ≠ [] ∧
        ∀ id : List Byte, vendorCode fs 0 ((e.bytes.drop 4).take 1793) id (e.bytes.drop 1800) = 0)) ∧
    (CmdPasses cmdDev (cmdOf 0x51 [0x1FFF02#32]) 0x51 (counted cmdDev (cmdOf 0x51 [0x1FFF02#32])) ∧
      bf (0x1FFF02#32 : Word) 1 0 = 2 ∧ bf (0x1FFF02#32 : Word) 23 8 = 8191) ∧
    CmdPasses cmdDev (cmdOf 0x80 [1#32]) 0x80 (counted cmdDev (cmdOf 0x80 [1#32])) ∧
    (CmdPasses cmdDev (cmdOf 0x70 [0x1F01#32]) 0x70 (counted cmdDev (cmdOf 0x70 [0x1F01#32])) ∧ bf (0x1F01#32 : Word) 15 8 = 31) ∧
    (CmdPasses cmdDev (cmdOf 0x70 [0x0302#32]) 0x70 (counted cmdDev (cmdOf 0x70 [0x0302#32])) ∧ bf (0x0302#32 : Word) 15 8 = 3) ∧
    CmdPasses cmdDev (cmdOf 0x70 [3#32]) 0x70 (counted cmdDev (cmdOf 0x70 [3#32])) := by
  refine ⟨fun h1 h2 => ⟨⟨cmdOf_passes _ _ ?_, rfl, fun id => ?_⟩, ⟨cmdOf_passes _ _ ?_, ?_, ?_, ?_, fun id => ?_⟩⟩, ⟨cmdOf_passes _ _ ?_, ?_⟩,
    cmdOf_passes _ _ ?_, ⟨cmdOf_passes _ _ ?_, ?_⟩, ⟨cmdOf_passes _ _ ?_, ?_⟩, cmdOf_passes _ _ ?_⟩
  case refine_2 => simp only [vendorCode, h1, h2]; decide +kernel
  case refine_7 => simp only [vendorCode, h1, h2]; decide +kernel
  all_goals decide +kernel

/-! ### Registers, seals, resets and errors -/

theorem witness_RegisterWrites :
    let may (a : Nat) : Prop := dev.allowed (dev.portSet 5) 1 .write (a / 4096) = true
    dev.alive = true ∧ dev.isFrozen (portMid 5) = false ∧
    (may 0x10FFFFFC ∧ blk 0x10FFFFFC < 0x11 ∧ authOnly 0x10FFFFFC = false) ∧
    (let d : Dev := { dev with win := { dev.win with bind := [(5, 1)] } }
     ¬ d.allowed (d.portSet 5) 1 .write 0 = true) ∧
    (may 0x0B000704 ∧ authOnly 0x0B000704 = true) ∧ may 4 ∧ may 0x10 ∧ may (portReg 5 0) ∧ may 0x0E00001C ∧ dev.thm.rot = none := by
  decide +kernel

/-- Seals enabled, page 0 sealed, gemma 0 ready. -/
def sealDev (seals : SMap Seal) : Dev :=
  { dev with regs := dev.regs.put 0x09000000 8#32, seals := seals, gemmas := [(0, { up := true })] }

theorem witness_SealCommands :
    let d := sealDev [(0, ⟨true, 1, 7#32, 0⟩)]
    (d.alive = true ∧ d.isFrozen (portMid 0) = false ∧ d.allowed (d.portSet 0) 1 .write (sealReg 0 12 / 4096) = true ∧
      d.sealRuns.any (fun r => r.port == 0) = false ∧ d.sealPage 0 true = 0 ∧ d.sealEn = true ∧
      d.allowedAt (d.portSet 0) .write 0 = true ∧ d.isRetired (partOf 0) = false ∧ d.sealCount 0 < 16384 ∧
      d.gemReady (gemmaOf 0) = true ∧ d.seals.find 0 = some ⟨true, 1, 7#32, 0⟩) ∧
    (let r : SealRun := ⟨0, 0, false, none, true, true⟩
     let e : Dev := { d with sealRuns := [r] }
     e.sealRuns.find? (fun x => x.port == 0) = some r ∧ e.sealHeld = [] ∧ (r.claim = true ∨ e.sealMay r.page = true)) ∧
    (let r : SealRun := ⟨0, 0, false, none, true, false⟩
     let e : Dev := { d with sealRuns := [r, ⟨1, 0, false, none, true, true⟩] }
     e.sealRuns.find? (fun x => x.port == 0) = some r ∧ r.claim = false ∧ e.sealMay r.page = false) := by decide +kernel

theorem witness_ResetsProceed :
    let d (level unit st : Nat) : Dev := { dev with bup := { dev.bup with resets := [⟨level, unit, st⟩] } }
    ((d 1 31 1).alive = true ∧ (d 1 31 1).rstState 1 31 = some 1 ∧ (d 1 31 1).rstDraining 1 31 = false) ∧
    (d 2 3 2).rstState 2 3 = some 2 ∧
    ((d 0 255 3).rstState 0 255 = some 3 ∧ (d 0 255 3).thm.ladder < 2 ∧ (rstDoms 0 255).all (fun i => ((d 0 255 3).dom i).st == 4) = true) ∧
    (let d : Dev := { dev with regs := [(0x0E000000, 8#32)], err := { dev.err with double := true } }
     d.bup.powered = true ∧ d.pin.resetLow = false ∧ (d.reg 0x0E000000).getLsbD 3 = true ∧ d.err.double = true) := by decide +kernel

theorem witness_ErrorsHandled :
    let r : ErrRec := { seq := 1, sel := true }
    let d : Dev := { dev with err := { dev.err with fifo := [r], handling := [1] } }
    let w : Dev := { dev with inForce := [(0x01000000, 0x3E800#32), (0x0F000000, 0x21#32)], fronds := [(255, { up := true })] }
    (dev.alive = true ∧ dev.err.handling = []) ∧
    (d.err.handling = [1] ∧ d.err.fifo.find? (fun r => r.seq == 1) = some r ∧ d.err.displaced = []) ∧
    (w.sweepEn = true ∧ w.sweepOn 255 = true ∧ w.sweepHeld 255 = false ∧ (w.frond 255).up = true ∧ w.domOn (halfDom (w.home 255)) = true) ∧
    (dev.isRetired 255 = false ∧ dev.sweep.covered.get 255 dev.frm.entry7 + 86400000000000 ≤ 86400000000000) := by decide +kernel

/-! ### Power, temperature and cooling -/

theorem witness_PowerControl :
    let d := dev.modDom 0 (fun x => { x with est := 3 })
    d.alive = true ∧ max 0 ((d.dom 0).est - (d.dom 0).budget) = 3 ∧ (d.dom 0).implausible = false ∧ 1000 ≤ [1000].getD 0 0 := by
  decide +kernel

/-- Domain 55, half-layer 31, and loads of 90 per cent. -/
theorem witness_PowerDomains :
    let d (st : Nat) : Dev := dev.modDom 11 (fun x => { x with st := st })
    let mates := (List.range 56).filter (fun k => k != 11 && sameConv 11 k)
    (((d 1).dom 11).st = 1 ∧ [900, 900].all (fun l => decide (l ≤ 900)) = true ∧
      mates.any (fun k => ((d 1).dom k).st == 2 || (((d 1).dom k).st == 1 && decide (k < 11))) = false) ∧
    ((d 2).dom 11).st = 2 ∧ ((d 3).dom 11).st = 3 ∧ (((d 4).dom 11).st ≠ 1 ∧ ((d 4).dom 11).st ≠ 2) ∧ 11 % 14 < 12 ∧
    ((dev.dom (halfDom 31)).st = 4 ∧ (dev.dom (halfDom 31)).droop = false) ∧ dev.bup.stage = 7 ∧ dev.stk 255 = 3 := by decide +kernel

theorem witness_ThermalSteps :
    let d (f : ThermS → ThermS) : Dev := { dev with thm := f dev.thm }
    dev.alive = true ∧ dev.thm.tripped = false ∧
    ((dev.tach 0).invalid = false ∧ ∀ i < 2, (dev.tach i).invalid = false → (dev.tach i).last = none) ∧
    ((d (fun y => { y with ladder := 1, leak := true })).thm.ladder = 1 ∧ (d (fun y => { y with ladder := 2, leak := true })).thm.leak = true) ∧
    (let e : Dev := { dev with regs := [(0x0D000700, 1#32)] }
     (e.reg 0x0D000700).getLsbD 0 = true ∧ e.thm.near = false) ∧
    dev.thm.leak = false ∧ dev.thm.therm = [] ∧
    ((d (fun y => { y with rot := some ⟨0, 255, 4096, 2⟩ })).thm.rot = some ⟨0, 255, 4096, 2⟩ ∧
      (d id).rotLost 0 = false ∧ (d id).rotLost 255 = false ∧ partOf (2 ^ 26 * 255 * 64) = 255 ∧
      2 ^ 26 * 255 * 64 % 2 ^ 32 < 4096 * 2 ^ 20) := by decide +kernel

/-! ### Bring-up, pins, the management bus and the test port -/

/-- An image of one empty section, that fits every module. -/
def tinyImage : List Byte :=
  [0x55#8, 0x46#8, 0x4B#8, 0x49#8, 1#8, 0#8, 1#8, 0#8, 0x08#8, 0x0D#8, 0#8, 0#8] ++ List.replicate 2036 0#8 ++
    ([2#8, 0#8, 0#8, 0#8, 0#8, 0#8, 0#8, 0#8] ++ List.replicate 1280 0#8)

/-- A firmware section of one block for each class. -/
def tinyFirmware : List Byte := [1#8, 0#8, 1#8, 0#8, 1#8, 0#8] ++ List.replicate (4090 + 3 * 32 + 3 * 4096) 0#8

/-- A module that waits at a stage. -/
def atStage (n : Nat) : Dev := { dev with bup := { dev.bup with stage := n, state := 0 } }

/-- Where Falcon accepts every signature and digests are 0; then each stage. -/
theorem witness_BringUp :
    (∀ _ : ∀ k m s, Config.falconVerify k m s = true, ∀ _ : ∀ bs, Config.digest 0 bs = 0#256,
      copyCode {} tinyImage false = 0 ∧ fwCheck { vendor := [(0, 0#256)] } (some tinyFirmware) = none) ∧
    ((atStage 0).alive = true ∧ (atStage 0).atStage 0 = true ∧ (atStage 0).pin.flashSel = false ∧
      atBytes tinyImage 0xC 4 ≤ atBytes tinyImage 0xC 4) ∧
    (atStage 1).atStage 1 = true ∧ (atStage 2).atStage 2 = true ∧ (atStage 3).atStage 3 = true ∧
    ((atStage 4).atStage 4 = true ∧ ∀ p < 6, ((atStage 4).port p).st ≠ 1) ∧
    (let d := (atStage 6).modDom (halfDom (8 * 3 + 7)) (fun x => { x with st := 0 })
     d.atStage 6 = true ∧ 31 % 4 ∉ d.bup.downStacks ∧ (d.dom (halfDom (8 * (31 % 4) + 31 / 4))).st = 0) ∧
    (∀ h < 32, h / 8 ∉ (atStage 6).bup.downStacks → ((atStage 6).dom (halfDom h)).st = 4) := by
  refine ⟨fun h1 h2 => ⟨?_, ?_⟩, by decide +kernel, by decide, by decide, by decide, by decide, by decide +kernel, by decide +kernel⟩
  · have e : imageSecs tinyImage = some [(2, false, [])] := by decide +kernel
    have i : imageLen tinyImage = 3336 := by decide +kernel
    simp only [copyCode, e, i, h1]
    decide +kernel
  · simp only [fwCheck, vendorCode, fwClassBad, h1, h2]
    decide +kernel

theorem witness_PinsAndBus :
    let d (f : PinS → PinS) : Dev := { dev with pin := f dev.pin }
    ((d (fun p => { p with pwrEn := false })).pin.pwrEn = false ∧ dev.pin.fellAt = none ∧ dev.pin.vinBad = false ∧ dev.pin.resetLow = false) ∧
    (let e : Dev := { d (fun p => { p with fellAt := some 0 }) with bup := { dev.bup with powered := false } }
     e.pin.pwrEn = true ∧ e.bup.powered = false ∧ e.pin.fellAt = some 0 ∧ 0 + 100000000 ≤ 100000000) ∧
    (dev.pin.pwrEn = true ∧ dev.bup.powered = true ∧ dev.pin.refclk = true) ∧ (d (fun p => { p with resetLow := true })).pin.resetLow = true ∧
    (d (fun p => { p with vinBad := true })).pin.vinBad = true ∧ (dev.alive = true ∧ dev.pwr.throttle = false) ∧
    (let e : Dev := { d (fun p => { p with throttleAt := some 0 }) with pwr := { dev.pwr with throttle := true } }
     e.alive = true ∧ e.pwr.throttle = true ∧ e.pin.throttleAt = some 0 ∧ e.pin.throttleErr = false ∧ 0 + 10000000000 ≤ 10000000000) ∧
    (dev.i3cUp = true ∧ dev.pin.dyn = 0#7 ∧ (0x48#7 : BitVec 7).toNat = 0x48 + dev.pin.strap.toNat) ∧
    (let e := d (fun p => { p with dyn := 1#7, ibi := true, alert := true, ibis := 1, ibiAt := 0 })
     e.i3cUp = true ∧ e.pin.dyn ≠ 0#7 ∧ e.pin.ibi = true ∧ e.pin.alert = true ∧ 0 < e.pin.ibis ∧ e.pin.ibiAt + 1000000 ≤ 1000000) := by
  decide +kernel

/-- A powered module at level FULL. -/
theorem witness_TestPort :
    let d : Dev := { dev with sec := { dev.sec with level := 2 } }
    d.bup.powered = true ∧ 2 ≤ d.sec.level ∧ dev.sec.level < 2 := by decide +kernel

/-! ### Well-formedness: each check refuses an ill-formed term -/

def badReq (pkt : BitVec 4) (len : Nat) (data : List Byte) : ReqHdr := { reqOf pkt 0#2 0 0 data with len := BitVec.ofNat 13 len }

theorem wf_frames : (Instr.internalTick 0 { copyFail := [2 ^ 34] }).wf = false ∧ (Instr.internalTick 0 { copyFail := [2 ^ 34 - 1] }).wf = true ∧
    (Instr.fallbackTick 0 { measured := List.replicate 57 0 }).wf = false := by decide +kernel

theorem wf_memory : (Instr.freezeDrainEnd 0x916#12 0).wf = false ∧ (Instr.freezeDrainEnd 0x915#12 0).wf = true ∧
    (Instr.fillReturn 0 (2 ^ 32) ⟨[], .none⟩).wf = false ∧ (Instr.evictionWritebackIssue 0 (2 ^ 32)).wf = false ∧
    (Instr.evictionWritebackLanded 0 0 (List.replicate 5 .good)).wf = false ∧ (Instr.gbLd 0 (List.replicate 257 .good)).wf = false ∧
    (Instr.gbSt 0 (List.replicate 257 .good)).wf = false ∧ (Instr.gbFill 0 (List.replicate 257 .good)).wf = false := by decide +kernel

theorem wf_packets : (Instr.readRequest 0 (badReq 1#4 4097 []) 0).wf = false ∧ (Instr.readRequest 0 (badReq 2#4 1 [0#8]) 0).wf = false ∧
    (Instr.writeRequest 0 (badReq 2#4 2 [0#8]) 0).wf = false ∧ (Instr.writeRequest 0 (badReq 2#4 1 [0#8]) 0).wf = true ∧
    (Instr.atomicRequest 0 (badReq 2#4 1 [0#8]) 0).wf = false ∧ (Instr.dataFlit 0 []).wf = false ∧ (Instr.hello 0 [0#8] 0).wf = false ∧
    (Instr.fecBlockReceive 0 (List.replicate 9 []) []).wf = false ∧ (Instr.fecBlockReceive 0 [] [[1024]]).wf = false ∧
    (Instr.completion 0 ⟨0#4, 0#3, false, 0#48, 0#32, 0#16, 0#64, List.replicate 4097 0#8⟩ 0).wf = false := by decide +kernel

theorem wf_commands :
    let c : CmdPkt := ⟨0, 0#48, 0#32, 0#2, 0, 4, 0#12, true, 0#64, [], 0#128, 0⟩
    (Instr.powerCap c).wf = false ∧ (Instr.powerCap { c with body := [0#32] }).wf = true ∧ (Instr.unlistedCmdType 0#16 c).wf = false ∧
    (Instr.fwRepairRound [(2308, 0)]).wf = false ∧ (Instr.sealCmdBadCommand 0 5).wf = false ∧ (Instr.sealCmdBadCommand 0 6).wf = true := by
  decide +kernel

theorem wf_resets : (Instr.resetDrainEnd 3 0).wf = false ∧ (Instr.resetDrainEnd 1 32).wf = false ∧ (Instr.resetDrainEnd 1 31).wf = true ∧
    (Instr.resetReinitEnd 2 0 [⟨1, 2048⟩]).wf = false ∧ (Instr.computeWave 0 [⟨0, 256⟩] false).wf = false ∧
    (Instr.sealCrcEnd 0 (List.replicate 65 .good)).wf = false ∧ (Instr.fuseMapLoad 0#4 (List.replicate 9 0)).wf = false := by decide +kernel

theorem wf_sweep : (Instr.sweepSlice (.frondSram 0 true [430080])).wf = false ∧ (Instr.sweepSlice (.gemmaSram 0 true [2048])).wf = false ∧
    (Instr.sweepSlice (.rhizoidLane 0 272 true)).wf = false ∧ (Instr.sweepSlice (.channelLane 0 34 true)).wf = false ∧
    (Instr.sweepSlice (.latent (2 ^ 34) .good)).wf = false := by decide +kernel

theorem wf_registers : (Instr.rotationRequest 0 1 4097).wf = false ∧ (Instr.rotationCopyEnd [2 ^ 34]).wf = false ∧
    (Instr.statLiveRead 0 (2 ^ 16)).wf = false ∧ (Instr.registerWrite 0 2#32 0#32).wf = false ∧ (Instr.i3cPrivateWrite [0#8]).wf = false := by
  decide +kernel

theorem wf_power : (Instr.ageingCheck 0 [(256, 0)]).wf = false ∧ (Instr.sensorSample 0 [(2112, none)]).wf = false ∧
    (Instr.thermalTrip true 32).wf = false ∧ (Instr.thermalTrip false 16).wf = false ∧ (Instr.rotationHint (List.replicate 257 0)).wf = false ∧
    (Instr.powerControlStep 0 (List.replicate 57 0)).wf = false ∧ (Instr.telemetrySample 0 (List.replicate 57 0) [] 0 0).wf = false ∧
    (Instr.gainCalibration [] (List.replicate 57 0)).wf = false ∧ (Instr.coolantTempSample 0 (List.replicate 5 0)).wf = false := by decide +kernel

/-! ### Single steps and operations, worked by hand from the rules -/

/-- One field of the state that a step answers. -/
def after {α : Type} (s : State) (c : Instr) (f : Dev → α) : Option α := match step { s with pending := [c] } with
  | .next t => some (f t.dev)
  | .fault _ => none
  | .refused _ => none

/-- 05 R145: arithmetic wraps, shifts take six bits, SRA keeps the sign, MIN is signed. -/
theorem test_salu : saluOp 0 (-1#64) 1#64 = 0#64 ∧ saluOp 6 1#64 65#64 = 2#64 ∧ saluOp 8 (-8#64) 1#64 = -4#64 ∧ saluOp 9 (-1#64) 1#64 = -1#64 := by
  decide

/-- 05 R147: the instruction after NOP follows; SALU writes its register and leaves its source. -/
theorem test_nop : after (st (frondAt {} 0#128)) (.nop 0) (fun d => (d.frond 0).pc) = some 1 := by decide +kernel
theorem test_salu_step : after (st (frondAt { sreg := [(1, 5#64)] } (insn [(0x08, 0), (1, 8), (16, 9), (2, 14), (1, 20), (5, 32)]))) (.salu 0)
    (fun d => ((d.frond 0).r 1, (d.frond 0).r 2)) = some (5#64, 1#64) := by decide +kernel

/-- 05 R136, R139: the end of TZERO over array 3 clears that array's poison alone. -/
theorem test_tzero :
    let e : CQ := { n := 0, ip := 0, bits := insn [(0x31, 0), (8, 8), (1, 12)], started := true }
    let x : Frond := { cq := [e], arrs := [(2, { pois := [(0, ())] }), (3, { pois := [(0, ())] })] }
    let d := frondAt x 0#128
    after (st d) (.computeInstructionEnd 0 0) (fun d => ((d.frond 0).cq, ((d.frond 0).arr 2).pois)) = some ([], [(0, ())]) ∧
      (((d.cqRun 0 e).frond 0).arr 3).pois = [] := by decide +kernel

/-- RV32: addi x1, x1, -2048; jal x0, -4; beq x0, x0, -4; c.addi x1, 1. -/
theorem test_rv_decode : (rvDecode32 0x80008093).imm = -2048 ∧ (rvDecode32 0xFFDFF06F).imm = -4 ∧ (rvDecode32 0xFE000EE3).imm = -4 ∧
    rvDecode16 0x0085 = some { op := 0x13, rd := 1, rs1 := 1, imm := 1, size := 2 } := by decide

/-- RV32: the quotient of the most negative number by -1, a shift right of a negative number, a signed byte load. -/
theorem test_rv_alu : rvMul 4 0x80000000#32 (-1#32) = 0x80000000#32 ∧ rvMul 6 0x80000000#32 (-1#32) = 0#32 ∧
    rvAlu 5 true 0x80000000#32 31#32 = -1#32 ∧ rvLoad 0 0x80 = 0xFFFFFF80#32 := by decide

/-- 10 R311: ADDI adds its sign-extended immediate. -/
theorem test_addi : after (st (gemmaAt { x := [(1, 2048#32)] } 0x80008093)) (.gemmaBaseInstruction 0)
    (fun d => ((d.gemma 0).rx 1, (d.gemma 0).pc)) = some (0#32, 4) := by decide +kernel

/-- 10 R331: a word stored across no granule's end reads back, low byte first. -/
theorem test_sram : ((({} : Gemma).putBytes 60 4 0x04030201 false false).bytes 61 2) = (0x0302, false) := by decide +kernel

/-- 04 R105: 1 + 2^-24 ties to 1, 1 + 3 * 2^-24 to 1 + 2^-22. -/
theorem test_round : toF32 (.num false (2 ^ 24 + 1) (-24)) = 0x3F800000#32 ∧ toF32 (.num false (2 ^ 24 + 3) (-24)) = 0x3F800002#32 ∧
    toF32 ((f32 0xC0000000#32).add (f32 0x3F800000#32)) = 0xBF800000#32 := by
  decide +kernel

/-- 04 R103: the largest E4M3 value is 448 and 0x7F is NaN; E2M1's largest is 6. -/
theorem test_formats : ffE4m3.decode 0x7E = .num false 14 5 ∧ (ffE4m3.decode 0x7F).isNan = true ∧ ffE2m1.decode 7 = .num false 3 1 := by decide

/-- 02 R51: CRC-32C of "123456789". -/
theorem test_crc32c : crc32c [0x31#8, 0x32#8, 0x33#8, 0x34#8, 0x35#8, 0x36#8, 0x37#8, 0x38#8, 0x39#8] = 0xE3069283#32 := by decide +kernel

/-- 11 R360: CRC-64 ECMA-182 of "123456789". -/
theorem test_crc64 : crc64 [0x31#8, 0x32#8, 0x33#8, 0x34#8, 0x35#8, 0x36#8, 0x37#8, 0x38#8, 0x39#8] = 0x6C40DF5F0B497347#64 := by decide +kernel

/-- 11 R354: the generator's coefficients from x^0 on, as IEEE 802.3 lists them for RS(544,514). -/
theorem test_generator : rsGen.reverse.take 6 = [523, 834, 128, 158, 185, 127] := by decide +kernel

/-- 03 R78: page 1 of partition 2 by H[39:20] and H[19:12]; under SWIZZLE the partition is 2 XOR 1. -/
theorem test_views : hostToLinear false 0x102ABC = 0x0200001ABC ∧ hostToLinear true 0x102ABC = 0x0300001ABC := by decide

/-- 03 R90: a refused store freezes its master, and its drain is open. -/
theorem test_freeze :
    let d := Dev.issue { frondAt {} 0#128 with win := {} } { id := 0, mid := 0, kind := .sts, base := 0, n := 1, limit := 1 } 0
    d.isFrozen 0 = true ∧ d.win.drains.length = 1 ∧ d.win.drains.all (fun r => r.kind == 1) = true := by decide +kernel

/-- 08 R260, R262: a byte written to a word of stored poison leaves it poison, a whole word clears it. -/
theorem test_poison :
    let p : Dev := { dev with mem := { dev.mem with poison := [(7, ())] } }
    (p.writeWord 7 1#512 1#64 false .good 0 none).stored 7 = true ∧ (p.writeWord 7 1#512 fullMask false .good 0 none).stored 7 = false ∧
    (p.writeWord 7 1#512 fullMask false .good 0 none).cell 448 = some 1#8 := by decide +kernel

/-- 15 R495 and 17 R533: a module without power takes no command but the pins'. -/
theorem test_power_off : after (st { dev with bup := { dev.bup with powered := false } }) (.powerControlStep 5 []) (fun d => d.pwr.frameUs) = some 0 := by
  decide +kernel

/-- 17 R545: BYPASS shifts out 0 and leaves the boundary scan. -/
theorem test_bypass : after (st { dev with pin := { dev.pin with extest := true, tdo := 7#32 } }) .jtagBypass (fun d => (d.pin.extest, d.pin.tdo)) =
    some (false, 0#32) := by decide +kernel

/-- No word spells a command, so a state with a word to fetch is the state. -/
theorem test_withFetchWord : State.reset.withFetchWord 32 5 = State.reset := rfl

end Sys2Proof.Tests
end

section
/-! SUPPORT. Bits and fields of words after a field is replaced. -/

namespace Sys2Proof.Machine

theorem bitsAt_testBit (w lo n i : Nat) : (bitsAt w lo n).testBit i = (decide (i < n) && w.testBit (i + lo)) := by
  rw [bitsAt, Nat.testBit_mod_two_pow, Nat.testBit_div_two_pow]

/-- Numbers that agree on the bits of a field hold the same field. -/
theorem bitsAt_congr {v w lo n : Nat} (h : ∀ i, lo ≤ i → i < lo + n → v.testBit i = w.testBit i) :
    bitsAt v lo n = bitsAt w lo n := by
  refine Nat.eq_of_testBit_eq fun i => ?_
  rw [bitsAt_testBit, bitsAt_testBit]
  by_cases hi : i < n
  · rw [h (i + lo) (by omega) (by omega)]
  · simp [hi]

/-- A number split at a field: what lies above it, the field, and what lies below. -/
theorem split_at_field (v lo n : Nat) :
    v = 2 ^ lo * (2 ^ n * (v / 2 ^ lo / 2 ^ n) + bitsAt v lo n) + v % 2 ^ lo := by
  rw [bitsAt, Nat.div_add_mod, Nat.div_add_mod]

theorem testBit_of_field {lo n x b : Nat} (a i : Nat) (hx : x < 2 ^ n) (hb : b < 2 ^ lo) :
    (2 ^ lo * (2 ^ n * a + x) + b).testBit i =
      if i < lo then b.testBit i else if i - lo < n then x.testBit (i - lo) else a.testBit (i - lo - n) := by
  rw [Nat.testBit_two_pow_mul_add _ hb, Nat.testBit_two_pow_mul_add _ hx]

/-- A replaced field shows its new value, and every other bit stays. -/
theorem getLsbD_setField {w : Nat} (v : BitVec w) {lo n x i : Nat} (hx : x < 2 ^ n) (hi : i < w) :
    (setField v lo n x).getLsbD i = if lo ≤ i ∧ i < lo + n then x.testBit (i - lo) else v.getLsbD i := by
  have hb : v.toNat % 2 ^ lo < 2 ^ lo := Nat.mod_lt _ (Nat.two_pow_pos lo)
  have hf : bitsAt v.toNat lo n < 2 ^ n := Nat.mod_lt _ (Nat.two_pow_pos n)
  have hv := split_at_field v.toNat lo n
  have hs : v.toNat - bitsAt v.toNat lo n * 2 ^ lo + x * 2 ^ lo =
      2 ^ lo * (2 ^ n * (v.toNat / 2 ^ lo / 2 ^ n) + x) + v.toNat % 2 ^ lo := by
    rw [Nat.mul_comm _ (2 ^ lo), Nat.mul_comm x, Nat.mul_add] at *
    omega
  have hold : v.getLsbD i = _ := (congrArg (Nat.testBit · i) hv).trans (testBit_of_field _ i hf hb)
  rw [setField, hs, BitVec.getLsbD_ofNat, testBit_of_field _ _ hx hb, hold]
  by_cases h1 : i < lo
  · simp [h1, hi, Nat.not_le.2 h1]
  · by_cases h2 : i - lo < n
    · simp [h1, h2, hi, show lo ≤ i ∧ i < lo + n by omega]
    · simp [h1, h2, hi, show ¬ (lo ≤ i ∧ i < lo + n) by omega]

/-- A field holds what replaced it. -/
theorem bf_fieldTo_self (w : Word) {hi lo x : Nat} (hx : x < 2 ^ (hi - lo + 1)) (h : lo ≤ hi) (h32 : hi < 32) :
    bf (fieldTo w hi lo x) hi lo = x := by
  refine Nat.eq_of_testBit_eq fun i => ?_
  rw [bf, bitsAt_testBit, ← BitVec.getLsbD]
  by_cases hn : i < hi - lo + 1
  · rw [fieldTo, getLsbD_setField w hx (by omega), if_pos (by omega)]
    simp [hn]
  · simp [hn, Nat.testBit_lt_two_pow (hx.trans_le (Nat.pow_le_pow_right two_pos (Nat.not_lt.1 hn)))]

/-- A field below or above one that is replaced stays. -/
theorem bf_fieldTo_disjoint (w : Word) {hi lo hi' lo' x : Nat} (hx : x < 2 ^ (hi - lo + 1)) (h' : lo' ≤ hi') (h32 : hi' < 32)
    (h : hi' < lo ∨ lo + (hi - lo) < lo') : bf (fieldTo w hi lo x) hi' lo' = bf w hi' lo' := by
  refine bitsAt_congr fun i h1 h2 => ?_
  rw [← BitVec.getLsbD, fieldTo, getLsbD_setField w hx (by omega), if_neg (by omega), BitVec.getLsbD]

end Sys2Proof.Machine
end

section
/-! SUPPORT. What a write of a control register stores and starts (00 R5), and a port's write of one. -/

namespace Sys2Proof.Machine

variable (d : Dev)

/-- The bits of a register that a write under a mask may change (00 R5). -/
def Dev.writable (a mask : Nat) : Nat := mask &&& ((regMasks a).1 ||| (if d.bup.lock then 0 else (regMasks a).2))

/-- The register's word with the bits of m taken from v. -/
def Dev.merged (a m v : Nat) : Word := BitVec.ofNat 32 (((d.reg a).toNat &&& (0xFFFFFFFF ^^^ m)) ||| (v &&& m))

theorem Dev.setMasked_eq (a m v : Nat) : d.setMasked a m v = d.setReg a (storedVal a (d.merged a m v)) := rfl

/-- A write of a register that is no seal register and has no W1C bits, with some bit to change, stores and then acts. -/
theorem Dev.writeReg_eq_regAction (p : Option Nat) {a mask : Nat} (v : Nat) (hb : blk a ≠ 9) (hw : w1cMask a = 0)
    (hm : d.writable a mask ≠ 0) : d.writeReg p a mask v =
      (d.setReg a (storedVal a (d.merged a (d.writable a mask) v))).regAction a (d.writable a mask) v := by
  unfold Dev.writable at *
  simp [Dev.writeReg, hb, hw, hm, Dev.setMasked_eq]

theorem testBit_allOnes32 {i : Nat} (hi : i < 32) : (0xFFFFFFFF : Nat).testBit i = true := by
  rw [show 0xFFFFFFFF = 2 ^ 32 - 1 from rfl, Nat.testBit_two_pow_sub_one, decide_eq_true hi]

/-- A bit with access RW is changed by a whole write, locked or not. -/
theorem Dev.writable_testBit_of_rw {a i : Nat} (h : (regMasks a).1.testBit i = true) (hi : i < 32) :
    (d.writable a 0xFFFFFFFF).testBit i = true := by
  rw [Dev.writable, Nat.testBit_and, Nat.testBit_or, testBit_allOnes32 hi, h, Bool.true_or, Bool.true_and]

/-- A field of RW bits holds, once a whole write is merged in, what was written. -/
theorem Dev.bf_merged {a hi lo : Nat} (v : Nat) (h : ∀ i, lo ≤ i → i ≤ hi → (regMasks a).1.testBit i = true)
    (h' : lo ≤ hi) (h32 : hi < 32) : bf (d.merged a (d.writable a 0xFFFFFFFF) v) hi lo = bitsAt v lo (hi - lo + 1) := by
  refine bitsAt_congr fun i h1 h2 => ?_
  have hm := d.writable_testBit_of_rw (h i h1 (by omega)) (by omega)
  rw [Dev.merged, ← BitVec.getLsbD, BitVec.getLsbD_ofNat]
  simp [hm, testBit_allOnes32, show i < 32 by omega]

/-! ### What a write of a whole register starts -/

/-- What a write of a whole register stores. -/
def Dev.wholeVal (a v : Nat) : Word := storedVal a (d.merged a (d.writable a 0xFFFFFFFF) v)

/-- A whole write of a register with an RW bit. -/
theorem Dev.writeReg_whole (p : Option Nat) {a i : Nat} (v : Nat) (hb : blk a ≠ 9) (hw : w1cMask a = 0)
    (hrw : (regMasks a).1.testBit i = true) (hi : i < 32) :
    d.writeReg p a 0xFFFFFFFF v = (d.setReg a (d.wholeVal a v)).regAction a (d.writable a 0xFFFFFFFF) v :=
  d.writeReg_eq_regAction p v hb hw fun h0 => by simpa [h0] using d.writable_testBit_of_rw hrw hi

/-- BUP_CTRL: a 1 in LOCK sets the lock, which nothing written clears (15 R483). -/
theorem Dev.writeReg_bupCtrl (p : Option Nat) (v : Word) : d.writeReg p 4 0xFFFFFFFF v.toNat =
    { d.setReg 4 (d.wholeVal 4 v.toNat) with bup := { d.bup with lock := d.bup.lock || v.getLsbD 0 } } := by
  have hrw : (regMasks 4).1.testBit 0 = true := by decide
  have hm := d.writable_testBit_of_rw hrw (by decide)
  have hact (e : Dev) : e.regAction 4 (d.writable 4 0xFFFFFFFF) v.toNat =
      if v.getLsbD 0 = true then { e with bup := { e.bup with lock := true } } else e := by
    simp [Dev.regAction, hm, BitVec.getLsbD]
  rw [d.writeReg_whole p v.toNat (by decide) (by decide) hrw (by decide), hact]
  cases v.getLsbD 0 with
  | false => rw [Bool.or_false]; exact if_neg Bool.false_ne_true
  | true => rw [Bool.or_true]; exact if_pos rfl

/-- BUP_FROND_RESET: GO requests the reset of the frond that the same write names (15 R502). -/
theorem Dev.writeReg_bupFrondReset (p : Option Nat) (v : Word) : d.writeReg p 0x10 0xFFFFFFFF v.toNat =
    if v.getLsbD 8 = true then (d.setReg 0x10 (d.wholeVal 0x10 v.toNat)).rstRequest 0 (bf v 7 0)
    else d.setReg 0x10 (d.wholeVal 0x10 v.toNat) := by
  have hrw : ∀ i < 9, (regMasks 0x10).1.testBit i = true := by decide
  have hm := d.writable_testBit_of_rw (hrw 8 (by decide)) (by decide)
  have hf : bf (d.wholeVal 0x10 v.toNat) 7 0 = bf v 7 0 :=
    (bf_fieldTo_disjoint _ (by decide) (by decide) (by decide) (by decide)).trans
      (d.bf_merged _ (fun i _ h => hrw i (by omega)) (by decide) (by decide))
  rw [d.writeReg_whole p v.toNat (by decide) (by decide) (hrw 8 (by decide)) (by decide)]
  simp [Dev.regAction, hm, BitVec.getLsbD, hf]

/-- A port's control register: RETRAIN (11 R391). -/
theorem Dev.writeReg_portCtrl (p : Option Nat) (q : Fin 6) (v : Word) : d.writeReg p (portReg q 0) 0xFFFFFFFF v.toNat =
    if v.getLsbD 1 = true then (d.setReg (portReg q 0) (d.wholeVal (portReg q 0) v.toNat)).portRetrain q
    else d.setReg (portReg q 0) (d.wholeVal (portReg q 0) v.toNat) := by
  have hplace : blk (portReg q 0) = 0x0A ∧ w1cMask (portReg q 0) = 0 ∧ portReg q 0 ≠ 4 ∧ portReg q 0 ≠ 0x10 ∧
      inArr (off (portReg q 0)) 0x100 96 = true ∧ off (portReg q 0) % 0x40 = 0 ∧ (off (portReg q 0) - 0x100) / 0x40 = q := by
    revert q; decide
  obtain ⟨hb, hw, h4, h10, hin, hmod, hq⟩ := hplace
  have hrw : (regMasks (portReg q 0)).1.testBit 1 = true := by revert q; decide
  have hm := d.writable_testBit_of_rw hrw (by decide)
  rw [d.writeReg_whole p v.toNat (by simp [hb]) hw hrw (by decide)]
  simp [Dev.regAction, hb, hm, BitVec.getLsbD, hin, hmod, hq, h4, h10]

/-- ERR_LOG_ACK takes the whole word (16 R516). -/
theorem Dev.writeReg_errLogAck (p : Option Nat) (v : Word) : d.writeReg p 0x0E00001C 0xFFFFFFFF v.toNat =
    { d.setReg 0x0E00001C (d.wholeVal 0x0E00001C v.toNat) with err := { d.err with ack := v.toNat } } := by
  have hrw : ∀ i < 32, (regMasks 0x0E00001C).1.testBit i = true := by decide
  have hf := d.bf_merged (hi := 31) (lo := 0) v.toNat (fun i _ h => hrw i (by omega)) (by decide) (by decide)
  have hval : (d.wholeVal 0x0E00001C v.toNat).toNat = v.toNat := by
    simp only [bf, bitsAt] at hf
    change (d.merged 0x0E00001C _ v.toNat).toNat = v.toNat
    omega
  rw [d.writeReg_whole p v.toNat (by decide) (by decide) (hrw 0 (by decide)) (by decide)]
  simp [Dev.regAction, blk, hval]

/-- THM_ROT_REQ stores the fields below COPY_MIB as written. -/
theorem bf_storedVal_thmRotReq (w : Word) {hi lo : Nat} (h : lo ≤ hi) (h16 : hi < 16) :
    bf (storedVal 0x0D000708 w) hi lo = bf w hi lo :=
  calc bf (storedVal 0x0D000708 w) hi lo
      = bf (fieldTo w 28 16 (min 4096 (bf w 28 16))) hi lo :=
        bf_fieldTo_disjoint _ (by decide) h (by omega) (by omega)
    _ = bf w hi lo := bf_fieldTo_disjoint w (by omega) h (by omega) (by omega)

/-- THM_ROT_REQ clamps COPY_MIB at 4096 (00 R34). -/
theorem bf_storedVal_thmRotReq_copy (w : Word) : bf (storedVal 0x0D000708 w) 28 16 = min 4096 (bf w 28 16) :=
  calc bf (storedVal 0x0D000708 w) 28 16
      = bf (fieldTo w 28 16 (min 4096 (bf w 28 16))) 28 16 :=
        bf_fieldTo_disjoint _ (by decide) (by decide) (by decide) (by decide)
    _ = min 4096 (bf w 28 16) := bf_fieldTo_self w (by omega) (by decide) (by decide)

/-- With no rotation in hand a request is accepted (14 R469). -/
theorem Dev.rotRequest_of_none {d : Dev} {a b n : Nat} (h : d.thm.rot = none) (hn : n ≤ 4096) :
    d.rotRequest a b n =
      d.setThm (fun y => { y with rot := some { a := a, b := b, mib := n, st := 1 }, rotStat := 1, rotRes := 0 }) := by
  rw [Dev.rotRequest, h, Nat.min_eq_right hn]

/-- GO in THM_ROT_REQ requests the rotation of the fronds, with the copy, that the same write names (14 R469). -/
theorem Dev.writeReg_thmRotReq (p : Option Nat) {a b n : Nat} (ha : a < 256) (hb : b < 256) (hn : n ≤ 4096) :
    let v := a + b * 2 ^ 8 + n * 2 ^ 16 + 2 ^ 29
    d.writeReg p 0x0D000708 0xFFFFFFFF v = (d.setReg 0x0D000708 (d.wholeVal 0x0D000708 v)).rotRequest a b n := by
  intro v
  have hgo : v.testBit 29 = true := by
    rw [Nat.testBit_eq_decide_div_mod_eq, decide_eq_true_eq]; omega
  have hrw : ∀ i < 30, (regMasks 0x0D000708).1.testBit i = true := by decide
  have hm := d.writable_testBit_of_rw (hrw 29 (by decide)) (by decide)
  have hmerged : ∀ {hi lo : Nat}, lo ≤ hi → hi < 29 →
      bf (d.merged 0x0D000708 (d.writable 0x0D000708 0xFFFFFFFF) v) hi lo = bitsAt v lo (hi - lo + 1) := fun h h29 =>
    d.bf_merged v (fun i _ hi => hrw i (by omega)) h (by omega)
  have hfa : bf (d.wholeVal 0x0D000708 v) 7 0 = a := by
    rw [Dev.wholeVal, bf_storedVal_thmRotReq _ (by decide) (by decide), hmerged (by decide) (by decide), bitsAt]; omega
  have hfb : bf (d.wholeVal 0x0D000708 v) 15 8 = b := by
    rw [Dev.wholeVal, bf_storedVal_thmRotReq _ (by decide) (by decide), hmerged (by decide) (by decide), bitsAt]; omega
  have hfn : bf (d.wholeVal 0x0D000708 v) 28 16 = n := by
    rw [Dev.wholeVal, bf_storedVal_thmRotReq_copy, hmerged (by decide) (by decide), bitsAt]; omega
  rw [d.writeReg_whole p v (by decide) (by decide) (hrw 29 (by decide)) (by decide)]
  simp [Dev.regAction, blk, hm, hgo, hfa, hfb, hfn]

end Sys2Proof.Machine
end

section
/-! SUPPORT. A port's write of a control word: window, address and register in the order of 03 R84. -/

namespace Sys2Proof.Machine

section
variable {d : Dev} {p a : Nat} {v : Word} (hf : d.isFrozen (portMid p) = false)
include hf

theorem Dev.portWrite_refused (hw : d.allowed (d.portSet p) 1 .write (a / 4096) = false) :
    d.portWrite p a v = d.freeze (portMid p) 5 (d.portSet p) (a / 256 * 256) ((((d.port p).high.getD 0) + 1) % 2 ^ 48) false := by
  simp [Dev.portWrite, hf, hw]

theorem Dev.portWrite_authOnly (hw : d.allowed (d.portSet p) 1 .write (a / 4096) = true) (hb : blk a < 0x11) (h4 : a % 4 = 0)
    (hn : authOnly a = true) : d.portWrite p a v = d.inc (cMod 7) := by
  simp [Dev.portWrite, hf, hw, Nat.not_le.2 hb, h4, hn]

theorem Dev.portWrite_performed (hw : d.allowed (d.portSet p) 1 .write (a / 4096) = true) (hb : blk a < 0x11) (h4 : a % 4 = 0)
    (hn : authOnly a = false) : d.portWrite p a v = d.writeReg (some p) a 0xFFFFFFFF v.toNat := by
  simp [Dev.portWrite, hf, hw, Nat.not_le.2 hb, h4, hn]

end

end Sys2Proof.Machine
end

section
/-! SUPPORT. What the rows that write or read a control word do in a running module. -/

namespace Sys2Proof.Machine

section
variable {s : State} (h : s.dev.alive = true)
include h

theorem exec_registerWrite (p : Fin 6) (a v : Word) :
    exec (.registerWrite p a v) s = .next (s.ran (s.dev.portWrite p a.toNat v)) :=
  onDev_alive (f := fun d => d.portWrite p a.toNat v) h

theorem exec_configLock (p : Fin 6) (v : Word) : exec (.configLock p v) s = .next (s.ran (s.dev.portWrite p 4 v)) :=
  onDev_alive (f := fun d => d.portWrite p 4 v) h

theorem exec_frondReset (p : Fin 6) (v : Word) (t : Nat) :
    exec (.frondReset p v t) s = .next (s.ran ((s.dev.upTo t).portWrite p 0x10 v)) :=
  onDev_alive (f := fun d => (d.upTo t).portWrite p 0x10 v) h

theorem exec_lnkPortRetrain (p q : Fin 6) (v : Word) (t : Nat) :
    exec (.lnkPortRetrain p q v t) s = .next (s.ran ((s.dev.upTo t).portWrite p (portReg q 0) v)) :=
  onDev_alive (f := fun d => (d.upTo t).portWrite p (portReg q 0) v) h

theorem exec_errLogAckWrite (p : Fin 6) (v : Word) :
    exec (.errLogAckWrite p v) s = .next (s.ran (s.dev.portWrite p 0x0E00001C v)) :=
  onDev_alive (f := fun d => d.portWrite p 0x0E00001C v) h

theorem exec_rotationRequest (a b : Fin 256) (n : Nat) : exec (.rotationRequest a b n) s =
    .next (s.ran (s.dev.writeReg none 0x0D000708 0xFFFFFFFF (a + b * 2 ^ 8 + min n 4096 * 2 ^ 16 + 2 ^ 29))) :=
  onDev_alive (f := fun d => d.writeReg none 0x0D000708 0xFFFFFFFF (a + b * 2 ^ 8 + min n 4096 * 2 ^ 16 + 2 ^ 29)) h

theorem exec_statLiveRead (r : Fin 7) (k : Nat) :
    exec (.statLiveRead r k) s = .next (s.ran (s.dev.statLive r k 0).1) :=
  onDev_alive (f := fun d => (d.statLive r k 0).1) h

end

end Sys2Proof.Machine
end

section
/-! SUPPORT. Writes of control registers. -/

open Sys2Proof Sys2Proof.Machine

/-- Settles O51: each row is a write of its register by the port, which the register's own rule then says the effect of. -/
theorem registerWrites : Obligations.RegisterWrites := by
  intro s p v t halive hthawed d may
  have hregs : ∀ q : Fin 6, blk (portReg q 0) < 0x11 ∧ portReg q 0 % 4 = 0 ∧ authOnly (portReg q 0) = false := by decide
  refine ⟨fun a hw hb h4 hn => ?_, fun a hw => ?_, fun a hw hb h4 hn => ?_, fun hw => ?_, fun hw => ?_, fun q hw => ?_,
    fun hw => ?_, fun a b n hrot hn => ?_, fun r k => exec_statLiveRead halive r k⟩
  · rw [exec_registerWrite halive, Dev.portWrite_performed hthawed hw hb h4 hn]
  · rw [exec_registerWrite halive, Dev.portWrite_refused hthawed (Bool.eq_false_iff.2 hw)]
  · rw [exec_registerWrite halive, Dev.portWrite_authOnly hthawed hw hb h4 hn]
  · refine ⟨_, exec_configLock halive p v, ?_⟩
    rw [Dev.portWrite_performed hthawed hw (by decide) (by decide) (by decide), Dev.writeReg_bupCtrl]
    exact ⟨rfl, rfl, rfl, fun a ha => (d.reg_setReg 4 a _).trans (if_neg ha)⟩
  · refine ⟨(d.upTo t).setReg 0x10 ((d.upTo t).wholeVal 0x10 v.toNat), ?_,
      fun a ha => ((d.upTo t).reg_setReg 0x10 a _).trans (if_neg ha), rfl, rfl, rfl⟩
    rw [exec_frondReset halive, Dev.portWrite_performed (d := s.dev.upTo t) hthawed hw (by decide) (by decide) (by decide),
      Dev.writeReg_bupFrondReset]
  · refine ⟨(d.upTo t).setReg (portReg q 0) ((d.upTo t).wholeVal (portReg q 0) v.toNat), ?_,
      fun a ha => ((d.upTo t).reg_setReg _ a _).trans (if_neg ha), rfl, rfl⟩
    obtain ⟨hb, h4, hn⟩ := hregs q
    rw [exec_lnkPortRetrain halive, Dev.portWrite_performed (d := s.dev.upTo t) hthawed hw hb h4 hn, Dev.writeReg_portCtrl]
  · refine ⟨_, exec_errLogAckWrite halive p v, ?_⟩
    rw [Dev.portWrite_performed hthawed hw (by decide) (by decide) (by decide), Dev.writeReg_errLogAck]
    exact ⟨rfl, rfl, rfl, rfl⟩
  · refine ⟨_, exec_rotationRequest halive a b n, ?_⟩
    rw [Nat.min_eq_left hn, Dev.writeReg_thmRotReq s.dev none a.isLt b.isLt hn,
      Dev.rotRequest_of_none (d := s.dev.setReg _ _) hrot hn]
    exact ⟨rfl, rfl, rfl, rfl⟩
end

section
/-! SUPPORT. What the maps of the device right after reset answer. -/

namespace Sys2Proof

/-- A map listed by a function of its keys answers that function for a key it lists. -/
theorem SMap.get_map_of_mem {α : Type} (g : Nat → α) (a : α) {l : List Nat} {k : Nat} (h : k ∈ l) :
    SMap.get (l.map (fun i => (i, g i)) : SMap α) k a = g k := by
  induction l with
  | nil => cases h
  | cons j l ih =>
    by_cases hj : j = k
    · simp [SMap.get, SMap.find, hj]
    · have hl : k ∈ l := (List.mem_cons.1 h).resolve_left (Ne.symm hj)
      simpa [SMap.get, SMap.find, hj] using ih hl

end Sys2Proof

namespace Sys2Proof.Machine

/-- Each stack's base-die and link domains are ON at stage 0, the others OFF (13 R425, 15 R480). -/
theorem Dev.dom_reset_st (i : Nat) (h : i < 56) : (Dev.reset.dom i).st = if 12 ≤ i % 14 then 4 else 0 := by
  have hget : Dev.reset.dom i = SMap.get bootDoms i {} := rfl
  rw [hget, bootDoms, SMap.get_map_of_mem _ _ (List.mem_range.2 h)]

/-- SEAL_RESULT of each port reads DONE alone right after reset (10 R347). -/
theorem Dev.reg_reset_seal : ∀ p < 6, Dev.reset.reg (sealReg p 16) = 0x80000000#32 := by decide

end Sys2Proof.Machine
end

section
/-! SUPPORT. What reset leaves. -/

open Sys2Proof Sys2Proof.Machine

/-- Settles O2: the maps that reset lists answer by their keys; what it leaves out has its field's first value. -/
theorem resetLeaves : Obligations.ResetLeaves :=
  ⟨rfl, rfl, rfl, rfl, rfl, rfl, rfl, rfl, rfl, fun _ => rfl, Dev.dom_reset_st, fun _ _ => rfl, Dev.reg_reset_seal,
    rfl, rfl, rfl, rfl⟩
end

section
/-! SUPPORT. When a frame ticks (02 R36-R40): the edge, the internal generator and the fallback, case by case. -/

namespace Sys2Proof.Machine

variable {d : Dev} {fs : Fuses} {t high : Nat} {env : TickEnv}

/-- A tick sets the moment itself. -/
theorem Dev.tickGo_upTo (d : Dev) (fs : Fuses) (t : Nat) (internal fallback : Bool) (env : TickEnv) :
    (d.upTo t).tickGo fs t internal fallback env = d.tickGo fs t internal fallback env := by
  unfold Dev.tickGo
  simp -zeta only [Dev.upTo]

/-- An edge that is too short, or that comes under SRC = INTERNAL, does nothing. -/
theorem Dev.tickEdge_ignored (h : high < 10 ∨ d.srcInternal = true) : d.tickEdge fs t high env = (d, fs) := by
  rcases h with h | h <;> simp [Dev.tickEdge, h]

section
variable (h7 : d.bup.stage = 7) (hhigh : 10 ≤ high) (hsrc : d.srcInternal = false) (hlast : d.lastTick ≤ t)
include h7 hhigh hsrc hlast

/-- An edge less than half a period after the last tick is counted and does nothing more (02 R37). -/
theorem Dev.tickEdge_early (hopen : d.frm.opened = true) (hp : 2 * (t - d.lastTick) < d.periodNs) :
    d.tickEdge fs t high env = ((d.upTo t).inc (cMod 0), fs) := by
  simp [Dev.tickEdge, Dev.upTo, h7, Nat.not_lt.2 hhigh, hsrc, Nat.not_lt.2 hlast, hopen, hp]

/-- An edge between half a period and four periods after the last tick is the tick (02 R37, R38). -/
theorem Dev.tickEdge_accepted (hp : d.frm.opened = true → d.periodNs ≤ 2 * (t - d.lastTick)) (hstand : d.frm.standIn = false)
    (h4 : t ≤ d.lastTick + 4 * d.periodNs) :
    d.tickEdge fs t high env = (d.setTick (fun w => w &&& 0xFFFFFFFE#32)).tickGo fs t false false env := by
  have hearly : ¬ (d.frm.opened = true ∧ 2 * (t - d.lastTick) < d.periodNs) := fun h => Nat.not_lt.2 (hp h.1) h.2
  have hcomm : (d.setTick (fun w => w &&& 0xFFFFFFFE#32)).upTo t = (d.upTo t).setTick (fun w => w &&& 0xFFFFFFFE#32) := rfl
  rw [← Dev.tickGo_upTo, hcomm]
  simp [Dev.tickEdge, Dev.upTo, h7, Nat.not_lt.2 hhigh, hsrc, Nat.not_lt.2 hlast, hearly, hstand, Nat.not_lt.2 h4]

end

/-- The generator ticks when it is due: by itself, or standing in while neither the edge's return nor SRC ends that. -/
theorem Dev.internalTick_due (h7 : d.bup.stage = 7) (hon : d.srcInternal = true ∨ d.frm.standIn = true)
    (hstay : d.frm.standIn = true → d.frm.restore = false ∧ (d.reg tickCtrl).getLsbD 0 = false)
    (hdue : t = if d.frm.opened = true then d.lastTick + d.periodNs else d.frm.entry7) :
    d.internalTick fs t env = (d.setTick (fun w => (w &&& 0xFFFFFFFE#32) |||
      (if ((d.reg tickCtrl).getLsbD 0 || d.frm.standIn) = true then 1#32 else 0#32))).tickGo fs t true false env := by
  have hrun : (d.bup.stage != 7 || !(d.srcInternal || d.frm.standIn) ||
      t != if d.frm.opened = true then d.lastTick + d.periodNs else d.frm.entry7) = false := by
    rcases hon with hon | hon <;> simp [h7, hon, ← hdue]
  have hend : (d.frm.standIn && (d.frm.restore || (d.reg tickCtrl).getLsbD 0)) = false := by
    simpa using hstay
  simp only [Dev.internalTick, hrun, hend, Bool.false_eq_true, if_false]

/-- Four periods without an accepted edge: the fallback ticks, is counted and raises TICK_LOST (02 R38, R39). -/
theorem Dev.fallbackTick_due (h7 : d.bup.stage = 7) (hsrc : d.srcInternal = false) (hstand : d.frm.standIn = false)
    (hdue : t = d.lastTick + 4 * d.periodNs) :
    let late : Dev := { d with frm := { d.frm with standIn := !(d.reg tickCtrl).getLsbD 0, lastEdge := none, restore := false } }
    let r := (late.setTick (fun w => w ||| 3#32)).tickGo fs t true true env
    d.fallbackTick fs t env = ((r.1.inc (cMod 1)).raise 0 { cls := 0, kind := 0, code := 0x0101 }, r.2) := by
  simp only [Dev.fallbackTick, h7, hsrc, hstand, hdue, bne_self_eq_false, Bool.or_self, Bool.false_eq_true, if_false]

section
variable {s : State} (h : s.dev.alive = true) {r : Dev × Fuses}
include h

theorem exec_frameTickEdge (hr : s.dev.tickEdge s.fuse t high env = r) :
    exec (.frameTickEdge t high env) s = .next { s.ran r.1 with fuse := r.2 } :=
  hr ▸ onFuse_alive (f := fun d fs => d.tickEdge fs t high env) h

theorem exec_internalTick (hr : s.dev.internalTick s.fuse t env = r) :
    exec (.internalTick t env) s = .next { s.ran r.1 with fuse := r.2 } :=
  hr ▸ onFuse_alive (f := fun d fs => d.internalTick fs t env) h

theorem exec_fallbackTick (hr : s.dev.fallbackTick s.fuse t env = r) :
    exec (.fallbackTick t env) s = .next { s.ran r.1 with fuse := r.2 } :=
  hr ▸ onFuse_alive (f := fun d fs => d.fallbackTick fs t env) h

end

end Sys2Proof.Machine
end

section
/-! SUPPORT. When a frame ticks. -/

open Sys2Proof Sys2Proof.Machine

/-- Settles O32: each clause is one case of the edge, of the generator or of the fallback. -/
theorem frameTicks : Obligations.FrameTicks := by
  intro s t high env halive h7 d p went late
  refine ⟨fun h => ?_, fun h => ?_, fun hh hs hl ho hp => ?_, fun hh hs hl hp hi h4 => ?_, fun hs hi hdue => ?_,
    fun ho hi hr hc hdue => ?_, fun hs hi hdue => ?_⟩
  · exact exec_frameTickEdge halive (Dev.tickEdge_ignored (.inl h))
  · exact exec_frameTickEdge halive (Dev.tickEdge_ignored (.inr h))
  · exact exec_frameTickEdge halive (Dev.tickEdge_early h7 hh hs hl ho hp)
  · exact exec_frameTickEdge halive (Dev.tickEdge_accepted h7 hh hs hl hp hi h4)
  · refine exec_internalTick halive ((Dev.internalTick_due h7 (.inl hs) (by simp [d, hi]) hdue).trans ?_)
    simp [d, hi]
  · refine exec_internalTick halive
      ((Dev.internalTick_due h7 (.inr hi) (fun _ => ⟨hr, hc⟩) (hdue.trans (if_pos ho).symm)).trans ?_)
    simp [d, hi]
  · exact exec_fallbackTick halive (Dev.fallbackTick_due h7 hs hi hdue)
end

section
/-! SUPPORT. What stipe 0 does with a slot: a commit word seen, a check ended (02 R48-R50). -/

namespace Sys2Proof.Machine

variable {d : Dev} {i : Nat}

/-! ### Commit words -/

theorem committed_some (w : Word) : committed (some w) = if cwState w = 1 then some (cwSeq w) else none := by
  simp [committed]

section
variable (h7 : d.bup.stage = 7) (hst : (d.slot i).st ≠ 2)
include h7 hst

/-- A slot whose commit word reads COMMITTED is void of what was held, and its check starts (02 R48). -/
theorem Dev.planCommit_of_committed (h : (committed (d.sampleCommit i).2).isSome = true) :
    let void := (d.sampleCommit i).1.dropSlot i
    d.planCommit i = void.setSlot i { void.slot i with st := 1 } := by
  simp [Dev.planCommit, h7, hst, h]

/-- What is held of a slot whose commit word does not read COMMITTED is void (02 R48, R49). -/
theorem Dev.planCommit_of_not_committed (h : committed (d.sampleCommit i).2 = none) :
    d.planCommit i = (d.sampleCommit i).1.dropSlot i := by
  simp [Dev.planCommit, h7, hst, h]

end

/-! ### The end of a check -/

@[simp] theorem Dev.slot_setSlot_self (d : Dev) (i : Nat) (x : PlanSlot) : (d.setSlot i x).slot i = x := by
  simp [Dev.slot]

@[simp] theorem Dev.takePlan_taken (d : Dev) (i : Nat) (p : Plan) : (d.takePlan i p).frm.taken = some p.seq := rfl

/-- A rejected plan leaves its slot empty, and its code is the frame's rejection (02 R50). -/
theorem Dev.rejectPlan_frm (d : Dev) (i seq code : Nat) :
    ((d.rejectPlan i seq code).slot i).st = 0 ∧ ((d.rejectPlan i seq code).slot i).plan = none ∧
      (d.rejectPlan i seq code).frm.reject = some code := by
  simp [Dev.rejectPlan, Dev.inc_eq, Dev.slot]

theorem Dev.foldl_frm {f : Dev → Nat → Dev} (hf : ∀ e j, (f e j).frm = e.frm) (l : List Nat) (d : Dev) :
    (l.foldl f d).frm = d.frm :=
  List.foldlRecOn (motive := fun e => e.frm = d.frm) l f rfl (fun e h j _ => (hf e j).trans h)

theorem Dev.stackBudget_frm (d : Dev) (s : Nat) (amount : Rat) (limited : Bool) (src : Nat) :
    (d.stackBudget s amount limited src).frm = d.frm := by
  simp only [Dev.stackBudget]
  exact Dev.foldl_frm (fun e _ => e.modDom_frm _ _) _ d

/-- The shares of a frame are power's: its plans and slots stay (02 R56). -/
theorem Dev.allocate_frm (d : Dev) (measured : List Nat) : (d.allocate measured).frm = d.frm := by
  simp only [Dev.allocate]
  exact Dev.foldl_frm (fun _ _ => Dev.stackBudget_frm ..) _ _

theorem Dev.planTaken_frm (d : Dev) (i : Nat) : (d.planTaken i).frm = (d.planCheckEnd i).frm := by
  simp only [Dev.planTaken]
  split_ifs
  · exact Dev.allocate_frm _ _
  · rfl

section
variable {e : Dev} {p : Plan} {c : Nat × Nat}

/-- A held plan that passes its check is taken, and the shares of its frame are formed again (02 R48, R56). -/
theorem Dev.planTaken_held (hst : (d.slot i).st = 2) (hc : d.checkPlan i = (e, .ok p)) :
    d.planTaken i = (e.takePlan i p).allocate (e.takePlan i p).pwr.measured := by
  have hend : d.planCheckEnd i = e.takePlan i p := by simp [Dev.planCheckEnd, hst, hc]
  simp [Dev.planTaken, hst, hend]

/-- A plan that passes its check before its tick waits for it (02 R50). -/
theorem Dev.planTaken_waiting (hst : (d.slot i).st = 1) (hc : d.checkPlan i = (e, .ok p)) :
    d.planTaken i = e.setSlot i { e.slot i with st := 3, plan := some p } := by
  simp [Dev.planTaken, Dev.planCheckEnd, hst, hc]

/-- A plan that fails its check is rejected with the code of the check that failed (02 R50). -/
theorem Dev.planTaken_failed (hst : (d.slot i).st = 1 ∨ (d.slot i).st = 2) (hc : d.checkPlan i = (e, .error c)) :
    ((d.planTaken i).slot i).st = 0 ∧ ((d.planTaken i).slot i).plan = none ∧ (d.planTaken i).frm.reject = some c.1 := by
  have hrun : ¬ ((d.slot i).st != 1 && (d.slot i).st != 2) = true := by rcases hst with h | h <;> simp [h]
  have hrej : ∃ (e' : Dev) (q : Nat), d.planCheckEnd i = e'.rejectPlan i q c.1 := by
    simp only [Dev.planCheckEnd, if_neg hrun, hc]
    exact ⟨_, _, rfl⟩
  obtain ⟨e', q, hend⟩ := hrej
  simp only [Dev.slot, Dev.planTaken_frm, hend]
  exact e'.rejectPlan_frm i q c.1

end

end Sys2Proof.Machine
end

section
/-! SUPPORT. The start and the ending of a work unit (02 R55, R64, R558, 05 R166). -/

namespace Sys2Proof.Machine

variable {d : Dev} {k t : Nat} {u : WUnit}

/-! ### Dispatch -/

section
variable (hu : d.unit k = some u) (hready : d.ready u = true)
include hu hready

/-- A ready unit without a usable target ends NOT_STARTED with the cause (02 R55). -/
theorem Dev.dispatch_of_unavailable (hc : (d.upTo t).unavailable u ≠ 0) :
    d.dispatch k t = (d.upTo t).endUnit k 2 ((d.upTo t).unavailable u) 0 := by
  rw [Dev.upTo] at *
  simp [Dev.dispatch, hu, hready, hc]

/-- A ready COPY waits for no domain: it starts on its engine as soon as nothing goes before it (02 R55). -/
theorem Dev.dispatch_copy (hkind : u.kind = 2) (hc : (d.upTo t).unavailable u = 0) (hw : (d.upTo t).mustWait u = false) :
    d.dispatch k t =
      ((d.upTo t).modUnit k (fun v => { v with phase := 1, start := some (d.upTo t).now })).launchCopy u := by
  have hdoms : (d.upTo t).domsOf u = [] := by simp [Dev.domsOf, WUnit.frondOf, hkind]
  rw [Dev.upTo] at *
  simp [Dev.dispatch, hu, hready, hc, hw, hdoms, hkind]

end

/-- A COPY with something to copy starts with its reads (02 R558). -/
theorem Dev.launchCopy_of_length (h : u.length ≠ 0) :
    let o := u.addrA % 64
    let n := (o + u.length + 63) / 64
    d.launchCopy u = { d with
      xfers := d.xfers ++ [({ id := d.nextX, mid := engineMid u.target, kind := .copyRead, base := u.addrA - o
                              n := n, rowG := n, limit := n, loc := o
                              masks := if o = 0 then [] else [(0, byteMask o (64 - o)), (n - 1, byteMask 0 o)]
                              wset := u.wset, unit := u.key } : Xfer)]
      nextX := d.nextX + 1 } := by
  simp [Dev.launchCopy, h]

/-! ### Endings -/

/-- A stopped unit that has drained ends with the cause that stands first (05 R166). -/
theorem Dev.unitEndGo_of_drained (hu : d.unit k = some u) (hphase : u.phase = 2) (hdrained : d.drained u = true) :
    d.unitEndGo k t =
      (d.upTo t).endUnit k (stateOf (chooseStop u.stops).1) (chooseStop u.stops).1 (chooseStop u.stops).2 := by
  simp [Dev.unitEndGo, Dev.upTo, hu, hphase, hdrained]

/-- The ending is one of those that stopped the unit, or COMPLETE where no listed cause did. -/
theorem chooseStop_mem (stops : List (Nat × Nat)) : chooseStop stops ∈ stops ∨ chooseStop stops = (0, 0) := by
  unfold chooseStop
  split
  case h_1 s hs =>
    obtain ⟨c, -, hc⟩ := List.exists_of_findSome?_eq_some hs
    exact .inl (List.mem_of_find?_eq_some hc)
  case h_2 => exact .inr rfl

/-- RESET stands before every other cause (05 R166). -/
theorem chooseStop_reset {stops : List (Nat × Nat)} (h : ∃ s ∈ stops, s.1 = 12) : (chooseStop stops).1 = 12 := by
  have hsome : (stops.find? (fun s => s.1 == 12)).isSome = true := by simpa using h
  obtain ⟨s, hs⟩ := Option.isSome_iff_exists.1 hsome
  have h12 : s.1 = 12 := by simpa using List.find?_some hs
  simpa [chooseStop, causeOrder, hs] using h12

end Sys2Proof.Machine
end

section
/-! SUPPORT. What the rows of plans and units do in a running module. -/

namespace Sys2Proof.Machine

section
variable {s : State} {e : Dev} (h : s.dev.alive = true)
include h

theorem exec_planCommit {i : Fin 2} (he : s.dev.planCommit i = e) : exec (.planCommit i) s = .next (s.ran e) :=
  he ▸ onDev_alive (f := fun d => d.planCommit i) h

theorem exec_planCheckEnd {i : Fin 2} {t : Nat} (he : (s.dev.upTo t).planTaken i = e) :
    exec (.planCheckEnd i t) s = .next (s.ran e) :=
  he ▸ onDev_alive (f := fun d => (d.upTo t).planTaken i) h

theorem exec_unitDispatch {k t : Nat} (he : s.dev.dispatch k t = e) : exec (.unitDispatch k t) s = .next (s.ran e) :=
  he ▸ onDev_alive (f := fun d => d.dispatch k t) h

theorem exec_unitEnd {k t : Nat} (he : s.dev.unitEndGo k t = e) : exec (.unitEnd k t) s = .next (s.ran e) :=
  he ▸ onDev_alive (f := fun d => d.unitEndGo k t) h

end

end Sys2Proof.Machine
end

section
/-! SUPPORT. Plans and work units. -/

open Sys2Proof Sys2Proof.Machine

/-- Settles O33: each clause is one case of the row's own function. -/
theorem plansAndUnits : Obligations.PlansAndUnits := by
  intro s halive d
  refine ⟨fun i h7 hst => ?_, fun i t hst => ?_, fun k t u hu hready => ⟨?_, ?_⟩, fun k t u hu hphase hdrained => ?_⟩
  · intro r void
    cases hw : r.2 with
    | none => exact exec_planCommit halive (Dev.planCommit_of_not_committed h7 hst (congrArg committed hw))
    | some w =>
      have hcw : committed (d.sampleCommit i).2 = _ := (congrArg committed hw).trans (committed_some w)
      by_cases hstate : cwState w = 1
      · have hsome : (committed (d.sampleCommit i).2).isSome = true := by rw [hcw, if_pos hstate]; rfl
        exact exec_planCommit halive ((Dev.planCommit_of_committed h7 hst hsome).trans (if_pos hstate).symm)
      · have hnone : committed (d.sampleCommit i).2 = none := hcw.trans (if_neg hstate)
        exact exec_planCommit halive ((Dev.planCommit_of_not_committed h7 hst hnone).trans (if_neg hstate).symm)
  · rcases hc : (d.upTo t).checkPlan i with ⟨e, c | p⟩
    · exact ⟨_, exec_planCheckEnd halive rfl, Dev.planTaken_failed (d := d.upTo t) hst hc⟩
    · rcases hst with hst | hst
      · have hne : (d.slot i).st ≠ 2 := by simp [hst]
        exact exec_planCheckEnd halive ((Dev.planTaken_waiting (d := d.upTo t) hst hc).trans (if_neg hne).symm)
      · exact exec_planCheckEnd halive ((Dev.planTaken_held (d := d.upTo t) hst hc).trans (if_pos hst).symm)
  · rintro c rfl hc
    exact exec_unitDispatch halive (Dev.dispatch_of_unavailable hu hready hc)
  · intro hkind hc hw hlen
    exact exec_unitDispatch halive
      ((Dev.dispatch_copy hu hready hkind hc hw).trans (Dev.launchCopy_of_length hlen))
  · exact ⟨exec_unitEnd halive (Dev.unitEndGo_of_drained hu hphase hdrained), chooseStop_reset, chooseStop_mem u.stops⟩
end

section
/-! SUPPORT. The two views of device memory by their fields: partition, page in the partition, byte in the page (03 R78). -/

namespace Sys2Proof.Machine

/-- A partition number as SWIZZLE maps it, for a page of the partition (03 R78, R80). -/
def swizzled (sw : Bool) (f page : Nat) : Nat := if sw = true then f ^^^ (page % 256) else f

variable (sw : Bool) {f page o a : Nat}

theorem swizzled_lt (hf : f < 256) : swizzled sw f page < 256 := by
  cases sw with
  | false => exact hf
  | true => exact Nat.xor_lt_two_pow (n := 8) hf (Nat.mod_lt _ (by decide))

@[simp] theorem swizzled_swizzled : swizzled sw (swizzled sw f page) page = f := by
  cases sw with
  | false => rfl
  | true => exact Nat.xor_xor_cancel_right f (page % 256)

theorem hostToLinear_eq_swizzled (a : Nat) : hostToLinear sw a =
    swizzled sw (a / 2 ^ 12 % 256) (a / 2 ^ 20 % 2 ^ 20) * 2 ^ 32 + a / 2 ^ 20 % 2 ^ 20 * 2 ^ 12 + a % 2 ^ 12 := rfl

theorem linearToHost_eq_swizzled (a : Nat) : linearToHost sw a =
    a / 2 ^ 12 % 2 ^ 20 * 2 ^ 20 + swizzled sw (a / 2 ^ 32 % 256) (a / 2 ^ 12 % 2 ^ 20) * 2 ^ 12 + a % 2 ^ 12 := rfl

/-- The fields of a host-interleaved address keep apart: partition at bit 12, page at bit 20. -/
theorem hostToLinear_of_fields (hf : f < 256) (hp : page < 2 ^ 20) (ho : o < 2 ^ 12) :
    hostToLinear sw (page * 2 ^ 20 + f * 2 ^ 12 + o) = swizzled sw f page * 2 ^ 32 + page * 2 ^ 12 + o := by
  have hpage : (page * 2 ^ 20 + f * 2 ^ 12 + o) / 2 ^ 20 % 2 ^ 20 = page := by omega
  have hpart : (page * 2 ^ 20 + f * 2 ^ 12 + o) / 2 ^ 12 % 256 = f := by omega
  have hbyte : (page * 2 ^ 20 + f * 2 ^ 12 + o) % 2 ^ 12 = o := by omega
  rw [hostToLinear_eq_swizzled, hpage, hpart, hbyte]

/-- The fields of a linear address keep apart: page at bit 12, partition at bit 32. -/
theorem linearToHost_of_fields (hf : f < 256) (hp : page < 2 ^ 20) (ho : o < 2 ^ 12) :
    linearToHost sw (f * 2 ^ 32 + page * 2 ^ 12 + o) = page * 2 ^ 20 + swizzled sw f page * 2 ^ 12 + o := by
  have hpage : (f * 2 ^ 32 + page * 2 ^ 12 + o) / 2 ^ 12 % 2 ^ 20 = page := by omega
  have hpart : (f * 2 ^ 32 + page * 2 ^ 12 + o) / 2 ^ 32 % 256 = f := by omega
  have hbyte : (f * 2 ^ 32 + page * 2 ^ 12 + o) % 2 ^ 12 = o := by omega
  rw [linearToHost_eq_swizzled, hpage, hpart, hbyte]

section
variable (h : a < 2 ^ 40)
include h

theorem hostToLinear_linearToHost : hostToLinear sw (linearToHost sw a) = a := by
  have hf : a / 2 ^ 32 % 256 < 256 := Nat.mod_lt _ (by decide)
  rw [linearToHost_eq_swizzled, hostToLinear_of_fields sw (swizzled_lt sw hf) (by omega) (by omega), swizzled_swizzled]
  omega

theorem linearToHost_hostToLinear : linearToHost sw (hostToLinear sw a) = a := by
  have hf : a / 2 ^ 12 % 256 < 256 := Nat.mod_lt _ (by decide)
  rw [hostToLinear_eq_swizzled, linearToHost_of_fields sw (swizzled_lt sw hf) (by omega) (by omega), swizzled_swizzled]
  omega

end

theorem hostToLinear_lt (a : Nat) : hostToLinear sw a < 2 ^ 40 := by
  have hf : swizzled sw (a / 2 ^ 12 % 256) (a / 2 ^ 20 % 2 ^ 20) < 256 := swizzled_lt sw (Nat.mod_lt _ (by decide))
  rw [hostToLinear_eq_swizzled]
  omega

theorem linearToHost_lt (a : Nat) : linearToHost sw a < 2 ^ 40 := by
  have hf : swizzled sw (a / 2 ^ 32 % 256) (a / 2 ^ 12 % 2 ^ 20) < 256 := swizzled_lt sw (Nat.mod_lt _ (by decide))
  rw [linearToHost_eq_swizzled]
  omega

/-- Both views hold a byte at one place of its 4-KiB page. -/
theorem hostToLinear_mod_page (a : Nat) : hostToLinear sw a % 4096 = a % 4096 := by
  rw [hostToLinear_eq_swizzled]
  omega

theorem linearToHost_mod_page (a : Nat) : linearToHost sw a % 4096 = a % 4096 := by
  rw [linearToHost_eq_swizzled]
  omega

end Sys2Proof.Machine
end

section
/-! SUPPORT. The two views of device memory. -/

open Sys2Proof Sys2Proof.Machine

/-- Settles O40: each map takes the fields apart, and a second swizzle by the same page undoes the first. -/
theorem hostAddressBijection : Obligations.HostAddressBijection := fun sw a h =>
  ⟨hostToLinear_eq_swizzled sw a, linearToHost_eq_swizzled sw a, hostToLinear_linearToHost sw h,
    linearToHost_hostToLinear sw h, hostToLinear_lt sw a, linearToHost_lt sw a, hostToLinear_mod_page sw a,
    linearToHost_mod_page sw a⟩
end

section
/-! SUPPORT. What a window set grants, and what a freeze cuts short of the transfers under way (03 R88-R90). -/

namespace Sys2Proof.Machine

variable (d : Dev)

/-! ### Windows (03 R88, R89) -/

theorem Dev.grants_iff (set w space page : Nat) (k : AccK) : d.grants set w space k page = true ↔
    (d.winWord set w 1).getLsbD 30 = true ∧ bf (d.winWord set w 1) 29 28 = space ∧
      (d.winWord set w 0).getLsbD k.bit = true ∧ bf (d.winWord set w 0) 27 0 ≤ page ∧ page ≤ bf (d.winWord set w 1) 27 0 := by
  simp [Dev.grants, and_assoc]

theorem Dev.allowed_iff (set space page : Nat) (k : AccK) :
    d.allowed set space k page = true ↔ ∃ w < 16, d.grants set w space k page = true := by
  simp [Dev.allowed]

/-! ### What a freeze leaves of the transfers (03 R90, 02 R559, 05 R165) -/

@[simp] theorem Dev.truncCopy_win (k : Nat) : (d.truncCopy k).win = d.win := rfl

/-- A transfer that stays is one there was, or what was performed of it. -/
theorem Dev.of_mem_truncCopy_xfers {k : Nat} {y : Xfer} (h : y ∈ (d.truncCopy k).xfers) :
    ∃ z ∈ d.xfers, y = z ∨ y = { z with limit := z.next } := by
  obtain ⟨z, hz, hy⟩ := List.mem_map.1 (List.mem_of_mem_filter h)
  refine ⟨z, hz, ?_⟩
  split at hy
  · exact .inr hy.symm
  · exact .inl hy.symm

/-- A transfer of no copy engine, no FILL and no wait stays as it is. -/
theorem Dev.mem_truncCopy_xfers {k : Nat} {x : Xfer} (hk : x.kind ∉ [.copyRead, .copyWrite, .waitm, .gWaitm])
    (hfill : x.kind ≠ .gFill ∨ x.ip ≠ 0x10000) (h : x ∈ d.xfers) : x ∈ (d.truncCopy k).xfers := by
  simp only [List.mem_cons, List.not_mem_nil, or_false, not_or] at hk
  obtain ⟨hread, hwrite, hwaitm, hgWaitm⟩ := hk
  have hno : (x.kind == .gFill && x.ip == 0x10000) = false := by
    rcases hfill with hfill | hfill <;> simp [hfill]
  refine List.mem_filter.2 ⟨List.mem_map.2 ⟨x, h, ?_⟩, ?_⟩
  all_goals simp [hread, hwrite, hwaitm, hgWaitm, hno]

@[simp] theorem Dev.stopUnit_win (k cause aux : Nat) : (d.stopUnit k cause aux).win = d.win := by
  unfold Dev.stopUnit
  split <;> rfl

theorem Dev.stopUnit_xfers (k cause aux : Nat) :
    (d.stopUnit k cause aux).xfers = d.xfers ∨ (d.stopUnit k cause aux).xfers = (d.truncCopy k).xfers := by
  unfold Dev.stopUnit
  split
  · exact .inl rfl
  · exact .inr rfl

section
variable {m : Nat} (kind wset addr ctx : Nat) (dead : Bool)

theorem Dev.freeze_of_frozen (hm : m ≠ stipeMid) (hf : d.isFrozen m = true) :
    d.freeze m kind wset addr ctx dead = d.inc (cMod 8) := by
  simp [Dev.freeze, hm, hf]

/-- A master that was not frozen is, with its drain, and the unit that it runs stops. -/
theorem Dev.freeze_of_not_frozen (hm : m ≠ stipeMid) (hf : d.isFrozen m = false) :
    ∃ dr, d.freeze m kind wset addr ctx dead = Dev.stopUnit { d with win := { d.win with
      frozen := d.win.frozen ++ [m], drains := d.win.drains ++ [dr] } } (d.unitKey m) 6 0 := by
  simp only [Dev.freeze, beq_false_of_ne hm, hf, Bool.false_eq_true, if_false]
  exact ⟨_, rfl⟩

/-- The master of a refused line is frozen at once (03 R90). -/
theorem Dev.isFrozen_freeze (hm : m ≠ stipeMid) : (d.freeze m kind wset addr ctx dead).isFrozen m = true := by
  cases hf : d.isFrozen m with
  | true => rwa [d.freeze_of_frozen kind wset addr ctx dead hm hf]
  | false =>
    obtain ⟨dr, h⟩ := d.freeze_of_not_frozen kind wset addr ctx dead hm hf
    simp [h, Dev.isFrozen]

/-- A freeze leaves the transfers, or cuts short those of one unit. -/
theorem Dev.freeze_xfers (hm : m ≠ stipeMid) : (d.freeze m kind wset addr ctx dead).xfers = d.xfers ∨
    ∃ k, (d.freeze m kind wset addr ctx dead).xfers = (d.truncCopy k).xfers := by
  cases hf : d.isFrozen m with
  | true => exact .inl (by rw [d.freeze_of_frozen kind wset addr ctx dead hm hf]; rfl)
  | false =>
    obtain ⟨dr, h⟩ := d.freeze_of_not_frozen kind wset addr ctx dead hm hf
    rw [h]
    exact (Dev.stopUnit_xfers ..).imp_right fun h => ⟨_, h⟩

theorem Dev.of_mem_freeze_xfers (hm : m ≠ stipeMid) {y : Xfer} (h : y ∈ (d.freeze m kind wset addr ctx dead).xfers) :
    ∃ z ∈ d.xfers, y = z ∨ y = { z with limit := z.next } := by
  rcases d.freeze_xfers kind wset addr ctx dead hm with hx | ⟨k, hx⟩
  · exact ⟨y, hx ▸ h, .inl rfl⟩
  · exact d.of_mem_truncCopy_xfers (hx ▸ h)

theorem Dev.mem_freeze_xfers (hm : m ≠ stipeMid) {x : Xfer} (hk : x.kind ∉ [.copyRead, .copyWrite, .waitm, .gWaitm])
    (hfill : x.kind ≠ .gFill ∨ x.ip ≠ 0x10000) (h : x ∈ d.xfers) : x ∈ (d.freeze m kind wset addr ctx dead).xfers := by
  rcases d.freeze_xfers kind wset addr ctx dead hm with hx | ⟨k, hx⟩
  · exact hx ▸ h
  · exact hx ▸ d.mem_truncCopy_xfers hk hfill h

end

end Sys2Proof.Machine
end

section
/-! SUPPORT. What a master's issue of a transfer performs (03 R89, R90). -/

namespace Sys2Proof.Machine

variable {d : Dev} {x : Xfer} {ctx i : Nat}

theorem Dev.firstRefused_eq_none_iff :
    d.firstRefused x = none ↔ ∀ i < x.n, d.allowedAt x.wset x.kind.acc (x.addr i) = true := by
  simp [Dev.firstRefused]

theorem Dev.firstRefused_eq_some_iff : d.firstRefused x = some i ↔
    i < x.n ∧ d.allowedAt x.wset x.kind.acc (x.addr i) = false ∧
      ∀ j < i, d.allowedAt x.wset x.kind.acc (x.addr j) = true := by
  simp [Dev.firstRefused, List.find?_range_eq_some, and_left_comm]

/-- The device once transfer x is under way, up to a limit. -/
def Dev.started (d : Dev) (x : Xfer) (limit : Nat) : Dev :=
  { d with nextX := d.nextX + 1, xfers := d.xfers ++ [{ x with id := d.nextX, limit := limit }] }

section
variable (hrem : x.remote = none)
include hrem

/-- A transfer that names no other module is checked line by line where it is issued. -/
theorem Dev.issue_check {ref : Option Nat} (h : d.firstRefused x = ref) :
    (if x.remote.isSome = true then none else d.firstRefused { x with id := d.nextX }) = ref := by
  rw [hrem]
  exact h

theorem Dev.issue_of_granted (hn : 0 < x.n) (h : d.firstRefused x = none) : d.issue x ctx = d.started x x.n := by
  have hlim : (x.n == 0) = false := beq_false_of_ne hn.ne'
  simp only [Dev.issue, Dev.issue_check hrem h, Option.getD_none, hlim, Bool.false_eq_true, if_false, Dev.started]

theorem Dev.issue_of_refused (h : d.firstRefused x = some i) : d.issue x ctx =
    (if i = 0 then { d with nextX := d.nextX + 1 } else d.started x i).freeze x.mid x.kind.acc.code x.wset (x.addr i) ctx false := by
  simp only [Dev.issue, Dev.issue_check hrem h, Option.getD_some, beq_iff_eq]
  rfl

end

section
variable (hrem : x.remote = none) (hm : x.mid ≠ stipeMid) (h : d.firstRefused x = some i)
include hrem hm h

/-- A master whose line is refused is frozen (03 R90). -/
theorem Dev.isFrozen_issue : (d.issue x ctx).isFrozen x.mid = true := by
  rw [Dev.issue_of_refused hrem h]
  exact Dev.isFrozen_freeze _ _ _ _ _ _ hm

/-- The pieces before the first refused line are under way, where the freeze does not cut their kind short (03 R89). -/
theorem Dev.mem_issue_xfers (hk : x.kind ∉ [.copyRead, .copyWrite, .waitm, .gWaitm])
    (hfill : x.kind ≠ .gFill ∨ x.ip ≠ 0x10000) (hi : 0 < i) :
    { x with id := d.nextX, limit := i } ∈ (d.issue x ctx).xfers := by
  rw [Dev.issue_of_refused hrem h, if_neg hi.ne']
  exact Dev.mem_freeze_xfers _ _ _ _ _ _ hm hk hfill (List.mem_append_right _ (List.mem_singleton.2 rfl))

/-- No piece from the first refused line on is ever performed (03 R89). -/
theorem Dev.limit_le_of_mem_issue_xfers (hnext : x.next = 0) (hnew : ∀ z ∈ d.xfers, z.id ≠ d.nextX) {y : Xfer}
    (hy : y ∈ (d.issue x ctx).xfers) (hid : y.id = d.nextX) : 0 < i ∧ y.limit ≤ i := by
  rw [Dev.issue_of_refused hrem h] at hy
  obtain ⟨z, hz, hcut⟩ := Dev.of_mem_freeze_xfers _ _ _ _ _ _ hm hy
  have hzid : z.id = d.nextX := by rcases hcut with rfl | rfl <;> exact hid
  by_cases hi : i = 0
  · rw [if_pos hi] at hz
    exact absurd hzid (hnew z hz)
  · rw [if_neg hi] at hz
    rcases List.mem_append.1 hz with hz | hz
    · exact absurd hzid (hnew z hz)
    · obtain rfl := List.mem_singleton.1 hz
      refine ⟨Nat.pos_of_ne_zero hi, ?_⟩
      rcases hcut with rfl | rfl
      · exact le_rfl
      · exact hnext.le.trans (Nat.zero_le i)

end

end Sys2Proof.Machine
end

section
/-! SUPPORT. Windows and the transfers they cut. -/

open Sys2Proof Sys2Proof.Machine

/-- Settles O14: what a window grants is its fields' own word; an issue goes by the first piece that the set refuses. -/
theorem issueChecksWindows : Obligations.IssueChecksWindows := by
  refine ⟨fun d set space page k => ?_, fun d x ctx hrem hn hnext => ⟨fun hok => ?_, fun i hi hno hok hmid => ?_⟩⟩
  · simp only [Dev.allowed_iff, Dev.grants_iff]
  · exact Dev.issue_of_granted hrem hn (Dev.firstRefused_eq_none_iff.2 hok)
  · have hfirst : d.firstRefused x = some i := Dev.firstRefused_eq_some_iff.2 ⟨hi, Bool.eq_false_iff.2 hno, hok⟩
    have hm : x.mid ≠ stipeMid := fun h => by rw [h] at hmid; exact absurd hmid (by decide)
    exact ⟨Dev.isFrozen_issue hrem hm hfirst, Dev.mem_issue_xfers hrem hm hfirst,
      fun hnew y => Dev.limit_le_of_mem_issue_xfers hrem hm hfirst hnext hnew⟩
end

section
/-! SUPPORT. What a command that passes the shared checks comes to (12 R403): its type's action, the count and the answer. -/

namespace Sys2Proof.Machine

section
variable {d d1 d2 : Dev} {fs : Fuses} {c : CmdPkt} {ty : Nat}

/-- A command that is new comes to its port in a state that answers commands (11 R374, 12 R403). -/
theorem CmdNew.not_ignored (h : CmdNew d c ty d1) :
    ((d.port c.port).st != 3 && ((d.port c.port).packets.findIdx? (isCmd c)).isNone) = false := by
  rcases h.carried with h | h
  · simp [h]
  · rw [← Option.not_isSome, h, Bool.not_true, Bool.and_false]

/-- A frozen port answers it all the same (03 R91). -/
theorem CmdNew.not_frozen (h : CmdNew d c ty d1) :
    (d1.isFrozen (portMid c.port) && !(ty == 1 || cmdTagged ty)) = false := by
  rcases h.thawed with h | h | h <;> simp [h]

/-- It names device space and has a length that a packet may have. -/
theorem CmdNew.not_malformed (h : CmdNew d c ty d1) : (c.space != 0#2 || c.len == 0 || decide (4096 < c.len)) = false := by
  simp [h.device, h.some, Nat.not_lt.2 h.fits]

/-- A command that passes is counted where its action accepts it, and answered with the action's result. -/
theorem Dev.cmdGo_of_passes (act : Dev → Dev × Fuses × Nat) (h : CmdPasses d c ty d2) : d.cmdGo fs c ty act =
    (if (act d2).2.2 = 0 then (act d2).1.cmdDone c ty else (act d2).1.cmdAnswer c (act d2).2.2, (act d2).2.1,
      (act d2).2.2 == 0) := by
  obtain ⟨⟨d1, hnew, hformat, hauth, hd2⟩, hbody⟩ := h
  rw [Dev.cmdGo]
  refine (if_neg (Bool.eq_false_iff.1 hnew.not_ignored)).trans ?_
  extract_lets taken hdr n
  rw [show taken.arrive c.port hdr = (d1, .fresh) from hnew.fresh]
  simp only [hnew.not_frozen, hnew.not_malformed, hformat, hauth, hbody, ← hd2, bne_self_eq_false, Bool.not_true,
    Bool.false_eq_true, if_false, beq_iff_eq]
  by_cases hres : (act d2).2.2 = 0
  · rw [if_pos hres, if_pos hres, hres]
    rfl
  · rw [if_neg hres, if_neg hres]
    rfl

end

section
variable {s : State} {i : Instr} {d2 e : Dev} {fs : Fuses} {c : CmdPkt} {ty r : Nat} {act : Fuses → Dev → Dev × Fuses × Nat}
variable (hrow : exec i s = onFuse (fun d fs => d.cmdRow fs c ty (act fs)) s) (h : s.dev.alive = true)
  (hpass : CmdPasses s.dev c ty d2)
include hrow h hpass

/-- The row of a command that its type's action accepts. -/
theorem exec_cmd_accepted (hact : act s.fuse d2 = (e, fs, 0)) :
    exec i s = .next { s.ran (e.cmdDone c ty) with fuse := fs } := by
  simp only [hrow, onFuse_alive h, Dev.cmdRow, Dev.cmdGo_of_passes (act s.fuse) hpass, hact, if_pos]

/-- The row of a command that its type's action refuses. -/
theorem exec_cmd_refused (hact : act s.fuse d2 = (e, fs, r)) (hr : r ≠ 0) :
    exec i s = .next { s.ran (e.cmdAnswer c r) with fuse := fs } := by
  simp only [hrow, onFuse_alive h, Dev.cmdRow, Dev.cmdGo_of_passes (act s.fuse) hpass, hact, if_neg hr]

end

end Sys2Proof.Machine
end

section
/-! SUPPORT. The actions of the commands that set what the module does (03 R92, R93, 08 R555, 12 R406, 13 R433). -/

namespace Sys2Proof.Machine

variable {d : Dev} {fs : Fuses} {c : CmdPkt}

/-- CFG_WRITE whose entries all pass their checks writes each in turn. -/
theorem Dev.cfgGo_of_checked (h : ∀ e ∈ c.entries, d.cfgCheck c.port e = 0) : d.cfgGo fs c =
    (c.entries.foldl (fun d e => d.writeReg (some c.port) e.1 e.2.1 e.2.2) d, fs, 0) := by
  have hnone : (c.entries.map (d.cfgCheck c.port)).find? (· != 0) = none := by simpa using h
  simp only [Dev.cfgGo, hnone]

/-- POWER_CAP: a lower cap now, a higher one kept for the boundary (13 R433). -/
theorem Dev.capGo_of_bounds (hlo : 600 ≤ bf (c.word 0) 11 0) (hhi : bf (c.word 0) 11 0 ≤ 2400) : d.capGo fs c =
    (if bf (c.word 0) 11 0 ≤ d.pwr.cap then { d with pwr := { d.pwr with cap := bf (c.word 0) 11 0, capNext := none } }
      else { d with pwr := { d.pwr with capNext := some (bf (c.word 0) 11 0) } }, fs, 0) := by
  have hbounds : (decide (bf (c.word 0) 11 0 < 600) || decide (2400 < bf (c.word 0) 11 0)) = false := by
    simp [Nat.not_lt.2 hlo, Nat.not_lt.2 hhi]
  simp only [Dev.capGo, hbounds, Bool.false_eq_true, if_false]
  split <;> rfl

/-- UNFREEZE of a frozen master waits for the boundary (03 R93). -/
theorem Dev.unfreezeGo_of_frozen (h : d.isFrozen (bf (c.word 0) 11 0) = true) : d.unfreezeGo fs c =
    ({ d with win := { d.win with pendUnfreeze := (d.win.pendUnfreeze ++ [bf (c.word 0) 11 0]).eraseDups } }, fs, 0) := by
  simp [Dev.unfreezeGo, h]

theorem Dev.unfreezeGo_of_not_frozen (h : d.isFrozen (bf (c.word 0) 11 0) = false) : d.unfreezeGo fs c = (d, fs, 8) := by
  simp [Dev.unfreezeGo, h]

/-- RTMAP_EDIT that takes a row's slot away, where the slot holds the row (08 R555). -/
theorem Dev.editGo_remove (hremove : (c.word 0).getLsbD 0 = true) (hvalid : (c.word 1).getLsbD 31 = true)
    (hslot : (d.slotsAfter (bf (c.word 1) 12 0)).find (bf (c.word 1) 30 27) = some (bf (c.word 1) 26 13)) :
    d.editGo fs c = ({ d with mem := { d.mem with edits := d.mem.edits ++
      [(false, bf (c.word 1) 12 0, bf (c.word 1) 26 13, bf (c.word 1) 30 27)] } }, fs, 0) := by
  simp only [Dev.editGo, hremove, hvalid, hslot, Bool.not_true, Bool.false_eq_true, if_false, beq_self_eq_true]

/-- WINDOW_SET that installs a well-formed set which no unit uses waits for the boundary (03 R88, R92). -/
theorem Dev.windowGo_install (hinstall : (c.word 0).getLsbD 8 = true) :
    let ws := (List.range 64).map (fun i => c.word (1 + i))
    let w (i : Nat) : Word := ws.getD i 0#32
    (∀ i < 16, (winBad (w (4 * i)) (w (4 * i + 1)) ||
      ((w (4 * i + 1)).getLsbD 30 && (w (4 * i + 2) != 0#32 || w (4 * i + 3) != 0#32))) = false) →
    d.units.any (fun u => u.wset == bf (c.word 0) 7 0 && u.busy) = false →
    d.windowGo fs c = ({ d with win := { d.win with pendSet := d.win.pendSet ++ [(bf (c.word 0) 7 0, true, ws)] } }, fs, 0) := by
  intro ws w hgood hidle
  have hnone : (List.range 16).any (fun i => winBad (w (4 * i)) (w (4 * i + 1)) ||
      ((w (4 * i + 1)).getLsbD 30 && (w (4 * i + 2) != 0#32 || w (4 * i + 3) != 0#32))) = false :=
    List.any_eq_false.2 fun i hi => Bool.eq_false_iff.1 (hgood i (List.mem_range.1 hi))
  simp only [Dev.windowGo]
  rw [if_neg (Bool.eq_false_iff.1 hnone), hidle, hinstall]
  rfl

/-- PORT_BIND to an installed set, with no set waiting for the boundary, waits for the boundary (03 R92). -/
theorem Dev.bindGo_of_installed (hport : bf (c.word 0) 2 0 ≤ 5) (hset : d.win.installed.contains (bf (c.word 0) 15 8) = true)
    (hpend : d.win.pendSet = []) : d.bindGo fs c = ({ d with win := { d.win with
      pendBind := d.win.pendBind ++ [(bf (c.word 0) 2 0, bf (c.word 0) 15 8)] } }, fs, 0) := by
  simp only [Dev.bindGo, if_neg (Nat.not_lt.2 hport), hset, hpend, List.any_nil, Bool.not_true, Bool.or_self,
    Bool.false_eq_true, if_false]

end Sys2Proof.Machine
end

section
/-! SUPPORT. Commands that set what the module does. -/

open Sys2Proof Sys2Proof.Machine

/-- Settles O49: a command that passes the shared checks comes to what its type's own action makes of it. -/
theorem settingCommands : Obligations.SettingCommands := by
  intro s c d2 halive p w v set ws bad used
  refine ⟨fun hp hok => ?_, fun hp hlo hhi => ?_, fun hp hf => ?_, fun hp hf => ?_, fun hp hr hv hk => ?_,
    fun hp hgood hidle hi => ?_, fun hp hport hset hpend => ?_⟩
  · exact exec_cmd_accepted (act := fun fs d => d.cfgGo fs c) rfl halive hp (Dev.cfgGo_of_checked hok)
  · exact exec_cmd_accepted (act := fun fs d => d.capGo fs c) rfl halive hp (Dev.capGo_of_bounds hlo hhi)
  · exact exec_cmd_accepted (act := fun fs d => d.unfreezeGo fs c) rfl halive hp (Dev.unfreezeGo_of_frozen hf)
  · exact exec_cmd_refused (act := fun fs d => d.unfreezeGo fs c) rfl halive hp (Dev.unfreezeGo_of_not_frozen hf) (by decide)
  · exact exec_cmd_accepted (act := fun fs d => d.editGo fs c) rfl halive hp (Dev.editGo_remove hr hv hk)
  · exact exec_cmd_accepted (act := fun fs d => d.windowGo fs c) rfl halive hp (Dev.windowGo_install hi hgood hidle)
  · exact exec_cmd_accepted (act := fun fs d => d.bindGo fs c) rfl halive hp (Dev.bindGo_of_installed hport hset hpend)
end

section
/-! SUPPORT. When an instruction's checks pass (05 R169), and what the row of a frond's instruction does in a running module. -/

namespace Sys2Proof.Machine

theorem fld_lt (b : BitVec 128) (lo n : Nat) : fld b lo n < 2 ^ n := Nat.mod_lt _ (Nat.two_pow_pos n)

theorem hasOp_of_opOf {b : BitVec 128} {n : Nat} (h : opOf b = n) : hasOp n b = true := by simp [hasOp, h]

/-- An instruction none of whose checks applies, and that need not wait, is performed. -/
theorem checks_eq_ok {codes late : List (Bool × Nat)} {stall poison : Bool} (hcodes : noneOf codes = true)
    (hstall : stall = false) (hpoison : poison = false) (hlate : noneOf late = true) :
    checks codes stall poison late = .ok := by
  have hnone : ∀ l : List (Bool × Nat), noneOf l = true → l.filter (·.1) = [] := fun l h =>
    List.filter_eq_nil_iff.2 fun e he => by simpa using List.all_eq_true.1 h e he
  simp only [checks, hnone codes hcodes, hnone late hlate, hstall, hpoison, List.foldl_nil, Bool.false_eq_true, if_false]

section
variable {s : State} {f : Nat} {u : WUnit} {b : BitVec 128} {c : Instr} {e : Dev}
  {mine : BitVec 128 → Bool} {body : Dev → WUnit → BitVec 128 → Dev}

/-- The row of a running module that acts on the device by a function. -/
theorem exec_devRow {act : Dev → Dev} (hrow : exec c s = onDev act s) (halive : s.dev.alive = true) (he : act s.dev = e) :
    exec c s = .next (s.ran e) := by rw [hrow, onDev_alive halive, he]

/-- The row of the mnemonic that stands acts as its instruction does. -/
theorem exec_frondRow (hrow : exec c s = onDev (fun d => d.frondGo f mine body) s) (halive : s.dev.alive = true)
    (hi : Issues s.dev f u b) (hmine : mine b = true) (he : body s.dev u b = e) : exec c s = .next (s.ran e) :=
  exec_devRow hrow halive ((Dev.frondGo_issues hi hmine).trans he)

end

end Sys2Proof.Machine
end

section
/-! SUPPORT. SALU and SRD of a frond (05 R145, R146). -/

namespace Sys2Proof.Machine

/-- The minima and maxima of SALU are those of the numbers that its operands stand for. -/
theorem saluOp_minmax (a x : DWord) :
    (saluOp 9 a x).toInt = min a.toInt x.toInt ∧ (saluOp 10 a x).toInt = max a.toInt x.toInt ∧
    (saluOp 11 a x).toNat = min a.toNat x.toNat ∧ (saluOp 12 a x).toNat = max a.toNat x.toNat := by
  have hs : a.slt x = decide (a.toInt < x.toInt) := rfl
  have hu : a.ult x = decide (a.toNat < x.toNat) := rfl
  simp only [saluOp, hs, hu, decide_eq_true_eq]
  refine ⟨?_, ?_, ?_, ?_⟩
  all_goals split <;> omega

/-- The comparisons of SALU give 1 where they hold and 0 elsewhere. -/
theorem saluOp_compare (a x : DWord) :
    saluOp 13 a x = (if a = x then 1#64 else 0#64) ∧ saluOp 14 a x = (if a.toInt < x.toInt then 1#64 else 0#64) ∧
    saluOp 15 a x = (if a.toNat < x.toNat then 1#64 else 0#64) ∧
    saluOp 16 a x = (if x.toInt ≤ a.toInt then 1#64 else 0#64) := by
  have hs : a.slt x = decide (a.toInt < x.toInt) := rfl
  have hu : a.ult x = decide (a.toNat < x.toNat) := rfl
  simp [saluOp, hs, hu]

variable {d : Dev} {f : Nat} {u : WUnit} {b : BitVec 128}

/-- SALU with a listed code, whose registers are loaded, writes its result with the poison of its operands. -/
theorem Dev.doSalu_performs (hop : fld b 9 5 ≤ 16) (hd : d.pendingReg f (fld b 14 6) = false)
    (ha : d.pendingReg f (fld b 20 6) = false) (hb : fld b 8 1 = 1 ∨ d.pendingReg f (fld b 26 6) = false) :
    d.doSalu f b = (d.modFrond f (fun y => y.setR (fld b 14 6)
      (saluOp (fld b 9 5) ((d.frond f).r (fld b 20 6))
        (if fld b 8 1 = 1 then BitVec.ofNat 64 (fld b 32 64) else (d.frond f).r (fld b 26 6)))
      ((d.frond f).pois (fld b 20 6) || (fld b 8 1 != 1 && (d.frond f).pois (fld b 26 6))))).advance f := by
  have hstall : (d.pendingReg f (fld b 20 6) || d.pendingReg f (fld b 14 6) ||
      (!(fld b 8 1 == 1) && d.pendingReg f (fld b 26 6))) = false := by
    rcases hb with hb | hb <;> simp [ha, hd, hb]
  have hlisted : noneOf [(decide (17 ≤ fld b 9 5), 1)] = true := by simp [noneOf]; omega
  rw [Dev.doSalu, Dev.checked_ok (checks_eq_ok hlisted hstall rfl rfl)]
  simp only [beq_iff_eq, bne, Dev.modFrond_eq]

/-- SALU with a code that is not listed raises ENCODING. -/
theorem Dev.doSalu_unlisted (hop : 17 ≤ fld b 9 5) : d.doSalu f b = d.frondExc f 1 (d.frond f).pc 0 := by
  simp [Dev.doSalu, hop, checks, Dev.checked]

/-- What SRD's selectors 1 to 5 read (05 R146). -/
theorem Dev.sysValue_of_selector {sel t : Nat} (h1 : 1 ≤ sel) (h5 : sel ≤ 5) : d.sysValue f u sel t =
    [0, t - d.lastTick, d.frame, u.carried, (d.frond f).lastCommit, (d.frond f).sticky.toNat].getD sel 0 := by
  interval_cases sel <;> rfl

/-- SRD with one of these selectors writes what it reads at its moment. -/
theorem Dev.doSrd_performs {t : Nat} (ht : d.now ≤ t) (hd : d.pendingReg f (fld b 8 6) = false) (h1 : 1 ≤ fld b 14 6)
    (h5 : fld b 14 6 ≤ 5) : d.doSrd f t u b =
      (Dev.modFrond { d with now := t } f (fun y => y.setR (fld b 8 6) (BitVec.ofNat 64
        ([0, t - d.lastTick, d.frame, u.carried, (d.frond f).lastCommit, (d.frond f).sticky.toNat].getD (fld b 14 6) 0))
        false)).advance f := by
  have hlisted : noneOf [(decide (26 ≤ fld b 14 6), 1)] = true := by simp [noneOf]; omega
  have hcycles : (fld b 14 6 == 0) = false := beq_false_of_ne (by omega)
  rw [Dev.doSrd, Dev.checked_ok (checks_eq_ok hlisted hd rfl rfl)]
  simp only [Dev.sysValue_of_selector h1 h5, hcycles, Nat.max_eq_left ht, Nat.max_eq_right ht, Bool.false_eq_true, if_false]

end Sys2Proof.Machine
end

section
/-! SUPPORT. SALU, NOP and SRD of a frond. -/

open Sys2Proof Sys2Proof.Machine

/-- Settles O7: SALU's results code by code, then each row as the instruction whose checks pass. -/
theorem frondScalarResults : Obligations.FrondScalarResults := by
  refine ⟨fun a x => ?_, fun s f u b halive hi => ?_⟩
  · obtain ⟨h9, h10, h11, h12⟩ := saluOp_minmax a x
    obtain ⟨h13, h14, h15, h16⟩ := saluOp_compare a x
    exact ⟨rfl, rfl, rfl, rfl, rfl, rfl, rfl, rfl, rfl, h9, h10, h11, h12, h13, h14, h15, h16⟩
  · intro d x
    refine ⟨fun hop => ?_, ?_, fun hop hcode => ?_, fun t ht hop hd h1 h5 => ?_⟩
    · exact exec_frondRow rfl halive hi (hasOp_of_opOf hop) rfl
    · intro imm rd ra rb operand hop hcode hd ha hb
      exact exec_frondRow rfl halive hi (hasOp_of_opOf hop) (Dev.doSalu_performs hcode hd ha hb)
    · exact exec_frondRow rfl halive hi (hasOp_of_opOf hop) (Dev.doSalu_unlisted hcode)
    · exact exec_frondRow rfl halive hi (hasOp_of_opOf hop) (Dev.doSrd_performs ht hd h1 h5)
end

section
/-! SUPPORT. What issue does after an instruction of a frond (05 R147). -/

namespace Sys2Proof.Machine

theorem advLoop_nil (pc : Nat) : advLoop [] pc = ([], pc + 1) := rfl

/-- Elsewhere in a body its level stays and the next index follows. -/
theorem advLoop_inside {l : LoopLv} {pc : Nat} (ls : List LoopLv) (h : l.last ≠ pc) :
    advLoop (l :: ls) pc = (l :: ls, pc + 1) := by simp [advLoop, h]

/-- At a body's last instruction, with iterations left, the body starts again. -/
theorem advLoop_again {l : LoopLv} {pc : Nat} (ls : List LoopLv) (h : l.last = pc) (hleft : 1 < l.left) :
    advLoop (l :: ls) pc = ({ l with left := l.left - 1 } :: ls, l.start) := by simp [advLoop, h, hleft]

/-- At a body's last instruction, in its last iteration, the level is popped. -/
theorem advLoop_popped {l : LoopLv} {pc : Nat} (ls : List LoopLv) (h : l.last = pc) (hleft : l.left ≤ 1) :
    advLoop (l :: ls) pc = advLoop ls pc := by simp [advLoop, h, Nat.not_lt.2 hleft]

/-- The device once frond f has issued its instruction: the stack ls and the index pc follow. -/
def Dev.goneTo (d : Dev) (f : Nat) (ls : List LoopLv) (pc : Nat) : Dev :=
  (d.inc (cFrd f 5)).modFrond f (fun y =>
    { y with loops := ls, ip := (d.frond f).pc, pc := pc, waiting := false, order := y.order + 1 })

variable {d : Dev} {f pc : Nat} {ls : List LoopLv}

theorem Dev.advance_of_inside (h : advLoop (d.frond f).loops (d.frond f).pc = (ls, pc)) (hpc : pc < (d.frond f).len) :
    d.advance f = d.goneTo f ls pc := by
  simp only [Dev.advance, h, if_neg (Nat.not_le.2 hpc)]
  rfl

theorem Dev.advance_of_past (h : advLoop (d.frond f).loops (d.frond f).pc = (ls, pc)) (hpc : (d.frond f).len ≤ pc) :
    d.advance f = (d.goneTo f ls pc).frondExcAt f 10 (d.frond f).pc 0 (d.frond f).order := by
  simp only [Dev.advance, h, if_pos hpc]
  rfl

end Sys2Proof.Machine
end

section
/-! SUPPORT. Which instruction follows in a frond. -/

open Sys2Proof Sys2Proof.Machine

/-- Settles O9: each clause is one case of the loop stack. -/
theorem frondIssueAdvances : Obligations.FrondIssueAdvances := by
  intro d f x next
  refine ⟨fun hls hpc => ?_, fun hls hpc => ?_, fun l ls hls hlast hpc => ?_, fun l ls hls hlast hleft hpc => ?_,
    fun l hls hlast hleft hpc => ?_⟩
  · exact Dev.advance_of_inside (hls ▸ advLoop_nil _) hpc
  · exact Dev.advance_of_past (hls ▸ advLoop_nil _) hpc
  · exact Dev.advance_of_inside (hls ▸ advLoop_inside ls hlast) hpc
  · exact Dev.advance_of_inside (hls ▸ advLoop_again ls hlast hleft) hpc
  · exact Dev.advance_of_inside (hls ▸ advLoop_popped [] hlast hleft) hpc
end

section
/-! SUPPORT. BR, LOOP, WAITF and FENCE (05 R139, R147, R152), COMMIT and FEND (05 R164). -/

namespace Sys2Proof.Machine

variable {d : Dev} {f : Nat} {u : WUnit} {b : BitVec 128}

/-- BR's conditions by code. -/
theorem brCond_of_code {c : Nat} (a x : DWord) (hc : c < 7) :
    brCond c a x = [true, a == x, a != x, a.slt x, !a.slt x, a.ult x, !a.ult x].getD c false := by
  interval_cases c <;> rfl

/-- BR with a listed condition and a target in the program: a taken branch pops every level whose body it leaves. -/
theorem Dev.doBr_performs (hc : fld b 8 3 < 7) (htgt : fld b 23 14 < (d.frond f).len)
    (ha : d.pendingReg f (fld b 11 6) = false) (hb : d.pendingReg f (fld b 17 6) = false)
    (hpa : (d.frond f).pois (fld b 11 6) = false) (hpb : (d.frond f).pois (fld b 17 6) = false) :
    d.doBr f b =
      if brCond (fld b 8 3) ((d.frond f).r (fld b 11 6)) ((d.frond f).r (fld b 17 6)) = true then
        d.goneTo f ((d.frond f).loops.filter (fun l => decide (l.start ≤ fld b 23 14) && decide (fld b 23 14 ≤ l.last)))
          (fld b 23 14)
      else d.advance f := by
  have hcodes : noneOf [(fld b 8 3 == 7, 1), (decide ((d.frond f).len ≤ fld b 23 14), 7)] = true := by
    simp [noneOf, htgt]; omega
  have hpend : (d.pendingReg f (fld b 11 6) || d.pendingReg f (fld b 17 6)) = false := by rw [ha, hb]; rfl
  have hpois : ((d.frond f).pois (fld b 11 6) || (d.frond f).pois (fld b 17 6)) = false := by rw [hpa, hpb]; rfl
  rw [Dev.doBr, Dev.checked_ok (checks_eq_ok hcodes hpend hpois rfl)]
  rfl

/-- The iterations that LOOP asks for. -/
def Frond.loopCount (x : Frond) (b : BitVec 128) : Nat := if fld b 8 6 = 0 then fld b 14 32 else (x.r (fld b 8 6)).toNat

/-- LOOP with iterations to do and a body in the program pushes its level. -/
theorem Dev.doLoop_performs (hn : 0 < (d.frond f).loopCount b) (hbody : (d.frond f).pc + 1 ≤ fld b 46 14)
    (hlast : fld b 46 14 < (d.frond f).len) (hdepth : (d.frond f).loops.length < 4)
    (hpend : d.pendingReg f (fld b 8 6) = false) (hpois : (d.frond f).pois (fld b 8 6) = false) :
    d.doLoop f b = d.goneTo f
      ({ start := (d.frond f).pc + 1, last := fld b 46 14, left := (d.frond f).loopCount b } :: (d.frond f).loops)
      ((d.frond f).pc + 1) := by
  have hcodes : noneOf [(decide (fld b 46 14 < (d.frond f).pc + 1) || decide ((d.frond f).len ≤ fld b 46 14), 7),
      (decide (4 ≤ (d.frond f).loops.length), 8)] = true := by
    simp [noneOf, hlast, hdepth]; omega
  have hcount : (if (fld b 8 6 == 0) = true then fld b 14 32 else ((d.frond f).r (fld b 8 6)).toNat) =
      (d.frond f).loopCount b := by simp [Frond.loopCount]
  rw [Dev.doLoop, Dev.checked_ok (checks_eq_ok hcodes hpend hpois rfl)]
  simp only [hcount, beq_false_of_ne hn.ne', Bool.false_eq_true, if_false]
  rfl

theorem Dev.doFence_eq : d.doFence f = if d.xfers.any (fun e => e.mid == f) = true then d.waitHere f else d.advance f := by
  cases h : d.xfers.any (fun e => e.mid == f) <;> simp [Dev.doFence, Dev.accessesDone, h]

/-- Every earlier instruction and access of a frond has ended. -/
def Dev.allDone (d : Dev) (f : Nat) : Bool := (d.frond f).cq.isEmpty && !d.xfers.any (fun e => e.mid == f)

theorem Dev.notDone_eq : (!(d.frond f).cq.isEmpty || !d.accessesDone f) = !d.allDone f := by
  rw [Dev.allDone, Bool.not_and]
  rfl

/-- COMMIT with an ID that it may have. -/
theorem Dev.doCommit_performs (hid : fld b 8 16 ≠ 0xFFFF) : d.doCommit f u b =
    if d.allDone f = false then d.waitHere f
    else if (d.frond f).wrFail ≠ 0 then d.stopUnit u.key 7 0
    else ((d.modFrond f (fun y => { y with lastCommit := fld b 8 16 })).modUnit u.key (fun v =>
      { v with lastCommit := fld b 8 16, touched := 0#8, touchedOther := false })).advance f := by
  have hcodes : noneOf [(fld b 8 16 == 0xFFFF, 1)] = true := by simp [noneOf, hid]
  rw [Dev.doCommit, Dev.checked_ok (checks_eq_ok hcodes rfl rfl rfl)]
  simp only [Dev.notDone_eq, Bool.not_eq_true', bne_iff_ne]

theorem Dev.doFend_eq : d.doFend f u =
    if d.allDone f = false ∨ (d.frond f).att.running = true then d.waitHere f
    else if (d.frond f).wrFail ≠ 0 then d.stopUnit u.key 7 0
    else ((d.inc (cFrd f 5)).modFrond f (fun y => { y with ip := (d.frond f).pc })).endUnit u.key 0 0 0 := by
  simp only [Dev.doFend, Dev.notDone_eq, Bool.or_eq_true, Bool.not_eq_true', bne_iff_ne]
  rfl

end Sys2Proof.Machine
end

section
/-! SUPPORT. Control instructions of a frond. -/

open Sys2Proof Sys2Proof.Machine

/-- Settles O10: each row as its instruction, whose checks pass. -/
theorem frondControlResults : Obligations.FrondControlResults := by
  intro s f u b halive hi d x wait
  refine ⟨?_, ?_, fun hop => ?_, fun hop => ?_⟩
  · intro c ra rb tgt taken hop hc htgt ha hb hpa hpb
    have htaken : brCond c ra rb = taken := brCond_of_code ra rb hc
    exact exec_frondRow rfl halive hi (hasOp_of_opOf hop) (htaken ▸ Dev.doBr_performs hc htgt ha hb hpa hpb)
  · intro n last hop hn hbody hlast hdepth hpend hpois
    exact exec_frondRow rfl halive hi (hasOp_of_opOf hop) (Dev.doLoop_performs hn hbody hlast hdepth hpend hpois)
  · exact exec_frondRow rfl halive hi (hasOp_of_opOf hop) rfl
  · exact exec_frondRow rfl halive hi (hasOp_of_opOf hop) Dev.doFence_eq

/-- Settles O11: COMMIT and FEND by whether everything earlier has ended, and landed. -/
theorem frondCommitAndEnd : Obligations.FrondCommitAndEnd := by
  intro s f u b halive hi d x done wait
  refine ⟨fun hop hid => ?_, fun hop => ?_⟩
  · exact exec_frondRow rfl halive hi (hasOp_of_opOf hop) (Dev.doCommit_performs hid)
  · exact exec_frondRow rfl halive hi (hasOp_of_opOf hop) Dev.doFend_eq
end

section
/-! SUPPORT. A frond's accesses whose checks pass take one transfer (05 R148, R152, R153). -/

namespace Sys2Proof.Machine

variable {d : Dev} {f a : Nat} {u : WUnit} {b : BitVec 128}

/-- An address register of an access is loaded and clean, and with the offset gives address a of the module's space. -/
structure Dev.AddrOk (d : Dev) (f sa : Nat) (off : Int) (a : Nat) : Prop where
  loaded : d.pendingReg f sa = false
  clean : (d.frond f).pois sa = false
  addr : (((d.frond f).r sa).toNat : Int) + off = a

/-- An access of this module needs its address register alone. -/
theorem Dev.addrChk_local (d : Dev) (f sa mr : Nat) : d.addrChk f sa mr false = (d.pendingReg f sa, (d.frond f).pois sa) := by
  simp [Dev.addrChk]

theorem Dev.mrBad_local (d : Dev) (f mr : Nat) : d.mrBad f mr false = false := by simp [Dev.mrBad]

/-- The transfer of a small access of n bytes at address a. -/
def Dev.smallXfer (d : Dev) (f : Nat) (u : WUnit) (k : XKind) (n a loc : Nat) (data : DWord) (pois : Bool) : Xfer :=
  { id := 0, mid := f, kind := k, base := a, n := 1, limit := 1, size := n, mask := byteMask (a % 64) n, loc := loc
    data := [(0, BitVec.ofNat 512 (data.toNat * 2 ^ (8 * (a % 64))))], pois := if pois then [0] else []
    ip := (d.frond f).pc, order := (d.frond f).order, wset := u.wset, unit := u.key, afmt := 2 }

/-- A small access of this module whose checks pass, and that no queue holds, is issued. -/
theorem Dev.doSmall_performs {kind : XKind} {al sa : Nat} {off : Int} {regs : List Nat} (mr loc : Nat) (data : DWord)
    (pois adv : Bool) (ha : d.AddrOk f sa off a) (hspace : a < 2 ^ 40) (halign : a % al = 0)
    (hregs : ∀ n ∈ regs, d.pendingReg f n = false)
    (hsig : kind = .sig → (d.frond f).wrFail = 0 ∧ d.streamsOut f < 16) :
    d.doSmall f u kind al sa mr off false regs false loc data pois adv =
      (if adv = true then d.advance f else d.waitHere f).issue (d.smallXfer f u kind al a loc data pois) ((d.frond f).pc * 16) := by
  obtain ⟨hloaded, hclean, haddr⟩ := ha
  have hstall : (d.pendingReg f sa || regs.any (d.pendingReg f)) = false := by simpa [hloaded] using hregs
  have hplace : noneOf [((a : Int) % (al : Int) != 0, 5),
      (decide ((a : Int) < 0) || decide ((2 ^ 40 : Int) ≤ a) || false, 6)] = true := by
    have h : (a : Int) % al = 0 := by exact_mod_cast halign
    simp [noneOf, h]; omega
  simp only [Dev.doSmall, Dev.addrChk_local, Dev.mrBad_local, haddr]
  rw [Dev.checked_ok (checks_eq_ok rfl hstall hclean hplace)]
  by_cases hk : kind = .sig
  · obtain ⟨hfail, hroom⟩ := hsig hk
    simp only [hfail, bne_self_eq_false, Bool.and_false, decide_eq_false (Nat.not_le.2 hroom), Bool.false_eq_true, if_false]
    rfl
  · simp only [beq_false_of_ne hk, Bool.false_and, Bool.false_eq_true, if_false]
    rfl

/-- A WAITM of which no read is under way is issued and holds issue. -/
theorem Dev.doWaitm_performs (hone : d.xfers.any (fun e => e.mid == f && e.kind == .waitm) = false)
    (hremote : fld b 87 1 = 0) (hcond : fld b 46 3 < 6) (ha : d.AddrOk f (fld b 8 6) (sfld b 14 32) a) (hspace : a < 2 ^ 40)
    (halign : a % 4 = 0) : d.doWaitm f u b =
      (d.waitHere f).issue (d.smallXfer f u .waitm 4 a 0 0#64 false) ((d.frond f).pc * 16) := by
  simp only [Dev.doWaitm, hone, hremote, decide_eq_false (Nat.not_le.2 hcond), Bool.false_eq_true, if_false]
  exact Dev.doSmall_performs _ _ _ _ _ ha hspace halign (by simp) (by simp)

/-- The transfer of a stream of rows from address a. -/
def Dev.streamXfer (d : Dev) (f : Nat) (u : WUnit) (k : XKind) (a osa rowG rows : Nat) (stride : Int) (lu : Bool)
    (fe : Option Nat) (aop afmt : Nat) : Xfer :=
  { id := 0, mid := f, kind := k, base := a, n := rowG * rows, rowG := rowG, stride := stride, limit := rowG * rows
    loc := osa, lu := lu, aop := aop, afmt := afmt, flag := fe, ip := (d.frond f).pc, order := (d.frond f).order
    wset := u.wset, unit := u.key }

/-- A stream of this module whose checks pass, with a place in the queue and no stash in the way, is issued. -/
theorem Dev.doStream_performs {kind : XKind} {sa osa rowG rows aop afmt : Nat} {stride off : Int} (mr : Nat) (lu : Bool)
    (fe : Option Nat) (hsth : d.sthOn f = false) (hroom : d.streamsOut f < 16) (ha : d.AddrOk f sa (off * 64) a)
    (halign : a % 64 = 0) (hstride : stride % 64 = 0) (hrows : rowsOut a rowG rows stride = false)
    (hos : osa + rowG * rows ≤ 393216) (hatom : kind = .atom → aop ≠ 3 ∧ afmt ≠ 3) :
    d.doStream f u kind sa osa rowG rows stride off mr false lu fe aop afmt =
      (d.advance f).issue (d.streamXfer f u kind a osa rowG rows stride lu fe aop afmt) ((d.frond f).pc * 16) := by
  obtain ⟨hloaded, hclean, haddr⟩ := ha
  have hcodes : noneOf [(lu && false, 1), (kind == .atom && aop == 3, 1), (kind == .atom && afmt == 3, 2),
      (decide (393216 < osa + rowG * rows), 3)] = true := by
    by_cases hk : kind = .atom
    · obtain ⟨h1, h2⟩ := hatom hk
      simp [noneOf, h1, h2, hos]
    · simp [noneOf, hk, hos]
  have hplace : noneOf [((a : Int) % 64 != 0 || stride % 64 != 0, 5), (rowsOut a rowG rows stride || false, 6)] = true := by
    have h : (a : Int) % 64 = 0 := by omega
    simp [noneOf, h, hstride, hrows]
  simp only [Dev.doStream, Dev.addrChk_local, Dev.mrBad_local, haddr]
  rw [Dev.checked_ok (checks_eq_ok hcodes hloaded hclean hplace)]
  simp only [if_neg (Nat.not_le.2 hroom), Dev.stashDo, hsth, Bool.not_false, if_true, Bool.and_false]
  rfl

end Sys2Proof.Machine
end

section
/-! SUPPORT. Accesses of a frond. -/

open Sys2Proof Sys2Proof.Machine

/-- Settles O12: each row is a small access of its own register, offset, bytes and data. -/
theorem frondSmallAccesses : Obligations.FrondSmallAccesses := by
  intro s f u b a halive hi d x reg xf
  have hplace : ∀ {sa : Nat} {off : Int}, reg sa off → d.AddrOk f sa off a ∧ a < 2 ^ 40 :=
    fun ⟨hloaded, hclean, haddr, hspace⟩ => ⟨⟨hloaded, hclean, haddr⟩, hspace⟩
  have hzero : BitVec.ofNat 512 ((0#64).toNat * 2 ^ (8 * (a % 64))) = 0#512 := by simp
  refine ⟨fun hop ha hl h8 hr => ?_, fun hop ha hl h8 hr => ?_, fun hop ha hl h4 hfail hroom => ?_,
    fun hop ha hl h4 hcond hone => ?_⟩ <;> obtain ⟨ha, hspace⟩ := hplace ha
  · refine exec_frondRow rfl halive hi (hasOp_of_opOf hop) ?_
    simp only [Dev.doSld, hl]
    refine (Dev.doSmall_performs _ _ _ _ _ ha hspace h8 (by simpa using hr) (by simp)).trans ?_
    simp only [Dev.smallXfer, hzero]
    rfl
  · refine exec_frondRow rfl halive hi (hasOp_of_opOf hop) ?_
    simp only [Dev.doSst, hl]
    exact Dev.doSmall_performs _ _ _ _ _ ha hspace h8 (by simpa using hr) (by simp)
  · have hval : (BitVec.ofNat 64 (fld b 46 32)).toNat = fld b 46 32 :=
      Nat.mod_eq_of_lt ((fld_lt b 46 32).trans (by decide))
    refine exec_frondRow rfl halive hi (hasOp_of_opOf hop) ?_
    simp only [Dev.doSig, hl]
    refine (Dev.doSmall_performs _ _ _ _ _ ha hspace h4 (by simp) fun _ => ⟨hfail, hroom⟩).trans ?_
    simp only [Dev.smallXfer, hval]
    rfl
  · refine exec_frondRow rfl halive hi (hasOp_of_opOf hop) ((Dev.doWaitm_performs hone hl hcond ha hspace h4).trans ?_)
    simp only [Dev.smallXfer, hzero]
    rfl

/-- Settles O13: each row is a stream of its own registers, rows and stride. -/
theorem frondStreams : Obligations.FrondStreams := by
  intro s f u b a halive hi hsth hroom d x ok xf rowG rows rowGA rowsA
  refine ⟨fun hop hl ⟨hloaded, hclean, haddr, h64, hstride, hrows, hos⟩ => ?_,
    fun hop hl ⟨hloaded, hclean, haddr, h64, hstride, hrows, hos⟩ => ?_,
    fun hop hl hop3 hfmt3 ⟨hloaded, hclean, haddr, h64, hstride, hrows, hos⟩ => ?_⟩
  · refine exec_frondRow rfl halive hi (hasOp_of_opOf hop) ?_
    simp only [Dev.doLds, hl]
    exact Dev.doStream_performs _ _ _ hsth hroom ⟨hloaded, hclean, haddr⟩ h64 hstride hrows hos (by simp)
  · refine exec_frondRow rfl halive hi (hasOp_of_opOf hop) ?_
    simp only [Dev.doSts, hl]
    exact Dev.doStream_performs _ _ _ hsth hroom ⟨hloaded, hclean, haddr⟩ h64 hstride hrows hos (by simp)
  · refine exec_frondRow rfl halive hi (hasOp_of_opOf hop) ?_
    simp only [Dev.doAtom, hl]
    exact Dev.doStream_performs _ _ _ hsth hroom ⟨hloaded, hclean, haddr⟩ h64 hstride hrows hos fun _ => ⟨hop3, hfmt3⟩
end

section
/-! SUPPORT. What raising an error record can change (16 R506-R514). -/

namespace Sys2Proof.Machine

/-- From d to e nothing has changed but the records, the counters and the units' links to records. -/
def Dev.Recorded (d e : Dev) : Prop := ∃ (err : ErrS) (stat : StatS) (seq : WUnit → Nat),
  e = { d with err := err, stat := stat, units := d.units.map (fun u => { u with errSeq := seq u }) }

theorem Dev.Recorded.of_units {d e : Dev} {err : ErrS} {stat : StatS} (h : e = { d with err := err, stat := stat }) :
    d.Recorded e := ⟨err, stat, fun u => u.errSeq, by simpa using h⟩

theorem Dev.Recorded.refl (d : Dev) : d.Recorded d := .of_units (err := d.err) (stat := d.stat) rfl

theorem Dev.Recorded.trans {d e e' : Dev} (h : d.Recorded e) (h' : e.Recorded e') : d.Recorded e' := by
  obtain ⟨_, _, seq, rfl⟩ := h
  obtain ⟨err, stat, seq', rfl⟩ := h'
  exact ⟨err, stat, fun u => seq' { u with errSeq := seq u }, by simp⟩

theorem Dev.Recorded.inc {d e : Dev} (h : d.Recorded e) (c : Nat) : d.Recorded (e.inc c) :=
  h.trans (.of_units (err := e.err) rfl)

/-- The units of the device afterwards, but for their links. -/
theorem Dev.Recorded.units {d e : Dev} (h : d.Recorded e) :
    ∃ seq : WUnit → Nat, e.units = d.units.map (fun u => { u with errSeq := seq u }) := by
  obtain ⟨_, _, seq, rfl⟩ := h
  exact ⟨seq, rfl⟩

theorem Dev.Recorded.fronds {d e : Dev} (h : d.Recorded e) : e.fronds = d.fronds := by
  obtain ⟨_, _, _, rfl⟩ := h
  rfl

variable (d : Dev) (r : ErrRec)

theorem Dev.link_recorded (seq : Nat) : d.Recorded (d.link r seq) := by
  rw [Dev.link]
  split
  · exact .refl d
  · refine ⟨d.err, d.stat, fun u => if u.key == r.unit then seq else u.errSeq, ?_⟩
    rw [Dev.modUnit]
    congr 2
    funext u
    cases h : u.key == r.unit <;> simp [h]

theorem Dev.doubleFault_recorded (code : Nat) : d.Recorded (d.doubleFault code) := by
  rw [Dev.doubleFault]
  split
  · exact .refl d
  · exact Dev.Recorded.inc (.of_units (stat := d.stat) rfl) _

theorem Dev.select_recorded : d.Recorded d.select := by
  unfold Dev.select
  split
  · exact .refl d
  · cases d.err.best with
    | none => exact .refl d
    | some b =>
      dsimp only
      split
      all_goals
        split
        · exact .of_units (stat := d.stat) rfl
        · exact .refl d

/-- Only the error state has changed. -/
theorem Dev.Recorded.of_err (err : ErrS) : d.Recorded { d with err := err } := .of_units (stat := d.stat) rfl

theorem Dev.takeEntry_recorded : d.Recorded (d.takeEntry r) := by
  unfold Dev.takeEntry
  extract_lets r' err d1 d2
  have h1 : d.Recorded d1 := .of_err d _
  have h : d.Recorded d2 := (h1.inc _).trans (Dev.link_recorded _ _ _)
  split
  · exact h.trans (Dev.doubleFault_recorded _ _)
  · exact h.trans (Dev.select_recorded _)

theorem Dev.enterRec_recorded : d.Recorded (d.enterRec r) := by
  have hdrop : d.Recorded (({ d with err := { d.err with overflow := true, drops := d.err.drops + 1 } }).inc (cMod 45)) :=
    Dev.Recorded.inc (.of_err d _) _
  unfold Dev.enterRec
  split
  · exact .refl d
  · split
    · exact (Dev.Recorded.inc (.of_err d _) _).trans (Dev.link_recorded _ _ _)
    · dsimp only
      split
      · exact d.takeEntry_recorded r
      · split
        · cases d.err.victim r.cls with
          | some v => exact (Dev.Recorded.inc (.of_err d _) _).trans (Dev.takeEntry_recorded _ _)
          | none =>
            dsimp only
            split
            · exact d.doubleFault_recorded _
            · exact hdrop
        · exact hdrop

/-- All that raising a record changes. -/
theorem Dev.raise_recorded (s : Nat) : d.Recorded (d.raise s r) := by
  rw [Dev.raise]
  dsimp only
  split
  · exact d.enterRec_recorded _
  · exact .of_err d _

end Sys2Proof.Machine
end

section
/-! SUPPORT. The compute queue of a frond (05 R136, R139, R160): what enters it, and what ROWCFG, TZERO and an end do. -/

namespace Sys2Proof.Machine

variable {d : Dev} {f : Nat} {b : BitVec 128} {e : CQ}

/-! ### Entering the queue -/

/-- The device once the instruction at issue has taken the queue's last place. -/
def Dev.cqQueued (d : Dev) (f : Nat) (b : BitVec 128) (idx : DWord) : Dev :=
  ((d.modFrond f (fun y => { y with cq := y.cq ++ [{ n := (d.frond f).order, ip := (d.frond f).pc, bits := b, idx := idx }] })).advance
    f).cqPump f 9

theorem Dev.cqIssue_of_room (idx : DWord) (h : ((d.frond f).cq.filter (fun e => !e.started)).length < 8) :
    d.cqIssue f b idx = d.cqQueued f b idx := by
  simp only [Dev.cqIssue, if_neg (Nat.not_le.2 h)]
  rfl

/-- A compute instruction that passes its checks enters the queue. -/
theorem Dev.checked_cqIssue {codes : List (Bool × Nat)} {stall poison : Bool} (idx : DWord)
    (h : ((d.frond f).cq.filter (fun e => !e.started)).length < 8) (hcodes : noneOf codes = true) (hstall : stall = false)
    (hpoison : poison = false) :
    d.checked f (checks codes stall poison []) (fun d => d.cqIssue f b idx) = d.cqQueued f b idx := by
  rw [Dev.checked_ok (checks_eq_ok hcodes hstall hpoison rfl), Dev.cqIssue_of_room idx h]

/-! ### Effects -/

theorem Dev.cqRun_rowcfg (h : opOf e.bits = 0x42) : d.cqRun f e =
    d.modFrond f (fun x => { x with eps := BitVec.ofNat 32 (fld e.bits 8 32), mrow := fld e.bits 40 6 }) := by
  simp only [Dev.cqRun, h]

theorem Dev.cqRun_tzero (h : opOf e.bits = 0x31) : d.cqRun f e = d.runTzero f e.bits := by simp only [Dev.cqRun, h]

/-- An array that TZERO has filled. -/
def Arr.zeroed (a : Arr) (b : BitVec 128) : Arr :=
  { a with
    fill := [0#32, if fld b 14 1 = 1 then 0x7FFFFFFF#32 else 0x7F800000#32].getD (fld b 12 2)
      (if fld b 14 1 = 1 then 0x80000000#32 else 0xFF800000#32)
    cells := [], pois := [], int := fld b 14 1 == 1 }

theorem Dev.runTzero_eq : d.runTzero f b = (maskArrays (fld b 8 4)).foldl (fun d e =>
    d.modFrond f (fun x => { x with arrs := x.arrs.put e.2 ((x.arr e.2).zeroed b) })) d := by
  simp only [Dev.runTzero, Arr.zeroed]
  rcases fld b 12 2 with _ | _ | n <;> simp only [beq_iff_eq] <;> rfl

theorem mem_maskArrays {m q : Nat} : q ∈ (maskArrays m).map (·.2) ↔ q < 4 ∧ m.testBit q = true := by
  have hmap : (maskArrays m).map (·.2) = (List.range 4).filter (fun q => m.testBit q) := by
    simp only [maskArrays]
    exact List.map_snd_zip (by simp)
  rw [hmap, List.mem_filter, List.mem_range]

/-- Array q once the arrays of a list have each been changed, by a change that repeats without effect. -/
theorem Dev.arr_foldl_put {upd : Arr → Arr} (hupd : ∀ a, upd (upd a) = upd a) (q : Nat) (l : List (Nat × Nat)) (d : Dev) :
    ((l.foldl (fun d e => d.modFrond f (fun x => { x with arrs := x.arrs.put e.2 (upd (x.arr e.2)) })) d).frond f).arr q =
      if q ∈ l.map (·.2) then upd ((d.frond f).arr q) else (d.frond f).arr q := by
  induction l generalizing d with
  | nil => simp
  | cons e l ih =>
    rw [List.foldl_cons, ih, Dev.modFrond_eq, Dev.frond_setFrond_self]
    by_cases hq : q = e.2
    · subst hq
      simp [Frond.arr, hupd]
    · simp [Frond.arr, hq, -List.mem_map]

/-- TZERO fills the arrays that it names and leaves the others. -/
theorem Dev.arr_runTzero {q : Nat} (hq : q < 4) : ((d.runTzero f b).frond f).arr q =
    if (fld b 8 4).testBit q = true then ((d.frond f).arr q).zeroed b else (d.frond f).arr q := by
  rw [Dev.runTzero_eq, Dev.arr_foldl_put (upd := fun a => a.zeroed b) (fun _ => rfl) q]
  simp only [mem_maskArrays, hq, true_and]

/-! ### The end of an instruction -/

theorem Dev.cqPump_of_empty (n : Nat) (h : (d.frond f).cq = []) : d.cqPump f n = d := by
  cases n with
  | zero => rfl
  | succ n => simp [Dev.cqPump, h]

end Sys2Proof.Machine
end

section
/-! SUPPORT. What a stop, an exception and a flag leave of the fronds (05 R139, R165, R169). -/

namespace Sys2Proof.Machine

variable (d : Dev)

@[simp] theorem Dev.truncCopy_units (k : Nat) : (d.truncCopy k).units = d.units := rfl
@[simp] theorem Dev.truncCopy_fronds (k : Nat) : (d.truncCopy k).fronds = d.fronds := rfl

@[simp] theorem Dev.stopUnit_fronds (k cause aux : Nat) : (d.stopUnit k cause aux).fronds = d.fronds := by
  unfold Dev.stopUnit
  split <;> rfl

@[simp] theorem Dev.raise_fronds (s : Nat) (r : ErrRec) : (d.raise s r).fronds = d.fronds := (d.raise_recorded r s).fronds

@[simp] theorem Dev.frondExcAt_fronds (f code ip st ord : Nat) : (d.frondExcAt f code ip st ord).fronds = d.fronds := by
  unfold Dev.frondExcAt
  extract_lets k aux first d1 d2
  have h1 : d1.fronds = d.fronds := by simp [d1, Dev.inc_eq]
  have h2 : d2.fronds = d1.fronds := by
    unfold d2
    split <;> rfl
  rw [Dev.stopUnit_fronds, h2, h1]

@[simp] theorem Dev.frondLate_fronds (f code ip st ord : Nat) (stream : Bool) :
    (d.frondLate f code ip st ord stream).fronds = d.fronds := by
  unfold Dev.frondLate
  split
  · split
    · exact d.frondExcAt_fronds f code ip st ord
    · rfl
  · rfl

/-- A flag that gains 1, or overflows, leaves what its frond queues. -/
theorem Dev.addFlag_cq (f n ip ord : Nat) (stream : Bool) :
    ((d.addFlag f n ip ord stream).frond f).cq = (d.frond f).cq := by
  unfold Dev.addFlag
  extract_lets v
  split
  · simp [Dev.frond]
  · rw [Dev.modFrond_eq, Dev.frond_setFrond_self]

end Sys2Proof.Machine
end

section
/-! SUPPORT. The end of a compute instruction (05 R139). -/

namespace Sys2Proof.Machine

variable {d : Dev} {f : Nat} {e : CQ}

/-- What TZERO's end adds to: FE's flag. -/
def Dev.tzeroEnded (d : Dev) (f : Nat) (e : CQ) : Dev :=
  if fld e.bits 15 1 = 1 then d.addFlag f (fld e.bits 16 4) e.ip e.n false else d

theorem Dev.tzeroEnded_cq : ((d.tzeroEnded f e).frond f).cq = (d.frond f).cq := by
  unfold Dev.tzeroEnded
  split
  · exact d.addFlag_cq ..
  · rfl

/-- A TZERO that has started and stands alone in the queue leaves it, and FE adds 1 to its flag. -/
theorem Dev.cqEnd_tzero (hq : (d.frond f).cq = [e]) (hs : e.started = true) (hop : opOf e.bits = 0x31) :
    d.cqEnd f e.n = (d.modFrond f (fun x => { x with cq := [] })).tzeroEnded f e := by
  have hempty : (d.frond f).cq.filter (fun y => y.n != e.n) = [] := by simp [hq]
  have hleft : d.modFrond f (fun x => { x with cq := x.cq.filter (fun y => y.n != e.n) }) =
      d.modFrond f (fun x => { x with cq := [] }) := by simp only [Dev.modFrond_eq, hempty]
  have hfind : (d.frond f).cq.find? (fun y => y.n == e.n && y.started) = some e := by simp [hq, hs]
  have hcq : (((d.modFrond f (fun x => { x with cq := [] })).tzeroEnded f e).frond f).cq = [] := by
    rw [Dev.tzeroEnded_cq, Dev.modFrond_eq, Dev.frond_setFrond_self]
  have hpump (d' : Dev) (h : (d'.frond f).cq = []) :
      (if (d'.unit (d'.frond f).unit).any (fun u => u.phase == 1) = true then d'.cqPump f 9 else d') = d' := by
    rw [Dev.cqPump_of_empty 9 h, ite_self]
  rw [← hpump _ hcq]
  by_cases h : fld e.bits 15 1 = 1
  · simp only [Dev.cqEnd, hfind, hleft, hop, Dev.tzeroEnded, feOf, h, beq_self_eq_true, if_true]
  · simp only [Dev.cqEnd, hfind, hleft, hop, Dev.tzeroEnded, feOf, h, beq_iff_eq, if_false]

end Sys2Proof.Machine
end

section
/-! SUPPORT. Compute instructions of a frond. -/

open Sys2Proof Sys2Proof.Machine

/-- Settles O15: every row's instruction enters the queue once its own checks pass. -/
theorem computeInstructionsQueue : Obligations.ComputeInstructionsQueue := by
  intro s f u b halive hi d x queued hroom
  refine ⟨fun hop hok => ?_, fun hop hmask hfill => ?_, fun hop hok => ?_, fun hop hok => ?_, fun hop hok hl hc => ?_,
    fun hop hok => ?_, fun hop hok => ?_, fun hop hok => ?_, fun hop => ?_⟩
  · exact exec_frondRow rfl halive hi (hasOp_of_opOf hop) (Dev.checked_cqIssue 0#64 hroom hok rfl rfl)
  · have hok : noneOf [(fld b 12 2 == 3 || fld b 8 4 == 0, 1)] = true := by simp [noneOf, hmask, hfill]
    exact exec_frondRow rfl halive hi (hasOp_of_opOf hop) (Dev.checked_cqIssue 0#64 hroom hok rfl rfl)
  · exact exec_frondRow rfl halive hi (hasOp_of_opOf hop) (Dev.checked_cqIssue 0#64 hroom hok rfl rfl)
  · exact exec_frondRow rfl halive hi (hasOp_of_opOf hop) (Dev.checked_cqIssue 0#64 hroom hok rfl rfl)
  · exact exec_frondRow rfl halive hi (hasOp_of_opOf hop) ((Dev.checked_ok (checks_eq_ok hok hl hc rfl)).trans
      (Dev.cqIssue_of_room (x.r (fld b 30 6)) hroom))
  · exact exec_frondRow rfl halive hi (hasOp_of_opOf hop) (Dev.checked_cqIssue 0#64 hroom hok rfl rfl)
  · exact exec_frondRow rfl halive hi (hasOp_of_opOf hop) (Dev.checked_cqIssue 0#64 hroom hok rfl rfl)
  · exact exec_frondRow rfl halive hi (hasOp_of_opOf hop) (Dev.checked_cqIssue 0#64 hroom hok rfl rfl)
  · exact exec_frondRow rfl halive hi (hasOp_of_opOf hop) (Dev.checked_cqIssue 0#64 hroom rfl rfl rfl)

/-- Settles O16: ROWCFG and TZERO as they start, and TZERO's end in a queue that it leaves empty. -/
theorem computeInstructionEffects : Obligations.ComputeInstructionEffects := by
  refine ⟨fun d f e hop => Dev.cqRun_rowcfg hop, fun d f e q hop hq => ?_, fun s f e halive hcq hs hop => ?_⟩
  · rw [Dev.cqRun_tzero hop, Dev.arr_runTzero hq]
    rfl
  · exact exec_devRow (act := fun d => d.cqEnd f e.n) rfl halive (Dev.cqEnd_tzero hcq hs hop)
end

section
/-! SUPPORT. What stops a program as it is fetched: a frond's (05 R142, R169, R170) and a gemma's (10 R312, R331, R333). -/

namespace Sys2Proof.Machine

section
variable {d : Dev} {f : Nat} {u : WUnit} {mine : BitVec 128 → Bool} {body : Dev → WUnit → BitVec 128 → Dev}
  (hu : d.issuing f = some u) (hpc : (d.frond f).pc < (d.frond f).len)
include hu hpc

theorem Dev.frondGo_poisoned (hp : ((d.frond f).storeP.find (d.frond f).pc).isSome = true) :
    d.frondGo f mine body = d.frondPoison f := by
  simp only [Dev.frondGo, hu, if_neg (Nat.not_le.2 hpc), hp, if_true]

theorem Dev.frondGo_undefined (hp : (d.frond f).storeP.find (d.frond f).pc = none)
    (hop : opFields (opOf ((d.frond f).store.get (d.frond f).pc 0#128)) = none) :
    d.frondGo f mine body = d.frondExc f 1 (d.frond f).pc 0 := by
  simp only [Dev.frondGo, hu, if_neg (Nat.not_le.2 hpc), hp, hop, Option.isSome_none, Option.isNone_none, Bool.false_eq_true,
    if_false, if_true]

end

section
variable {d : Dev} {g : Nat} {u : WUnit} {mine : RvI → GKind → Bool} {body : Dev → WUnit → RvI → Dev}
  (hu : d.gemIssuing g = some u)
include hu

theorem Dev.gemGo_past (h : (d.gemma g).fetch = .past) : d.gemGo g mine body = d.gemExc g 5 (d.gemma g).pc 0 := by
  simp only [Dev.gemGo, hu, h]

theorem Dev.gemGo_poisoned (h : (d.gemma g).fetch = .poison) : d.gemGo g mine body = d.gemPoison g := by
  simp only [Dev.gemGo, hu, h]

theorem Dev.gemGo_undecoded (h : (d.gemma g).fetch = .word none) :
    d.gemGo g mine body = d.gemExc g 1 (d.gemma g).pc 0 := by
  simp only [Dev.gemGo, hu, h]

theorem Dev.gemGo_illegal {i : RvI} (h : (d.gemma g).fetch = .word (some i))
    (hk : i.kind ((d.gemma g).fcsr / 32) = .illegal) : d.gemGo g mine body = d.gemExc g 1 (d.gemma g).pc 0 := by
  simp only [Dev.gemGo, hu, h, hk, beq_self_eq_true, if_true]

end

/-! ### The rows that could meet the instruction at issue -/

/-- The rows of a frond's instructions. -/
def frondRows (f : Fin 256) (t : Nat) : List Instr :=
  [.nop f, .fend f, .commit f, .salu f, .sld f, .sst f, .srd f t, .br f, .loop f, .waitf f, .waitm f, .sig f, .fence f, .lds f,
    .sts f, .atom f, .top f, .tzero f, .tmovi f, .tmovo f, .tmovr f, .turn f, .row f, .topkr f, .rowcfg f, .attSetup f, .attRun f]

/-- The rows of a gemma's instructions, those of bank transfers without outcomes. -/
def gemmaRows (g : Fin 2048) : List Instr :=
  [.gemmaBaseInstruction g, .gemmaEcall g, .gemmaCsrAccess g, .gbLd g [], .gbSt g [], .gbFill g [], .gbCrd g, .gbCwr g,
    .gbAtom g, .gbWait g, .gvLd g, .gvSt g, .gvDot g, .gvAxpy g, .gvMinadd g, .gvMaxadd g, .gvMac g, .gvScal g, .gvZero g,
    .gvRsum g, .gvRmin g, .gvRmax g, .gvArgmin g, .gvArgmax g, .gbCommit g, .gbFend g, .gbSig g, .gbWaitm g, .gbInfl g, .gbCrc g,
    .fexp2 g, .gbFence g]

/-- Each of them is the issue stage of its frond, for its own mnemonic. -/
theorem exec_frondRows {f : Fin 256} {t : Nat} (s : State) : ∀ c ∈ frondRows f t,
    ∃ mine body, exec c s = onDev (fun d => d.frondGo f mine body) s := by
  intro c hc
  fin_cases hc <;> exact ⟨_, _, rfl⟩

/-- Each of them is the issue stage of its gemma, for its own kind. -/
theorem exec_gemmaRows {g : Fin 2048} (s : State) : ∀ c ∈ gemmaRows g,
    ∃ mine body, exec c s = onDev (fun d => d.gemGo g mine body) s := by
  intro c hc
  fin_cases hc <;> exact ⟨_, _, rfl⟩

end Sys2Proof.Machine
end

section
/-! SUPPORT. What stops a program at its fetch. -/

open Sys2Proof Sys2Proof.Machine

/-- Settles O24: every row that could meet the instruction is the issue stage, which stops before it looks at the row. -/
theorem programFetchFaults : Obligations.ProgramFetchFaults := by
  refine ⟨?_, ?_⟩
  · intro s f u t halive hu d x b rows hpc c hc
    obtain ⟨mine, body, hrow⟩ := exec_frondRows s c hc
    have hrun {e : Dev} (he : s.dev.frondGo f mine body = e) : exec c s = .next (s.ran e) :=
      exec_devRow hrow halive he
    exact ⟨fun hp => hrun (Dev.frondGo_poisoned hu hpc hp), fun hp hop => hrun (Dev.frondGo_undefined hu hpc hp hop)⟩
  · intro s g u halive hu d x rows c hc
    obtain ⟨mine, body, hrow⟩ := exec_gemmaRows s c hc
    have hrun {e : Dev} (he : s.dev.gemGo g mine body = e) : exec c s = .next (s.ran e) :=
      exec_devRow hrow halive he
    exact ⟨fun h => hrun (Dev.gemGo_past hu h), fun h => hrun (Dev.gemGo_poisoned hu h),
      fun h => hrun (Dev.gemGo_undecoded hu h), fun i h hk => hrun (Dev.gemGo_illegal hu h hk)⟩
end

section
/-! SUPPORT. What a poll, a stream's end and the return of its pieces do (05 R138, R139, R152, R154). -/

namespace Sys2Proof.Machine

variable {d : Dev} {f : Nat} {x : Xfer} {r : XGr}

/-! ### Polls and ends -/

theorem Dev.waitmPoll_of_found (hu : (d.issuing f).isSome = true) (hfind : d.xfers.find? (fun y =>
    y.mid == f && y.kind == .waitm && y.next == 1 && y.gr.isEmpty && y.sent.isEmpty) = some x) :
    d.waitmPoll f = d.modXfer x.id (fun e => { e with next := 0 }) := by
  obtain ⟨u, hu⟩ := Option.isSome_iff_exists.1 hu
  simp only [Dev.waitmPoll, hu, hfind]

/-- A stream of a frond of which nothing is left. -/
structure Xfer.StreamDone (x : Xfer) : Prop where
  frond : x.mid < 256
  stream : x.kind = .lds ∨ x.kind = .sts ∨ x.kind = .atom
  performed : x.next = x.limit
  whole : x.limit = x.n
  delivered : x.gr = []
  answered : x.sent = []

theorem Xfer.StreamDone.check (h : x.StreamDone) : (x.mid < 0x100 && (x.kind == .lds || x.kind == .sts || x.kind == .atom) &&
    x.next == x.limit && x.gr.isEmpty && x.sent.isEmpty) = true := by
  have hstream : (x.kind == .lds || x.kind == .sts || x.kind == .atom) = true := by
    rcases h.stream with h | h | h <;> rw [h] <;> rfl
  simp [h.frond, hstream, h.performed, h.delivered, h.answered]

/-- It ends, and adds 1 to its flag. -/
theorem Dev.streamEnd_flag {n : Nat} (h : x.StreamDone) (hflag : x.flag = some n) :
    d.streamEnd x = (d.endXfer x.id).addFlag x.mid n x.ip x.order true := by
  rw [Dev.streamEnd, if_pos h.check]
  simp only [hflag, h.whole, beq_self_eq_true, if_true]

theorem Dev.streamEnd_noFlag (h : x.StreamDone) (hflag : x.flag = none) : d.streamEnd x = d.endXfer x.id := by
  simp only [Dev.streamEnd, h.check, hflag, if_true]

/-! ### Pieces -/

theorem Dev.frond_modFrond (d : Dev) (i j : Nat) (h : Frond → Frond) :
    (d.modFrond i h).frond j = if j = i then h (d.frond i) else d.frond j := by rw [Dev.modFrond_eq, Dev.frond_setFrond]

/-- A stash's read is counted and does nothing more. -/
theorem Dev.stashCount_read (d : Dev) (f a : Nat) : ∃ stat, d.stashCount f false a = { d with stat := stat } := by
  unfold Dev.stashCount
  split
  split
  · exact ⟨d.stat, rfl⟩
  · simp only [Bool.false_eq_true, if_false]
    split
    · exact ⟨_, rfl⟩
    · exact ⟨d.stat, rfl⟩

/-- A stash's write is counted, and can raise its frond's high-water mark. -/
theorem Dev.stashCount_write (d : Dev) (f a : Nat) : ∃ stat high,
    d.stashCount f true a = Dev.modFrond { d with stat := stat } f (fun y => { y with sthHigh := high }) ∨
    d.stashCount f true a = d := by
  unfold Dev.stashCount
  split
  split
  · exact ⟨d.stat, 0, .inr rfl⟩
  · exact ⟨_, _, .inl rfl⟩

/-- The sticky bits are their frond's, and the unit's. -/
theorem Dev.frond_frondSticky (d : Dev) (f k st : Nat) : ∃ sticky, ∀ g, (d.frondSticky f k st).frond g =
    if g = f then { d.frond f with sticky := sticky } else d.frond g :=
  ⟨(d.frond f).sticky ||| if st == 1 then 1#3 else if st == 2 then 2#3 else if st == 3 then 4#3 else 0#3, fun g =>
    d.frond_modFrond f g (fun x =>
      { x with sticky := x.sticky ||| if st == 1 then 1#3 else if st == 2 then 2#3 else if st == 3 then 4#3 else 0#3 })⟩

/-- A granule that an LDS read is in the operand store with its poison; nothing else of any frond has changed but the sticky
flags of its own. -/
theorem Dev.frondDeliver_lds (hkind : x.kind = .lds) (hst : r.status < 4) :
    (∃ sticky, (d.frondDeliver x r).frond x.mid =
      { d.frond x.mid with sticky := sticky }.setOs (x.loc + r.i) r.data (r.status == 1)) ∧
    (∀ g, g ≠ x.mid → (d.frondDeliver x r).frond g = d.frond g) ∧
    (d.frondDeliver x r).mem = d.mem ∧ (d.frondDeliver x r).halves = d.halves := by
  have hfail : decide (4 ≤ r.status) = false := decide_eq_false (Nat.not_le.2 hst)
  unfold Dev.frondDeliver
  extract_lets f fail p d1 d2 d3 v
  obtain ⟨sticky, h2⟩ := d1.frond_frondSticky f x.unit r.status
  obtain ⟨stat, h3⟩ : ∃ stat, d3 = { d2 with stat := stat } := by
    simp only [d3, fail, hfail, Bool.false_eq_true, if_false]
    split
    · exact d2.stashCount_read _ _
    · exact ⟨d2.stat, rfl⟩
  have hv : v = r.data := by simp only [v, fail, hfail, Bool.false_eq_true, if_false]
  have h3' (g : Nat) : d3.frond g = if g = f then { d.frond f with sticky := sticky } else d.frond g := by
    rw [h3]
    exact h2 g
  rw [hkind, hv]
  refine ⟨⟨sticky, ?_⟩, fun g hg => ?_, ?_, ?_⟩
  · rw [Dev.frond_modFrond, if_pos rfl, h3', if_pos rfl]
  · rw [Dev.frond_modFrond, if_neg hg, h3', if_neg hg]
  · rw [h3]; rfl
  · rw [h3]; rfl

/-- A piece of an STS that is acknowledged leaves the operand store; the first status that says it did not land is kept. -/
theorem Dev.frondLanded_sts (hkind : x.kind = .sts) :
    ((d.frondLanded x r).frond x.mid).wrFail =
      (if 4 ≤ r.status ∧ (d.frond x.mid).wrFail = 0 then r.status else (d.frond x.mid).wrFail) ∧
    ((d.frondLanded x r).frond x.mid).os = (d.frond x.mid).os ∧ (d.frondLanded x r).mem = d.mem ∧
    (d.frondLanded x r).halves = d.halves := by
  unfold Dev.frondLanded
  extract_lets d1 d2
  have hself : ∀ g, d1.frond g = d.frond g := fun _ => rfl
  rw [hkind]
  change (d2.frond x.mid).wrFail = _ ∧ (d2.frond x.mid).os = _ ∧ d2.mem = d.mem ∧ d2.halves = d.halves
  by_cases hst : 4 ≤ r.status
  · simp only [d2, if_pos hst]
    rw [Dev.frond_modFrond, if_pos rfl, hself]
    refine ⟨?_, rfl, rfl, rfl⟩
    simp only [hst, true_and, beq_iff_eq]
  · simp only [d2, if_neg hst, hst, false_and, if_false]
    split
    · obtain ⟨stat, high, h | h⟩ := d1.stashCount_write x.mid (x.named r.i) <;> rw [h]
      · rw [Dev.frond_modFrond, if_pos rfl]
        exact ⟨rfl, rfl, rfl, rfl⟩
      · exact ⟨rfl, rfl, rfl, rfl⟩
    · exact ⟨rfl, rfl, rfl, rfl⟩

end Sys2Proof.Machine
end

section
/-! SUPPORT. What the rows of pieces do in a running module, and the ends of a frond's waits and streams. -/

namespace Sys2Proof.Machine

variable {s : State} {x : Xfer} {r : XGr}

/-- A ready piece of a frond's transfer goes back to it. -/
theorem Dev.deliverPiece_of_frond {d : Dev} (hx : d.xfer x.id = some x) (hmid : x.mid < 256)
    (hr : x.gr.find? (fun y => y.i == r.i && y.stage == 1) = some r) :
    d.deliverPiece x.id r.i x.kind.isRead = if x.kind.isRead = true then d.frondDeliver x r else d.frondLanded x r := by
  simp only [Dev.deliverPiece, hx, hr, Dev.deliver, hmid, bne_self_eq_false, Bool.false_eq_true, if_false, if_true]

end Sys2Proof.Machine

open Sys2Proof Sys2Proof.Machine

/-- Settles O18: a poll and an end by the transfer that they find, a piece by what its return does to its frond. -/
theorem frondWaitsAndStreams : Obligations.FrondWaitsAndStreams := by
  refine ⟨?_, ?_⟩
  · rintro s f x halive hmid hgr hsent d
    refine ⟨fun hu _ _ hfind => ?_, fun hkind hnext hlimit hx => ?_⟩
    · exact exec_devRow (act := fun d => d.waitmPoll f) rfl halive (Dev.waitmPoll_of_found hu hfind)
    · have hdone : x.StreamDone := ⟨hmid ▸ f.isLt, hkind, hnext, hlimit, hgr, hsent⟩
      refine exec_devRow (act := fun d => match d.xfer x.id with
        | some xf => d.streamEnd xf
        | none => d) rfl halive ?_
      simp only [show s.dev.xfer x.id = some x from hx]
      cases hflag : x.flag with
      | some n => exact hmid ▸ Dev.streamEnd_flag hdone hflag
      | none => exact Dev.streamEnd_noFlag hdone hflag
  · intro s x r halive hx hmid hr d
    have hpiece := Dev.deliverPiece_of_frond hx hmid hr
    refine ⟨fun hkind hst => ⟨d.frondDeliver x r, ?_, ?_⟩, fun hkind => ⟨d.frondLanded x r, ?_, Dev.frondLanded_sts hkind⟩⟩
    · rw [hkind] at hpiece
      exact exec_devRow (act := fun d => d.deliverPiece x.id r.i true) rfl halive hpiece
    · obtain ⟨⟨sticky, hself⟩, hothers, hmem, hhalves⟩ := Dev.frondDeliver_lds (d := d) hkind hst
      rw [hself]
      refine ⟨SMap.get_put_self _ _ _ _, ?_, fun g hg => SMap.get_put_ne _ _ _ hg, rfl, rfl, hothers, hmem, hhalves⟩
      cases h : r.status == 1 <;> simp [Frond.setOs, SMap.find_drop]
    · rw [hkind] at hpiece
      exact exec_devRow (act := fun d => d.deliverPiece x.id r.i false) rfl halive hpiece
end

section
/-! SUPPORT. Set-up and run of attention, and an item of MERGE (05 R163, 06 R200, R201, R206). -/

namespace Sys2Proof.Machine

variable {d : Dev} {f a : Nat} {u : WUnit} {b : BitVec 128}

theorem attMine_setup (hop : opOf b = 0x48) (hsub : fld b 8 2 = 0) : (hasOp 0x48 b && fld b 8 2 != 1) = true := by
  simp [hasOp, hop, hsub]

theorem attMine_run (hop : opOf b = 0x48) (hsub : fld b 8 2 = 1) : (hasOp 0x48 b && fld b 8 2 == 1) = true := by
  simp [hasOp, hop, hsub]

/-! ### Set-up -/

section
variable {d1 : Dev} (hsub : fld b 8 2 = 0) (ha : d.AddrOk f (fld b 15 6) (sfld b 21 32) a) (halign : a % 64 = 0)
  (hspace : a + 256 ≤ 2 ^ 40)
include hsub ha halign hspace

/-- A set-up of an aligned descriptor in the module's space passes its checks. -/
theorem Dev.attSetup_checks : checks [(decide (2 ≤ fld b 8 2), 1)] (d.pendingReg f (fld b 15 6)) ((d.frond f).pois (fld b 15 6))
    [((a : Int) % 64 != 0, 5), (decide ((a : Int) < 0) || decide ((2 ^ 40 : Int) < a + 256), 6)] = .ok := by
  have hlisted : noneOf [(decide (2 ≤ fld b 8 2), 1)] = true := by simp [noneOf, hsub]
  have hplace : noneOf [((a : Int) % 64 != 0, 5), (decide ((a : Int) < 0) || decide ((2 ^ 40 : Int) < a + 256), 6)] = true := by
    have h : (a : Int) % 64 = 0 := by exact_mod_cast halign
    simp [noneOf, h]; omega
  exact checks_eq_ok hlisted ha.loaded ha.clean hplace

variable (hrun : (d.frond f).att.running = false)
include hrun

/-- A set-up whose read fails, or must wait. -/
theorem Dev.doAttSetup_unread
    (hw : d.attWords ⟨f, u, (d.frond f).pc, (d.frond f).order⟩ a 64 = (d1, none)) :
    d.doAttSetup f u b = d1.heldOr d f := by
  simp only [Dev.doAttSetup, ha.addr]
  rw [Dev.checked_ok (Dev.attSetup_checks hsub ha halign hspace)]
  simp only [hrun, Bool.false_and, Bool.false_eq_true, if_false, Int.toNat_natCast, hw]

/-- A set-up that needs no arena keeps the words that it read. -/
theorem Dev.doAttSetup_read {ws : List Word} (hflag : fld b 10 1 = 0)
    (hw : d.attWords ⟨f, u, (d.frond f).pc, (d.frond f).order⟩ a 64 = (d1, some ws)) (happ : ADesc.app ⟨ws⟩ = false)
    (hmode : ADesc.mode ⟨ws⟩ ≠ 3) : d.doAttSetup f u b = (d1.modFrond f (fun y =>
      { y with att := { y.att with desc := ws, arena := [], fresh := true } })).advance f := by
  have hfe : feOf (fld b 10 1) (fld b 11 4) = none := by simp [feOf, hflag]
  simp only [Dev.doAttSetup, ha.addr]
  rw [Dev.checked_ok (Dev.attSetup_checks hsub ha halign hspace)]
  simp only [hrun, Bool.false_and, Bool.false_eq_true, if_false, Int.toNat_natCast, hw, happ, beq_false_of_ne hmode,
    Bool.or_self, hfe]

end

/-! ### Run -/

@[simp] theorem setStatus_sreg (x : Frond) (g s : Nat) (w : Word) : (setStatus x g s w).sreg = x.sreg := rfl
@[simp] theorem setStatus_att (x : Frond) (g s : Nat) (w : Word) : (setStatus x g s w).att = x.att := rfl

theorem setStatuses_sreg (l : List Nat) (x : Frond) (g : Nat) (w : Word) :
    (l.foldl (fun x s => setStatus x g s w) x).sreg = x.sreg :=
  List.foldlRecOn (motive := fun y : Frond => y.sreg = x.sreg) l _ rfl (fun _ h _ _ => h)

theorem setStatuses_att (l : List Nat) (x : Frond) (g : Nat) (w : Word) :
    (l.foldl (fun x s => setStatus x g s w) x).att = x.att :=
  List.foldlRecOn (motive := fun y : Frond => y.att = x.att) l _ rfl (fun _ h _ _ => h)

/-- The frond of a run that has started: its sequences' status words, and the sequencer at the first item. -/
def Frond.attStarted (x : Frond) (b : BitVec 128) : Frond :=
  let ad : ADesc := ⟨x.att.desc⟩
  let y := (List.range ad.seqCount).foldl (fun x s => setStatus x ad.status s 1#32) x
  { y with att := { y.att with running := true, rdesc := y.att.desc, slot := 0, layer := 0, kv := 0, tile := 0
                               flag := feOf (fld b 10 1) (fld b 11 4), ip := y.pc, order := y.order, code := 0, keys := 0
                               srec := [], lost := false, early := [] } }

/-- A run of a valid descriptor, with none in progress, starts. -/
theorem Dev.doAttRun_performs (hsub : fld b 8 2 = 1) (hrun : (d.frond f).att.running = false)
    (hvalid : ADesc.bad ⟨(d.frond f).att.desc⟩ (d.frond f).att.arena (d.frond f).att.fresh = false) :
    d.doAttRun f b = (((d.modFrond f (·.attStarted b)).bump (cFrd f 42) (ADesc.seqCount ⟨(d.frond f).att.desc⟩)).inc
      (cFrd f 28)).advance f := by
  have hlisted : noneOf [(decide (2 ≤ fld b 8 2), 1),
      (ADesc.bad ⟨(d.frond f).att.desc⟩ (d.frond f).att.arena (d.frond f).att.fresh, 13)] = true := by
    simp [noneOf, hsub, hvalid]
  simp only [Dev.doAttRun, hrun, Bool.false_eq_true, if_false]
  rw [Dev.checked_ok (checks_eq_ok hlisted rfl rfl rfl)]
  rfl

/-! ### Items -/

/-- Writing granules of the operand store leaves the sequencer. -/
theorem putGrans_att (x : Frond) (g : Nat) (gs : List Gran) (p : Bool) : (putGrans x g gs p).att = x.att :=
  List.foldlRecOn (motive := fun y : Frond => y.att = x.att) _ _ rfl (fun _ h _ _ => h)

theorem Dev.setArr_fronds (d : Dev) (f q fl : Nat) : (d.setArr f q fl).fronds = d.fronds := rfl

theorem Dev.outClamped_fronds (d : Dev) (f n : Nat) : (d.outClamped f n).fronds = d.fronds := by
  unfold Dev.outClamped
  split
  · rfl
  · refine List.foldlRecOn (motive := fun e : Dev => e.fronds = d.fronds) _ _ rfl (fun e h q _ => ?_)
    split <;> exact h

/-- A row's output leaves the sequencer of its frond. -/
theorem Dev.mergeRow_att (d : Dev) (c : ACtx) (ad : ADesc) (row : Nat) (r : MRow) :
    ((d.mergeRow c ad row r).frond c.f).att = (d.frond c.f).att := by
  unfold Dev.mergeRow
  split
  · rw [Dev.frond_modFrond, if_pos rfl, putGrans_att]
  · simp only [Dev.frond, Dev.outClamped_fronds]
    exact (congrArg Frond.att ((d.frond_modFrond c.f c.f _).trans (if_pos rfl))).trans (putGrans_att _ _ _ _)

/-- Without stash records nothing of an item of MERGE can hold it: it leaves the sequencer. -/
theorem Dev.mergeItem_att {c : ACtx} {ad : ADesc} (tile : Nat) (h : ad.lse = false) :
    ((d.mergeItem c ad tile).1.frond c.f).att = (d.frond c.f).att := by
  simp only [Dev.mergeItem, h, Bool.false_eq_true, if_false, Bool.not_true]
  exact List.foldlRecOn (motive := fun e : Dev => (e.frond c.f).att = (d.frond c.f).att) _ _ rfl
    (fun e he r _ => (e.mergeRow_att c ad r.1 r.2).trans he)

/-- The device as an item starts: its time is counted, and nothing has held it. -/
def Dev.itemStart (d : Dev) (f : Nat) : Dev :=
  (d.bumpFree (cFrd f 30)).modFrond f (fun y => { y with att := { y.att with held := 0 } })

/-- What has been merged of the item of MERGE in progress. -/
def Dev.itemMerged (d : Dev) (f : Nat) (u : WUnit) : Dev × Bool × Bool :=
  (d.itemStart f).mergeItem ⟨f, u, (d.frond f).att.ip, (d.frond f).att.order⟩ ⟨(d.frond f).att.rdesc⟩ (d.frond f).att.tile

/-- The sequencer once an item of MERGE is done and the next follows; `pois`: a row of it was poison. -/
def AttRun.merged (a : AttRun) (pois : Bool) : AttRun :=
  { a with tile := a.tile + 1, code := if pois = true ∨ a.code = 7 then 7 else 0 }

theorem Dev.attItem_merge {c : ACtx} {m : Dev × Bool × Bool} (hmode : ADesc.mode ⟨(d.frond c.f).att.rdesc⟩ = 4)
    (hmore : 64 * ((d.frond c.f).att.tile + 1) < ADesc.nq ⟨(d.frond c.f).att.rdesc⟩)
    (hm : d.mergeItem c ⟨(d.frond c.f).att.rdesc⟩ (d.frond c.f).att.tile = m) (hgo : m.2.1 = true) :
    d.attItem c = m.1.setAtt c.f ((d.frond c.f).att.merged m.2.2) := by
  obtain ⟨e, go, pois⟩ := m
  obtain rfl : go = true := hgo
  simp only [Dev.attItem, hmode, hm, if_pos hmore, beq_self_eq_true, if_true, AttRun.merged, Bool.or_eq_true, beq_iff_eq]

/-- The sequencer's item is set, and what may hold it stays. -/
theorem Dev.setAtt_att (d : Dev) (f : Nat) (a : AttRun) :
    (((d.setAtt f a).frond f).att.tile = a.tile) ∧ ((d.setAtt f a).frond f).att.held = (d.frond f).att.held := by
  have h : (d.setAtt f a).frond f = _ := (Dev.frond_modFrond d f f _).trans (if_pos rfl)
  rw [h]
  exact ⟨rfl, rfl⟩

theorem Dev.heldOr_of_free {d0 : Dev} (h : (d.frond f).att.held = 0) : d.heldOr d0 f = d := by
  simp only [Dev.heldOr, h]

/-- An item that nothing holds, and after which another one is in progress, ends with its effects. -/
theorem Dev.attItemEnd_of_item {e : Dev} (hu : d.issuing f = some u) (hrun : (d.frond f).att.running = true)
    (hitem : (d.itemStart f).attItem ⟨f, u, (d.frond f).att.ip, (d.frond f).att.order⟩ = e)
    (hnext : (e.frond f).att.tile ≠ (d.frond f).att.tile) (hheld : (e.frond f).att.held = 0) : d.attItemEnd f = e := by
  rw [Dev.itemStart] at hitem
  simp only [Dev.attItemEnd, hu, hrun, hitem, beq_false_of_ne hnext, Bool.not_true, Bool.and_false, Bool.false_eq_true,
    if_false]
  exact Dev.heldOr_of_free hheld

/-- An item of MERGE that meets no stop and is not the last: the next follows. -/
theorem Dev.attItemEnd_merge (hu : d.issuing f = some u) (hrun : (d.frond f).att.running = true)
    (hmode : ADesc.mode ⟨(d.frond f).att.rdesc⟩ = 4)
    (hmore : 64 * ((d.frond f).att.tile + 1) < ADesc.nq ⟨(d.frond f).att.rdesc⟩) (hgo : (d.itemMerged f u).2.1 = true)
    (hheld : ADesc.lse ⟨(d.frond f).att.rdesc⟩ = false ∨ ((d.itemMerged f u).1.frond f).att.held = 0) :
    d.attItemEnd f = (d.itemMerged f u).1.setAtt f ((d.frond f).att.merged (d.itemMerged f u).2.2) := by
  have hstart : (d.itemStart f).frond f = { d.frond f with att := { (d.frond f).att with held := 0 } } :=
    (Dev.frond_modFrond _ f f _).trans (if_pos rfl)
  have hfree : ((d.itemMerged f u).1.frond f).att.held = 0 := by
    rcases hheld with hlse | hheld
    · rw [Dev.itemMerged, Dev.mergeItem_att (c := ⟨f, u, (d.frond f).att.ip, (d.frond f).att.order⟩) _ hlse, hstart]
    · exact hheld
  obtain ⟨htile, hkept⟩ := (d.itemMerged f u).1.setAtt_att f ((d.frond f).att.merged (d.itemMerged f u).2.2)
  refine Dev.attItemEnd_of_item hu hrun ?_ (htile ▸ Nat.succ_ne_self _) (hkept.trans hfree)
  refine (Dev.attItem_merge (m := d.itemMerged f u) ?_ ?_ ?_ hgo).trans ?_ <;> simp only [hstart]
  · exact hmode
  · exact hmore
  · rfl
  · rfl

end Sys2Proof.Machine
end

section
/-! SUPPORT. Attention. -/

open Sys2Proof Sys2Proof.Machine

/-- Settles O19: each row by the branch of its function that its operands and state take. -/
theorem attentionCommands : Obligations.AttentionCommands := by
  intro s f halive d x
  refine ⟨fun u b a hi hop hsub hl hc haddr halign hspace hrun hflag => ?_, fun u b hi hop hsub hrun hvalid => ?_,
    fun u hu hrun hmode hmore => ?_⟩
  · have ha : d.AddrOk f (fld b 15 6) (sfld b 21 32) a := ⟨hl, hc, haddr⟩
    refine ⟨d.doAttSetup f u b, exec_frondRow rfl halive hi (attMine_setup hop hsub) rfl, ?_⟩
    rcases hw : d.attWords ⟨f, u, x.pc, x.order⟩ a 64 with ⟨d1, _ | ws⟩
    · exact Dev.doAttSetup_unread hsub ha halign hspace hrun hw
    · exact Dev.doAttSetup_read hsub ha halign hspace hrun hflag hw
  · refine ⟨_, exec_frondRow rfl halive hi (attMine_run hop hsub) (Dev.doAttRun_performs hsub hrun hvalid), ?_⟩
    have hstart (n : Nat) : ((d.modFrond f (·.attStarted b)).bump (cFrd f 42) n).frond f = x.attStarted b :=
      (d.frond_modFrond f f (·.attStarted b)).trans (if_pos rfl)
    rw [hstart]
    refine ⟨rfl, ?_, rfl, rfl, ?_, rfl⟩
    · simp only [Frond.attStarted, setStatuses_att]
    · simp only [Frond.attStarted, setStatuses_sreg]
  · intro m hgo hheld
    exact exec_devRow (act := fun d => d.attItemEnd f) rfl halive (Dev.attItemEnd_merge hu hrun hmode hmore hgo hheld)
end

section
/-! SUPPORT. The numbers of the units in hand, which no access to memory changes: the operations of records, freezes, banks and
halves give no unit another number, and take none (02 R52). -/

namespace Sys2Proof.Machine

/-- The number that the next unit takes, and those of the units in hand. -/
def Dev.nums (d : Dev) : Nat × List Nat := (d.nextU, d.units.map (·.key))

variable (d : Dev)

/-! ### The updates of the device's parts -/

@[simp] theorem Dev.setFrond_nums (f : Nat) (x : Frond) : (d.setFrond f x).nums = d.nums := rfl
@[simp] theorem Dev.modFrond_nums (f : Nat) (g : Frond → Frond) : (d.modFrond f g).nums = d.nums := rfl
@[simp] theorem Dev.setBank_nums (b : Nat) (x : Bank) : (d.setBank b x).nums = d.nums := rfl
@[simp] theorem Dev.setRhz_nums (f : Nat) (x : Rhz) : (d.setRhz f x).nums = d.nums := rfl
@[simp] theorem Dev.setHalf_nums (h : Nat) (x : Half) : (d.setHalf h x).nums = d.nums := rfl
@[simp] theorem Dev.modXfer_nums (k : Nat) (f : Xfer → Xfer) : (d.modXfer k f).nums = d.nums := rfl
@[simp] theorem Dev.endXfer_nums (k : Nat) : (d.endXfer k).nums = d.nums := rfl
@[simp] theorem Dev.finishGr_nums (x i st : Nat) (g : Gran) : (d.finishGr x i st g).nums = d.nums := rfl
@[simp] theorem Dev.modDom_nums (i : Nat) (f : Dom → Dom) : (d.modDom i f).nums = d.nums := rfl
@[simp] theorem Dev.bump_nums (c n : Nat) : (d.bump c n).nums = d.nums := rfl
@[simp] theorem Dev.inc_nums (c : Nat) : (d.inc c).nums = d.nums := rfl
@[simp] theorem Dev.draw_nums : d.draw.1.nums = d.nums := rfl
@[simp] theorem Dev.anyRead_nums : d.anyRead.1.nums = d.nums := rfl
@[simp] theorem Dev.anyWrite_nums : d.anyWrite.1.nums = d.nums := rfl
@[simp] theorem Dev.anyFault_nums : d.anyFault.1.nums = d.nums := rfl
@[simp] theorem Dev.storePoison_nums (w : Nat) : (d.storePoison w).nums = d.nums := rfl
@[simp] theorem Dev.storeWord_nums (w : Nat) (g : Gran) (m : BitVec 64) : (d.storeWord w g m).nums = d.nums := rfl

/-- Steps that each leave the numbers leave them together. -/
theorem Dev.foldl_nums {α : Type} {f : Dev → α → Dev} (hf : ∀ e a, (f e a).nums = e.nums) (l : List α) (d : Dev) :
    (l.foldl f d).nums = d.nums :=
  List.foldlRecOn (motive := fun e : Dev => e.nums = d.nums) l f rfl (fun e h a _ => (hf e a).trans h)

/-! ### Units, records and freezes -/

theorem Dev.modUnit_nums (k : Nat) {f : WUnit → WUnit} (hf : ∀ u, (f u).key = u.key) : (d.modUnit k f).nums = d.nums := by
  rw [Dev.nums, Dev.modUnit_units, List.map_map]
  refine congrArg (Prod.mk d.nextU) (List.map_congr_left fun u _ => ?_)
  simp only [Function.comp_apply]
  split
  · exact hf u
  · rfl

@[simp] theorem Dev.raise_nums (s : Nat) (r : ErrRec) : (d.raise s r).nums = d.nums := by
  obtain ⟨err, stat, seq, h⟩ := d.raise_recorded r s
  rw [h]
  exact congrArg (Prod.mk d.nextU) List.map_map

@[simp] theorem Dev.markPoison_nums (k a : Nat) : (d.markPoison k a).nums = d.nums := by
  refine d.modUnit_nums k fun u => ?_
  dsimp only
  split <;> rfl

@[simp] theorem Dev.stopUnit_nums (k cause aux : Nat) : (d.stopUnit k cause aux).nums = d.nums := by
  have h := d.modUnit_nums k (f := fun u => if u.phase == 1 || u.phase == 2 then
    { u with phase := 2, stops := u.stops ++ [(cause, aux)] } else u) fun u => by split <;> rfl
  unfold Dev.stopUnit
  split <;> exact h

@[simp] theorem Dev.freeze_nums (m kind wset addr ctx : Nat) (dead : Bool) :
    (d.freeze m kind wset addr ctx dead).nums = d.nums := by
  unfold Dev.freeze
  split
  · rfl
  · split
    · rfl
    · exact Dev.stopUnit_nums _ _ _ _

/-! ### Banks -/

@[simp] theorem Dev.openRow_nums (a : Nat) (rhz : Option Nat) : (d.openRow a rhz).nums = d.nums := by
  unfold Dev.openRow
  dsimp only
  split
  · rfl
  · split <;> rfl

@[simp] theorem Dev.pendRhz_nums (f p : Nat) : (d.pendRhz f p).nums = d.nums := by
  unfold Dev.pendRhz
  dsimp only
  split <;> simp

@[simp] theorem Dev.pendOut_nums (f : Nat) : (d.pendOut f).nums = d.nums := by
  unfold Dev.pendOut
  dsimp only
  split <;> simp

@[simp] theorem Dev.unqueueLane_nums (f : Nat) (cc : Bool) (lane : Nat) : (d.unqueueLane f cc lane).nums = d.nums := by
  unfold Dev.unqueueLane
  exact Dev.foldl_nums (fun e _ => e.setBank_nums _ _) _ _

@[simp] theorem Dev.laneFail_nums (f : Nat) (cc : Bool) (lane : Nat) : (d.laneFail f cc lane).nums = d.nums := by
  unfold Dev.laneFail
  dsimp only
  repeat' split
  all_goals simp

@[simp] theorem Dev.noteLanes_nums (path : Nat) (lanes : List Nat) (w : Nat) : (d.noteLanes path lanes w).nums = d.nums := rfl

@[simp] theorem Dev.laneRule_nums (cc : Bool) (w : Nat) (bytes : BitVec 64) : (d.laneRule cc w bytes).nums = d.nums := by
  unfold Dev.laneRule
  refine (Dev.foldl_nums (fun e l => ?_) _ _).trans (d.noteLanes_nums _ _ _)
  dsimp only
  split <;> simp

@[simp] theorem Dev.queueRow_nums (a : Nat) : (d.queueRow a).nums = d.nums := by
  unfold Dev.queueRow
  dsimp only
  split
  · rfl
  · split <;> rfl

@[simp] theorem Dev.readWord_nums (w : Nat) (port : RdPort) (tr : ReadTry) : (d.readWord w port tr).1.nums = d.nums := by
  unfold Dev.readWord
  dsimp only
  repeat' split
  all_goals simp

@[simp] theorem Dev.writeWord_nums (w : Nat) (g : Gran) (mask : BitVec 64) (pois : Bool) (tr : WriteTry) (k : Nat)
    (cc : Option Bool) : (d.writeWord w g mask pois tr k cc).nums = d.nums := by
  unfold Dev.writeWord
  dsimp only
  repeat' split
  all_goals simp

/-! ### Paths and seals -/

@[simp] theorem Dev.bridgeFails_nums (b : Nat) : (d.bridgeFails b).nums = d.nums := by
  unfold Dev.bridgeFails
  split
  · rfl
  · exact Dev.raise_nums _ _ _

@[simp] theorem Dev.pathFault_nums (path : List Nat) (f : CacheFault) : (d.pathFault path f).nums = d.nums := by
  unfold Dev.pathFault
  split
  · split <;> simp
  · rfl

@[simp] theorem Dev.askDom_nums (i : Nat) : (d.askDom i).nums = d.nums := by
  unfold Dev.askDom
  split <;> rfl

@[simp] theorem Dev.countAbsorb_nums (st a : Nat) : (d.countAbsorb st a).nums = d.nums := by
  unfold Dev.countAbsorb
  dsimp only
  split <;> rfl

@[simp] theorem Dev.breakSeal_nums (a m : Nat) : (d.breakSeal a m).nums = d.nums := by
  unfold Dev.breakSeal
  split
  · split <;> rfl
  · rfl

/-! ### A half's lines -/

@[simp] theorem Dev.luDrop_nums (h l : Nat) : (d.luDrop h l).nums = d.nums := by
  unfold Dev.luDrop
  dsimp only
  split
  · rfl
  · split <;> rfl

@[simp] theorem Dev.ghostHit_nums (h l : Nat) : (d.ghostHit h l).nums = d.nums := by
  unfold Dev.ghostHit
  split
  · rfl
  · dsimp only
    split <;> rfl

@[simp] theorem Dev.poisonMerge_nums (w k : Nat) : (d.poisonMerge w k).nums = d.nums := by simp [Dev.poisonMerge]

@[simp] theorem Dev.noteSeal_nums (x w : Nat) : (d.noteSeal x w).nums = d.nums := by
  unfold Dev.noteSeal
  split <;> rfl

@[simp] theorem Dev.finishRead_nums (a : HAcc) (st : Nat) (g : Gran) (dead : Bool) :
    (d.finishRead a st g dead).nums = d.nums := by
  unfold Dev.finishRead
  dsimp only
  split
  · split <;> simp
  · simp

@[simp] theorem Dev.serveRead_nums (a : HAcc) (pois unst dead : Bool) (g : Gran) :
    (d.serveRead a pois unst dead g).nums = d.nums := by
  unfold Dev.serveRead
  dsimp only
  split <;> simp

@[simp] theorem Dev.landed_nums (a : HAcc) (pois disc : Bool) : (d.landed a pois disc).nums = d.nums := by
  unfold Dev.landed
  dsimp only
  split
  · simp
  · split <;> simp

@[simp] theorem Dev.applyHit_nums (h : Nat) (a : HAcc) (dead : Bool) : (d.applyHit h a dead).nums = d.nums := by
  unfold Dev.applyHit
  dsimp only
  repeat' split
  all_goals simp

@[simp] theorem Dev.arrayFault_nums (h l j : Nat) (bytes : BitVec 64) : (d.arrayFault h l j bytes).nums = d.nums := by
  unfold Dev.arrayFault
  dsimp only
  split
  · rfl
  · split <;> simp

@[simp] theorem Dev.cacheFault_nums (h l : Nat) (f : CacheFault) : (d.cacheFault h l f).nums = d.nums := by
  unfold Dev.cacheFault Dev.tagLost
  split <;> simp

@[simp] theorem Dev.victimFault_nums (h l : Nat) : (d.victimFault h l).nums = d.nums := by
  unfold Dev.victimFault
  dsimp only
  repeat' split
  all_goals simp

end Sys2Proof.Machine
end

section
/-! SUPPORT. The numbers of the units in hand over an access that a stipe makes, whole (09 R290, R295-R299, R557). -/

namespace Sys2Proof.Machine

variable (d : Dev)

/-! ### Accesses at their home half -/

@[simp] theorem Dev.countAt_nums (h : Nat) (a : HAcc) (n : Nat) : (d.countAt h a n).nums = d.nums := by
  unfold Dev.countAt
  split <;> rfl

@[simp] theorem Dev.openFill_nums (h : Nat) (a : HAcc) (dead : Bool) : (d.openFill h a dead).nums = d.nums := by
  unfold Dev.openFill
  dsimp only
  split
  · rfl
  · split <;> simp

@[simp] theorem Dev.atEvict_nums (h : Nat) (a : HAcc) (e : Evict) : (d.atEvict h a e).nums = d.nums := by
  unfold Dev.atEvict
  dsimp only
  split
  · rw [Dev.setHalf_nums]
    split <;> rfl
  · have hread (e : Dev) (tr : ReadTry) := e.readWord_nums a.w .channel tr
    repeat' split
    all_goals simp_all

@[simp] theorem Dev.homeAccess_nums (h : Nat) (a : HAcc) : (d.homeAccess h a).nums = d.nums := by
  unfold Dev.homeAccess
  extract_lets l hf d0 src d1 dead d2 d3
  have h0 : d0.nums = d.nums := by
    unfold d0
    split <;> simp
  rw [← h0]
  split
  · exact Dev.atEvict_nums _ _ _ _
  · split
    · extract_lets early joins new d1 f' hf'
      have h1 : d1.nums = d0.nums := by
        unfold d1
        split
        · exact (Dev.countAt_nums _ _ _ _).trans (Dev.inc_nums _ _)
        · split
          · rfl
          · exact Dev.countAt_nums _ _ _ _
      exact (Dev.setHalf_nums _ _ _).trans h1
    · split
      · dsimp only
        repeat' split
        all_goals simp
      · split
        · exact Dev.setHalf_nums _ _ _
        · have h2 : d2.nums = d0.nums := by
            unfold d2
            split <;> simp [d1]
          rw [← h2]
          repeat' split
          all_goals simp [d3]

@[simp] theorem Dev.rearrive_nums (h : Nat) (a : HAcc) : (d.rearrive h a).nums = d.nums := by
  unfold Dev.rearrive
  dsimp only
  split <;> simp

theorem Dev.rearrives_nums (h : Nat) (l : List HAcc) (d : Dev) : (l.foldl (fun d a => d.rearrive h a) d).nums = d.nums :=
  Dev.foldl_nums (fun e a => e.rearrive_nums h a) l d

@[simp] theorem Dev.unblock_nums (h : Nat) : (d.unblock h).nums = d.nums := by
  unfold Dev.unblock
  exact Dev.rearrives_nums h _ _

/-! ### Fills and write-backs -/

@[simp] theorem Dev.fillWord_nums (h k j : Nat) (need : Bool) (tr : ReadTry) : (d.fillWord h k j need tr).nums = d.nums := by
  unfold Dev.fillWord
  split
  · rfl
  · dsimp only
    have hread := d.readWord_nums
    repeat' split
    all_goals simp_all

@[simp] theorem Dev.holdLine_nums (h l : Nat) : (d.holdLine h l).nums = d.nums := by
  unfold Dev.holdLine
  dsimp only
  split <;> rfl

@[simp] theorem Dev.fillGo_nums (h l : Nat) (tries : List ReadTry) (flt : CacheFault) :
    (d.fillGo h l tries flt).nums = d.nums := by
  unfold Dev.fillGo
  extract_lets d0 hf0
  have h0 : d0.nums = d.nums := by
    unfold d0
    split <;> simp
  rw [← h0]
  split
  · rfl
  · split
    · exact (Dev.unblock_nums _ _).trans ((Dev.rearrives_nums _ _ _).trans (Dev.setHalf_nums _ _ _))
    · extract_lets d1 d2 hf1 d3 reads rest d4 d5 d6 d7
      have h1 : d1.nums = d0.nums := Dev.foldl_nums (fun e j => e.fillWord_nums _ _ _ _ _) _ _
      have h3 : d3.nums = d1.nums := (Dev.setHalf_nums _ _ _).trans (Dev.bump_nums _ _ _)
      have h4 : d4.nums = d3.nums := Dev.foldl_nums (fun e a => e.applyHit_nums _ _ _) _ _
      have h5 : d5.nums = d4.nums := by
        unfold d5
        split <;> simp
      have h6 : d6.nums = d5.nums := by
        unfold d6
        split <;> simp
      have h7 : d7.nums = d6.nums := by
        refine Dev.foldl_nums (fun e a => ?_) _ _
        repeat' split
        all_goals simp
      rw [Dev.unblock_nums, h7, h6, h5, h4, h3, h1]

theorem Dev.writeBack_nums (c : CLine) (tries : List WriteTry) : (d.writeBack c tries).nums = d.nums := by
  unfold Dev.writeBack
  refine Dev.foldl_nums (fun e j => ?_) _ _
  split <;> simp

@[simp] theorem Dev.evictGo_nums (h l : Nat) (tries : List WriteTry) : (d.evictGo h l tries).nums = d.nums := by
  unfold Dev.evictGo
  split
  · rfl
  · simp [Dev.rearrives_nums, Dev.writeBack_nums]

theorem Dev.anyReads_nums (n : Nat) (d : Dev) : (d.anyReads n).1.nums = d.nums := by
  induction n generalizing d with
  | zero => rfl
  | succ n ih => exact (ih _).trans d.anyRead_nums

theorem Dev.anyWrites_nums (n : Nat) (d : Dev) : (d.anyWrites n).1.nums = d.nums := by
  induction n generalizing d with
  | zero => rfl
  | succ n ih => exact (ih _).trans d.anyWrite_nums

@[simp] theorem Dev.fillNow_nums (h l : Nat) : (d.fillNow h l).nums = d.nums := by
  unfold Dev.fillNow
  extract_lets d0
  have h0 : d0.nums = d.nums := by
    unfold d0
    split <;> simp
  exact (Dev.fillGo_nums _ _ _ _ _).trans ((Dev.anyFault_nums _).trans ((Dev.anyReads_nums 4 d0).trans h0))

@[simp] theorem Dev.evictNow_nums (h l : Nat) : (d.evictNow h l).nums = d.nums := by
  unfold Dev.evictNow
  extract_lets d0
  have h0 : d0.nums = d.nums := by
    unfold d0
    split <;> simp
  exact (Dev.evictGo_nums _ _ _ _).trans ((Dev.anyWrites_nums 4 d0).trans h0)

theorem Dev.settle_nums (h l n : Nat) (d : Dev) : (d.settle h l n).nums = d.nums := by
  induction n generalizing d with
  | zero => rfl
  | succ n ih =>
    unfold Dev.settle
    dsimp only
    repeat' split
    all_goals simp [ih]

/-! ### The stipes' accesses -/

@[simp] theorem Dev.settleFor_nums (x h l : Nat) : (d.settleFor x h l).nums = d.nums := by
  unfold Dev.settleFor
  split
  · rfl
  · exact Dev.settle_nums h l 40 d

@[simp] theorem Dev.homeWhole_nums (a : HAcc) : (d.homeWhole a).nums = d.nums := by
  unfold Dev.homeWhole
  dsimp only
  split <;> simp

@[simp] theorem Dev.stipeAcc_nums (a : HAcc) : (d.stipeAcc a).1.nums = d.nums := by
  unfold Dev.stipeAcc Dev.takeGr
  exact (Dev.endXfer_nums _ _).trans (Dev.homeWhole_nums _ _)

@[simp] theorem Dev.stipeWords_nums (a : Nat) (ws : List Word) : (d.stipeWords a ws).nums = d.nums :=
  d.stipeAcc_nums _

end Sys2Proof.Machine
end

section
/-! PROOF. How units end and are carried (02 R61, R64, 05 R165, R169). -/

namespace Sys2Proof.Machine

variable (d : Dev)

/-! ### The numbers of a plan's units (02 R48, R52) -/

/-- The units of a plan taken at device d, with their numbers. -/
def Dev.planUnits (p : Plan) : List WUnit :=
  ((List.range p.units.length).zip p.units).map (fun e =>
    { e.2 with key := d.nextU + e.1, origin := d.frame, originT := d.lastTick })

theorem Dev.planUnits_keys (p : Plan) : (d.planUnits p).map (·.key) = (List.range p.units.length).map (d.nextU + ·) := by
  rw [Dev.planUnits, List.map_map]
  calc _ = (((List.range p.units.length).zip p.units).map Prod.fst).map (d.nextU + ·) := by
        rw [List.map_map]
        rfl
    _ = _ := by rw [List.map_fst_zip (by simp)]

theorem Dev.takePlan_nums (i : Nat) (p : Plan) : (d.takePlan i p).nums =
    (d.nextU + p.units.length, d.units.map (·.key) ++ (List.range p.units.length).map (d.nextU + ·)) := by
  have h := d.stipeWords_nums (d.slotBase i) [pack [(p.seq, 0), (2, 24), (0, 26)]]
  simp only [Dev.nums, Prod.mk.injEq] at h
  obtain ⟨hn, hu⟩ := h
  unfold Dev.takePlan
  extract_lets w d1 us d2
  have hus : us = d1.planUnits p := rfl
  have hn1 : d1.nextU = d.nextU := hn
  have hu1 : d1.units.map (·.key) = d.units.map (·.key) := hu
  change (d1.nextU + p.units.length, (d1.units ++ us).map (·.key)) = _
  rw [List.map_append, hus, Dev.planUnits_keys, hn1, hu1]

theorem Dev.takePlan_fresh (i : Nat) (p : Plan) (hnd : (d.units.map (·.key)).Nodup) (hlt : ∀ u ∈ d.units, u.key < d.nextU) :
    ((d.takePlan i p).units.map (·.key)).Nodup ∧ ∀ u ∈ (d.takePlan i p).units, u.key < (d.takePlan i p).nextU := by
  have h := d.takePlan_nums i p
  simp only [Dev.nums, Prod.mk.injEq] at h
  obtain ⟨hn, hu⟩ := h
  have hold : ∀ k ∈ d.units.map (·.key), k < d.nextU := by simpa using hlt
  refine ⟨?_, fun u hm => ?_⟩
  · rw [hu, List.nodup_append']
    refine ⟨hnd, List.nodup_range.map (add_right_injective _), fun k hk hk' => ?_⟩
    obtain ⟨j, -, rfl⟩ := List.mem_map.mp hk'
    exact absurd (hold _ hk) (by omega)
  · have hk : u.key ∈ (d.takePlan i p).units.map (·.key) := List.mem_map_of_mem hm
    rw [hu, List.mem_append] at hk
    rw [hn]
    rcases hk with hk | hk
    · exact lt_of_lt_of_le (hold _ hk) (Nat.le_add_right _ _)
    · obtain ⟨j, hj, he⟩ := List.mem_map.mp hk
      rw [List.mem_range] at hj
      omega

/-! ### A program exception stops its unit (05 R165, R169) -/

/-- A unit afterwards, where every unit was changed and none got another number. -/
theorem Dev.unit_of_map {d e : Dev} {f : WUnit → WUnit} (h : e.units = d.units.map f) (hf : ∀ u, (f u).key = u.key) (k : Nat) :
    e.unit k = (d.unit k).map f := by
  simp only [Dev.unit, h, List.find?_map, Function.comp_def, hf]

theorem Dev.Recorded.unit {d e : Dev} (h : d.Recorded e) {k : Nat} {u : WUnit} (hu : d.unit k = some u) :
    ∃ seq, e.unit k = some { u with errSeq := seq } := by
  obtain ⟨seq, hs⟩ := h.units
  exact ⟨seq u, by rw [Dev.unit_of_map hs (fun _ => rfl), hu, Option.map_some]⟩

theorem Dev.unit_modUnit_same {k : Nat} {u : WUnit} {g : WUnit → WUnit} (hg : ∀ v, (g v).key = v.key)
    (hu : d.unit k = some u) : (d.modUnit k g).unit k = some (g u) := by
  have hk : u.key = k := by simpa using List.find?_some hu
  rw [d.unit_modUnit k k g hg, hu, Option.map_some, if_pos (by simpa using hk)]

/-- A unit that runs drains from here on, with one more ending. -/
theorem Dev.unit_stopUnit_running {k cause aux : Nat} {u : WUnit} (hu : d.unit k = some u) (hp : u.phase = 1) :
    (d.stopUnit k cause aux).unit k = some { u with phase := 2, stops := u.stops ++ [(cause, aux)] } := by
  have h := d.unit_modUnit_same (g := fun u => if u.phase == 1 || u.phase == 2 then
    { u with phase := 2, stops := u.stops ++ [(cause, aux)] } else u) (fun u => by split <;> rfl) hu
  rw [if_pos (by simp [hp])] at h
  unfold Dev.stopUnit
  split <;> exact h

theorem Dev.frondExc_unit {f code ip st : Nat} {u : WUnit} (hu : d.unit (d.frond f).unit = some u) (hp : u.phase = 1) :
    ∃ v, (d.frondExc f code ip st).unit (d.frond f).unit = some v ∧ v.phase = 2 ∧
      v.stops = (if u.stops.any (fun e => e.1 == 8) = true ∧ u.excAt ≤ (d.frond f).order then u.stops
        else u.stops.filter (fun e => e.1 != 8)) ++ [(8, code + ip * 2 ^ 8 + st * 2 ^ 22)] := by
  unfold Dev.frondExc Dev.frondExcAt
  extract_lets k aux first d1 d2
  have hfirst : first = !(u.stops.any (fun e => e.1 == 8) && decide (u.excAt ≤ (d.frond f).order)) := by
    unfold first
    rw [hu, Option.any_some]
  have hrec : d.Recorded d1 := (Dev.Recorded.inc (.refl d) _).trans (Dev.raise_recorded _ _ _)
  obtain ⟨seq, h1⟩ := hrec.unit hu
  by_cases hlater : u.stops.any (fun e => e.1 == 8) = true ∧ u.excAt ≤ (d.frond f).order
  · have hd2 : d2 = d1 := if_neg (by simp [hfirst, hlater])
    rw [if_pos hlater, hd2]
    exact ⟨_, Dev.unit_stopUnit_running _ h1 hp, rfl, rfl⟩
  · have hd2 : d2 = _ := if_pos (by
      rw [hfirst, Bool.not_eq_true', Bool.and_eq_false_iff, decide_eq_false_iff_not, ← Bool.not_eq_true]
      exact not_and_or.mp hlater)
    have h2 : d2.unit k = some { u with errSeq := seq, excAt := (d.frond f).order, stops := u.stops.filter (fun e => e.1 != 8) } := by
      rw [hd2]
      exact Dev.unit_modUnit_same d1 (g := fun u => { u with excAt := (d.frond f).order, stops := u.stops.filter (fun s => s.1 != 8) })
        (fun _ => rfl) h1
    rw [if_neg hlater]
    exact ⟨_, Dev.unit_stopUnit_running _ h2 hp, rfl, rfl⟩

/-! ### A unit ends COMPLETE (02 R64) -/

@[simp] theorem Dev.endGemmas_units (u : WUnit) : (d.endGemmas u).units = d.units :=
  List.foldlRecOn (motive := fun e : Dev => e.units = d.units) _ _ rfl (fun _ h _ _ => h)

@[simp] theorem Dev.endGemmas_endedQ (u : WUnit) : (d.endGemmas u).endedQ = d.endedQ :=
  List.foldlRecOn (motive := fun e : Dev => e.endedQ = d.endedQ) _ _ rfl (fun _ h _ _ => h)

/-- A unit as it ends (02 R64). -/
def WUnit.endAs (u : WUnit) (st cause aux now : Nat) : WUnit :=
  let unc := st == 1 || st == 3
  { u with phase := 3, state := st, cause := cause, ended := now
           aux := if cause == 8 || cause == 9 || cause == 10 then BitVec.ofNat 32 aux
             else u.stashAux.getD (BitVec.ofNat 32 aux)
           uncertain := if unc then u.touched else 0#8
           uncertainOther := unc && u.touchedOther }

/-- The device at which a unit's ending is entered: writes in flight count where the ending is not COMPLETE. -/
def Dev.endBase (k st : Nat) : Dev := if st == 1 || st == 3 then d.touchInFlight k else d

theorem Dev.endUnitAs_units {k : Nat} {u : WUnit} (hu : d.unit k = some u) (hp : u.phase ≠ 3) (st cause aux : Nat) :
    (d.endUnitAs k st cause aux).units =
      (d.endBase k st).units.map (fun v => if v.key == k then v.endAs st cause aux (d.endBase k st).now else v) ∧
    (d.endUnitAs k st cause aux).endedQ = (d.endBase k st).endedQ ++ [k] := by
  unfold Dev.endUnitAs
  rw [hu]
  dsimp only
  rw [if_neg (by simpa using hp)]
  split
  · exact ⟨rfl, rfl⟩
  · split
    · exact ⟨Dev.endGemmas_units _ _, Dev.endGemmas_endedQ _ _⟩
    · exact ⟨rfl, rfl⟩

theorem Dev.endUnit_complete {k : Nat} {u : WUnit} (hu : d.unit k = some u) (hp : u.phase ≠ 3) :
    (d.endUnit k 0 0 0).unit k = some (u.endAs 0 0 0 d.now) ∧ (d.endUnit k 0 0 0).endedQ = d.endedQ ++ [k] := by
  have hk : u.key = k := by simpa using List.find?_some hu
  obtain ⟨hus, hq⟩ := d.endUnitAs_units hu hp 0 0 0
  have hkey (v : WUnit) : (if v.key == k then v.endAs 0 0 0 d.now else v).key = v.key := by split <;> rfl
  refine ⟨?_, hq⟩
  change (d.endUnitAs k 0 0 0).unit k = _
  rw [Dev.unit_of_map (d := d) hus hkey, hu, Option.map_some]
  exact congrArg some (if_pos (by simpa using hk))

/-! ### What is carried over a tick (02 R60, R61) -/

/-- From d to e units have ended and none has come back, and no unit's number or carries have changed. -/
def Dev.Ends (d e : Dev) : Prop := ∃ f : WUnit → WUnit, e.units = d.units.map f ∧
  ∀ u, (f u).key = u.key ∧ (f u).carried = u.carried ∧ (u.phase = 3 → (f u).phase = 3)

/-- Every unit of number k has ended. -/
def Dev.Ended (d : Dev) (k : Nat) : Prop := ∀ u ∈ d.units, u.key = k → u.phase = 3

theorem Dev.Ends.of_units {d e : Dev} (h : e.units = d.units) : d.Ends e :=
  ⟨id, by rw [h, List.map_id], fun _ => ⟨rfl, rfl, id⟩⟩

theorem Dev.Ends.refl (d : Dev) : d.Ends d := .of_units rfl

theorem Dev.Ends.trans {d e e' : Dev} (h : d.Ends e) (h' : e.Ends e') : d.Ends e' := by
  obtain ⟨f, hf, hfu⟩ := h
  obtain ⟨g, hg, hgu⟩ := h'
  refine ⟨g ∘ f, by rw [hg, hf, List.map_map], fun u => ?_⟩
  obtain ⟨hk, hc, hp⟩ := hfu u
  obtain ⟨hk', hc', hp'⟩ := hgu (f u)
  exact ⟨hk'.trans hk, hc'.trans hc, hp' ∘ hp⟩

theorem Dev.Ends.foldl {α : Type} {f : Dev → α → Dev} (hf : ∀ (e : Dev) a, e.Ends (f e a)) (l : List α) (d : Dev) :
    d.Ends (l.foldl f d) :=
  List.foldlRecOn (motive := fun e : Dev => d.Ends e) l f (.refl d) (fun e h a _ => h.trans (hf e a))

theorem Dev.Ends.keys {d e : Dev} (h : d.Ends e) : e.units.map (·.key) = d.units.map (·.key) := by
  obtain ⟨f, hf, hfu⟩ := h
  rw [hf, List.map_map]
  exact List.map_congr_left fun u _ => (hfu u).1

/-- A unit that has not ended had not ended before. -/
theorem Dev.Ends.live {d e : Dev} (h : d.Ends e) {v : WUnit} (hv : v ∈ e.units) (hp : v.phase ≠ 3) :
    ∃ u ∈ d.units, u.key = v.key ∧ u.carried = v.carried ∧ u.phase ≠ 3 := by
  obtain ⟨f, hf, hfu⟩ := h
  rw [hf] at hv
  obtain ⟨u, hu, rfl⟩ := List.mem_map.mp hv
  obtain ⟨hk, hc, hp'⟩ := hfu u
  exact ⟨u, hu, hk.symm, hc.symm, fun h3 => hp (hp' h3)⟩

theorem Dev.Ends.ended {d e : Dev} (h : d.Ends e) {k : Nat} (hd : d.Ended k) : e.Ended k := by
  intro v hv hk
  by_contra hp
  obtain ⟨u, hu, huk, -, hup⟩ := h.live hv hp
  exact hup (hd u hu (huk.trans hk))

theorem Dev.markTouch_ends (k a : Nat) : d.Ends (d.markTouch k a) := by
  refine ⟨_, Dev.modUnit_units _ _ _, fun u => ?_⟩
  dsimp only
  repeat' split
  all_goals exact ⟨rfl, rfl, id⟩

theorem Dev.endBase_ends (k st : Nat) : d.Ends (d.endBase k st) := by
  unfold Dev.endBase Dev.touchInFlight
  split
  · exact .foldl (fun e x => .foldl (fun (e : Dev) i => e.markTouch_ends _ _) _ e) _ d
  · exact .refl d

theorem Dev.endUnitAs_ends (k st cause aux : Nat) : d.Ends (d.endUnitAs k st cause aux) := by
  rcases hu : d.unit k with _ | u
  · simpa [Dev.endUnitAs, hu] using Dev.Ends.refl d
  · by_cases hp : u.phase = 3
    · simpa [Dev.endUnitAs, hu, hp] using Dev.Ends.refl d
    · refine (d.endBase_ends k st).trans ⟨_, (d.endUnitAs_units hu hp st cause aux).1, fun v => ?_⟩
      split
      · exact ⟨rfl, rfl, fun _ => rfl⟩
      · exact ⟨rfl, rfl, id⟩

theorem Dev.endUnitAs_ended (hnd : (d.units.map (·.key)).Nodup) (k st cause aux : Nat) :
    (d.endUnitAs k st cause aux).Ended k := by
  rcases hu : d.unit k with _ | u
  · intro v hv hk
    have hnone : d.endUnitAs k st cause aux = d := by simp [Dev.endUnitAs, hu]
    rw [hnone] at hv
    exact absurd hk (by simpa using List.find?_eq_none.mp hu v hv)
  · have hmem : u ∈ d.units := List.mem_of_find?_eq_some hu
    have hk : u.key = k := by simpa using List.find?_some hu
    by_cases hp : u.phase = 3
    · intro v hv hvk
      have hsame : d.endUnitAs k st cause aux = d := by simp [Dev.endUnitAs, hu, hp]
      rw [hsame] at hv
      rw [List.inj_on_of_nodup_map hnd hv hmem (hvk.trans hk.symm), hp]
    · intro v hv hvk
      rw [(d.endUnitAs_units hu hp st cause aux).1] at hv
      obtain ⟨w, -, rfl⟩ := List.mem_map.mp hv
      split at hvk
      next h => rw [if_pos h]; rfl
      next h => exact absurd hvk (by simpa using h)

theorem Dev.tickEnd_ends (u : WUnit) (cause : Nat) : d.Ends (d.tickEnd u cause) := by
  unfold Dev.tickEnd
  split <;> exact d.endUnitAs_ends _ _ _ _

theorem Dev.tickEnd_ended (hnd : (d.units.map (·.key)).Nodup) (u : WUnit) (cause : Nat) : (d.tickEnd u cause).Ended u.key := by
  unfold Dev.tickEnd
  split <;> exact d.endUnitAs_ended hnd _ _ _ _

theorem Dev.tickEnds_ended (cause : Nat) (l : List WUnit) (d : Dev) (hnd : (d.units.map (·.key)).Nodup) :
    ∀ u ∈ l, (l.foldl (fun d u => d.tickEnd u cause) d).Ended u.key := by
  induction l generalizing d with
  | nil => simp
  | cons a l ih =>
    intro u hu
    have hends : (d.tickEnd a cause).Ends (l.foldl (fun d u => d.tickEnd u cause) (d.tickEnd a cause)) :=
      .foldl (fun e v => e.tickEnd_ends v cause) l _
    rcases List.mem_cons.mp hu with rfl | hu
    · exact hends.ended (d.tickEnd_ended hnd u cause)
    · exact ih _ ((d.tickEnd_ends a cause).keys ▸ hnd) u hu

theorem Dev.depFail_ends (n : Nat) (d : Dev) : d.Ends (d.depFail n) := by
  induction n generalizing d with
  | zero => exact .refl d
  | succ n ih =>
    unfold Dev.depFail
    dsimp only
    split
    · exact .refl d
    · exact (Dev.Ends.foldl (fun e k => e.endUnitAs_ends k 2 4 0) _ d).trans (ih _)

/-- The units that have not ended. -/
def Dev.live : List WUnit := d.units.filter (fun u => u.phase != 3)

theorem Dev.mem_live (u : WUnit) : u ∈ d.live ↔ u ∈ d.units ∧ u.phase ≠ 3 := by simp [Dev.live]

/-- Those of them that are not carried yet, in the order in which they may be (02 R61). -/
def Dev.newLive : List WUnit := (d.live.filter (fun u => u.carried == 0)).mergeSort (fun a b => decide (a.key ≤ b.key))

/-- The device once the units that may not be carried over the tick have ended (02 R61). -/
def Dev.tickDrop : Dev :=
  ((d.newLive.drop (512 - (d.live.filter (fun u => 0 < u.carried)).length)).foldl (fun d u => d.tickEnd u 3) d).depFail
    d.units.length

theorem Dev.tickDrop_ends : d.Ends d.tickDrop :=
  (Dev.Ends.foldl (fun e u => e.tickEnd_ends u 3) _ d).trans (Dev.depFail_ends _ _)

theorem Dev.tickCarry_units : d.tickCarry.units =
    d.tickDrop.units.map (fun u => if u.phase != 3 then { u with carried := u.carried + 1 } else u) := rfl

/-- The units that may be carried over the tick: those carried before and, up to 512 in all, the first of the others. -/
def Dev.mayCarry : List WUnit :=
  d.live.filter (fun u => 0 < u.carried) ++ d.newLive.take (512 - (d.live.filter (fun u => 0 < u.carried)).length)

theorem Dev.length_mayCarry (hold : (d.live.filter (fun u => 0 < u.carried)).length ≤ 512) : d.mayCarry.length ≤ 512 := by
  rw [Dev.mayCarry, List.length_append, List.length_take]
  omega

/-- A unit in hand may be carried or is one of those that the tick drops. -/
theorem Dev.mem_mayCarry_or_drop {u : WUnit} (hu : u ∈ d.live) : u ∈ d.mayCarry ∨
    u ∈ d.newLive.drop (512 - (d.live.filter (fun u => 0 < u.carried)).length) := by
  by_cases hc : 0 < u.carried
  · exact .inl (List.mem_append_left _ (List.mem_filter.mpr ⟨hu, by simpa using hc⟩))
  · have hnew : u ∈ d.newLive := List.mem_mergeSort.mpr (List.mem_filter.mpr ⟨hu, by simpa using hc⟩)
    rw [← List.take_append_drop (512 - (d.live.filter (fun u => 0 < u.carried)).length) d.newLive, List.mem_append] at hnew
    exact hnew.imp_left (List.mem_append_right _)

/-- What the tick leaves has the number of a unit that may be carried. -/
theorem Dev.tickDrop_live_key (hnd : (d.units.map (·.key)).Nodup) {v : WUnit} (hv : v ∈ d.tickDrop.live) :
    ∃ u ∈ d.mayCarry, u.key = v.key := by
  obtain ⟨hv, hp⟩ := (Dev.mem_live _ v).mp hv
  obtain ⟨u, hu, huk, -, hup⟩ := d.tickDrop_ends.live hv hp
  rcases d.mem_mayCarry_or_drop ((d.mem_live u).mpr ⟨hu, hup⟩) with hkeep | hdrop
  · exact ⟨u, hkeep, huk⟩
  · exact absurd ((Dev.depFail_ends _ _).ended (Dev.tickEnds_ended 3 _ d hnd u hdrop) v hv huk.symm) hp

/-- At most 512 units are left to carry, for their numbers differ (02 R61). -/
theorem Dev.tickDrop_live (hnd : (d.units.map (·.key)).Nodup)
    (hold : (d.live.filter (fun u => 0 < u.carried)).length ≤ 512) : d.tickDrop.live.length ≤ 512 := by
  have hkeys : (d.tickDrop.live.map (·.key)).Nodup :=
    (d.tickDrop_ends.keys ▸ hnd).sublist (List.filter_sublist.map _)
  have hsub : d.tickDrop.live.map (·.key) ⊆ d.mayCarry.map (·.key) := by
    intro k hk
    obtain ⟨v, hv, rfl⟩ := List.mem_map.mp hk
    exact List.mem_map.mpr (d.tickDrop_live_key hnd hv)
  have hlen := (hkeys.subperm hsub).length_le
  rw [List.length_map, List.length_map] at hlen
  exact hlen.trans (d.length_mayCarry hold)

theorem Dev.tickCarry_live : (d.tickCarry.units.filter (fun u => u.phase != 3)).length = d.tickDrop.live.length := by
  rw [Dev.tickCarry_units, List.filter_map, List.length_map, Dev.live]
  congr 2
  funext u
  simp only [Function.comp_apply]
  split <;> rfl

theorem Dev.tickCarry_carried {u : WUnit} (hu : u ∈ d.tickCarry.units) (hp : u.phase ≠ 3) : 0 < u.carried := by
  rw [Dev.tickCarry_units] at hu
  obtain ⟨v, -, rfl⟩ := List.mem_map.mp hu
  split at hp
  next h => rw [if_pos h]; exact Nat.succ_pos _
  next h => exact absurd hp (by simpa using h)

end Sys2Proof.Machine

open Sys2Proof Machine

/-- Settles O17: an exception leaves the unit with its one entry of cause 8 (`Dev.frondExc_unit`); the units that a tick leaves
carry the numbers of those carried before and of the first of the others (`Dev.tickDrop_live`); and no access that takes a plan
changes the numbers in hand (`Dev.takePlan_nums`). -/
theorem unitEndingsAndCarries : Obligations.UnitEndingsAndCarries := by
  refine ⟨fun d f code ip st u hu hp => d.frondExc_unit hu hp, fun d k u hu hp => ?_, fun d hnd hold => ?_,
    fun d i p hnd hlt => d.takePlan_fresh i p hnd hlt⟩
  · obtain ⟨hend, hq⟩ := d.endUnit_complete hu hp
    exact ⟨⟨_, hend, rfl, rfl, rfl, rfl, rfl, rfl⟩, hq⟩
  · refine ⟨?_, fun u hu hp => d.tickCarry_carried hu hp⟩
    rw [Dev.tickCarry_live]
    refine d.tickDrop_live hnd ?_
    simpa [Dev.live, List.filter_filter, and_comm, Bool.and_comm] using hold

end

section
/-! SUPPORT. What follows a step (log 21): where a part of `Dev.finish` finds nothing to do, it leaves the module as it is. -/

namespace Sys2Proof.Machine

/-- A fold whose every step leaves its start as it is ends there. -/
theorem foldl_eq_init {α β : Type} {f : β → α → β} {b : β} {l : List α} (h : ∀ a ∈ l, f b a = b) : l.foldl f b = b :=
  List.foldlRecOn (motive := (· = b)) l f rfl fun e he a ha => by subst he; exact h a ha

variable {d : Dev}

/-- No run is in progress, so none stops with its unit (06 R210). -/
theorem Dev.runStops_of_idle (h : ∀ e ∈ d.fronds, (d.frond e.1).att.running = false) : d.runStops = d :=
  foldl_eq_init fun e he => by simp [h e he]

/-- No transfer is a port's, so no piece of one is passed over. -/
theorem Dev.portSkip_of_own (h : ∀ x ∈ d.xfers, x.mid < 0x910) : d.portSkip = d :=
  if_pos (List.all_eq_true.2 fun x hx => decide_eq_true (h x hx))

/-- No transfer is remote, so none leaves. -/
theorem Dev.pumpRemote_of_local (h : ∀ x ∈ d.xfers, x.remote = none) : d.pumpRemote = d := by
  have hnone : d.xfers.filter (fun x => x.remote.isSome) = [] := List.filter_eq_nil_iff.2 fun x hx => by simp [h x hx]
  rw [Dev.pumpRemote, hnone, List.foldl_nil]

/-- No port holds a request for room, so none is tried again (11 R385). -/
theorem Dev.forwardHeld_of_none (h : ∀ p < 6, (d.port p).held = []) : d.forwardHeld = d :=
  foldl_eq_init fun p hp => by simp only [h p (List.mem_range.1 hp)]

/-- Every receive buffer is still needed, so none is freed (11 R365). -/
theorem Dev.freeBufs_of_busy (h : ∀ e ∈ d.ports, ∀ q ∈ e.2.bufReq ++ e.2.bufCpl, e.2.busy q = true) : d.freeBufs = d :=
  if_pos (List.all_eq_true.2 fun e he => List.all_eq_true.2 (h e he))

/-- No reset waits, so none begins (15 R497). -/
theorem Dev.rstFollow_of_none (h : d.bup.resets = []) : d.rstFollow = d := by
  rw [Dev.rstFollow, h, List.filter_nil, List.foldl_nil]

/-- Neither a double fault nor a stop of a port takes anything down (16 R513). -/
theorem Dev.stops_of_none (hdouble : d.err.double = false) (h : ∀ p < 6, d.portStopped p = false) : d.stops = d := by
  have hnone : (List.range 6).filter d.portStopped = [] :=
    List.filter_eq_nil_iff.2 fun p hp => by simp [h p (List.mem_range.1 hp)]
  simp only [Dev.stops, hdouble, Bool.false_eq_true, if_false, hnone, List.foldl_nil]

/-- ALERT_N shows its condition already (16 R516). -/
theorem Dev.alertPin_of_shown (h : d.alerting = d.pin.alert) : d.alertPin = d :=
  if_pos (beq_iff_eq.2 h)

end Sys2Proof.Machine

open Sys2Proof Machine

/-- Settles O5: each part of what follows a step finds nothing to do, in the order in which the parts come. -/
theorem settledModuleRests : Obligations.SettledModuleRests := by
  intro d h
  rw [Dev.finish, h.powered, Dev.runStops_of_idle h.runs, Dev.portSkip_of_own fun x hx => (h.xfers x hx).2,
    Dev.pumpRemote_of_local fun x hx => (h.xfers x hx).1, Dev.forwardHeld_of_none fun p hp => h.held ⟨p, hp⟩,
    Dev.freeBufs_of_busy h.bufs, Dev.rstFollow_of_none h.resets, Dev.stops_of_none h.double fun p hp => h.ports ⟨p, hp⟩,
    Dev.alertPin_of_shown h.alert]
  rfl

end

section
/-! SUPPORT. Bits of granules, and the bytes that a word's cells list (08 R260, R261). -/

namespace Sys2Proof

open Machine

variable {α : Type}

/-- With rising keys a filter acts on each entry by itself. -/
theorem SMap.find_filter_of_rising {m : SMap α} (h : SMap.rising m = true) (p : Nat × α → Bool) (k : Nat) :
    SMap.find (m.filter p : SMap α) k = (SMap.find m k).filter (fun a => p (k, a)) := by
  ext a
  rw [SMap.find_eq_some_iff (SMap.rising_filter h p), Option.filter_eq_some_iff, SMap.find_eq_some_iff h, List.mem_filter]

/-- A key below every listed one is not listed. -/
theorem SMap.find_eq_none_of_lt {m : SMap α} {k : Nat} (h : ∀ e ∈ m, k < e.1) : SMap.find m k = none := by
  induction m with
  | nil => rfl
  | cons e m ih =>
    obtain ⟨i, b⟩ := e
    have hk : i ≠ k := (h _ List.mem_cons_self).ne'
    rw [SMap.find, if_neg hk, ih fun e he => h e (List.mem_cons_of_mem _ he)]

/-- A full list of rising keys lists key j at place j. -/
theorem SMap.keys_eq_range {m : SMap α} {n : Nat} (h : SMap.rising m = true) (hlt : ∀ e ∈ m, e.1 < n) (hlen : m.length = n) :
    m.map Prod.fst = List.range n := by
  have hsort : (m.map Prod.fst).Pairwise (· < ·) := List.pairwise_map.2 ((SMap.rising_iff m).1 h)
  have hsub : m.map Prod.fst ⊆ List.range n := fun k hk => by
    obtain ⟨e, he, rfl⟩ := List.mem_map.1 hk
    exact List.mem_range.2 (hlt e he)
  have hperm : (m.map Prod.fst).Perm (List.range n) :=
    (List.Nodup.subperm (hsort.imp ne_of_lt) hsub).perm_of_length_le (by simp [hlen])
  exact hperm.eq_of_pairwise (fun a b _ _ hab hba => absurd hba hab.not_gt) hsort List.pairwise_lt_range

theorem SMap.getElem?_of_full {m : SMap α} {n k : Nat} (h : SMap.rising m = true) (hlt : ∀ e ∈ m, e.1 < n) (hlen : m.length = n) :
    (m.map Prod.snd)[k]? = SMap.find m k := by
  have hkeys := SMap.keys_eq_range h hlt hlen
  by_cases hk : k < n
  · obtain ⟨⟨i, a⟩, he⟩ : ∃ e, m[k]? = some e := ⟨_, List.getElem?_eq_getElem (hlen.symm ▸ hk)⟩
    obtain rfl : i = k := by simpa [he, hk] using congrArg (·[k]?) hkeys
    rw [(SMap.find_eq_some_iff h i a).2 (List.mem_of_getElem? he), List.getElem?_map, he]
    rfl
  · have hnone : SMap.find m k = none := Option.eq_none_iff_forall_ne_some.2 fun a ha =>
      hk (hlt _ ((SMap.find_eq_some_iff h k a).1 ha))
    rw [hnone, List.getElem?_eq_none (by simpa [hlen] using hk)]

end Sys2Proof

namespace Sys2Proof.Machine

/-- A number written out in bytes, the first lowest, bit by bit. -/
theorem testBit_foldr_bytes {α : Type} {f : α → Nat} (hf : ∀ a, f a < 256) (l : List α) (k : Nat) :
    (l.foldr (fun b a => a * 256 + f b) 0).testBit k = (l[k / 8]?).elim false (fun b => (f b).testBit (k % 8)) := by
  induction l generalizing k with
  | nil => simp
  | cons b l ih =>
    rw [List.foldr_cons, Nat.mul_comm, Nat.testBit_two_pow_mul_add (i := 8) _ (hf b)]
    by_cases hk : k < 8
    · simp [hk, Nat.div_eq_of_lt hk, Nat.mod_eq_of_lt hk]
    · obtain ⟨j, rfl⟩ := Nat.exists_eq_add_of_le (Nat.not_lt.1 hk)
      rw [if_neg hk, Nat.add_sub_cancel_left, ih, Nat.add_mod_left, Nat.add_comm 8 j, Nat.add_div_right j (by decide),
        List.getElem?_cons_succ]

theorem testBit_spread {n k : Nat} (m : Nat) (hk : k / 8 < n) : (spread n m).testBit k = m.testBit (k / 8) := by
  rw [spread, testBit_foldr_bytes (fun i => by split <;> decide), List.getElem?_range hk, Option.elim_some]
  split
  case isTrue h => rw [h, show 255 = 2 ^ 8 - 1 from rfl, Nat.testBit_two_pow_sub_one, decide_eq_true (Nat.mod_lt _ (by decide))]
  case isFalse h => rw [Nat.zero_testBit, Bool.eq_false_of_not_eq_true h]

/-- A bit of a merge comes from the side that the mask's bit for its byte says. -/
theorem getLsbD_gMerge (old new : Gran) (m : BitVec 64) {k : Nat} (hk : k < 512) :
    (gMerge old new m).getLsbD k = if m.getLsbD (k / 8) = true then new.getLsbD k else old.getLsbD k := by
  have hs : (BitVec.ofNat 512 (spread 64 m.toNat)).getLsbD k = m.getLsbD (k / 8) := by
    rw [BitVec.getLsbD_ofNat, decide_eq_true hk, Bool.true_and, testBit_spread _ (by omega), BitVec.getLsbD]
  simp only [gMerge, BitVec.getLsbD_or, BitVec.getLsbD_and, BitVec.getLsbD_not, hs, decide_eq_true hk]
  cases m.getLsbD (k / 8) <;> simp

@[simp] theorem gMerge_fullMask (old new : Gran) : gMerge old new fullMask = new :=
  BitVec.eq_of_getLsbD_eq fun k hk => by
    rw [getLsbD_gMerge _ _ _ hk, fullMask, BitVec.getLsbD_allOnes, decide_eq_true (by omega), if_pos rfl]

theorem getLsbD_gByte (g : Gran) (i : Nat) {j : Nat} (hj : j < 8) : (gByte g i).getLsbD j = g.getLsbD (8 * i + j) := by
  rw [gByte, BitVec.getLsbD_ofNat, bitsAt_testBit, decide_eq_true hj, Bool.true_and, Bool.true_and, Nat.add_comm, BitVec.getLsbD]

theorem getLsbD_byteMask_one {i j : Nat} (hj : j < 64) : (byteMask i 1).getLsbD j = decide (i = j) := by
  rw [byteMask, BitVec.getLsbD_ofNat, decide_eq_true hj, Bool.true_and, Nat.pow_one, Nat.one_mul, Nat.testBit_two_pow]

/-- A byte merged in at its own place: its bits there, and the others as they were. -/
theorem getLsbD_gMerge_byte (g : Gran) (b : Byte) (i : Nat) {k : Nat} (hk : k < 512) :
    (gMerge g (BitVec.ofNat 512 (b.toNat * 2 ^ (8 * i))) (byteMask i 1)).getLsbD k =
      if i = k / 8 then b.getLsbD (k % 8) else g.getLsbD k := by
  simp only [getLsbD_gMerge _ _ _ hk, getLsbD_byteMask_one (show k / 8 < 64 by omega), decide_eq_true_eq]
  refine ite_congr rfl (fun h => ?_) fun _ => rfl
  rw [BitVec.getLsbD_ofNat, decide_eq_true hk, Bool.true_and, Nat.testBit_mul_two_pow, decide_eq_true (by omega), Bool.true_and,
    BitVec.getLsbD]
  congr 1
  omega

end Sys2Proof.Machine
end

section
/-! SUPPORT. A word of memory by its bytes: what a read finds, and what a write and stored poison leave (08 R260-R262). -/

namespace Sys2Proof.Machine

/-! ### The bytes of a word -/

theorem find_wordCells (m : List Host.Cell) (w : Nat) {i : Nat} (hi : i < 64) :
    SMap.find (wordCells m w) i = SMap.find m (64 * w + i) := by
  induction m with
  | nil => rfl
  | cons c m ih =>
    obtain ⟨a, b⟩ := c
    by_cases ha : a / 64 = w
    · have hcons : wordCells ((a, b) :: m) w = (a % 64, b) :: wordCells m w := by simp [wordCells, ha]
      rw [hcons, SMap.find, SMap.find, ih]
      exact if_congr (by omega) rfl rfl
    · have hskip : wordCells ((a, b) :: m) w = wordCells m w := by simp [wordCells, ha]
      rw [hskip, ih, SMap.find, if_neg (by omega)]

theorem wordCells_lt {m : List Host.Cell} {w : Nat} : ∀ e ∈ wordCells m w, e.1 < 64 := fun e he => by
  obtain ⟨c, -, rfl⟩ := List.mem_map.1 he
  exact Nat.mod_lt _ (by decide)

theorem wordCells_rising {m : List Host.Cell} (h : SMap.rising m = true) (w : Nat) : SMap.rising (wordCells m w) = true := by
  refine (SMap.rising_iff _).2 (List.pairwise_map.2 ?_)
  refine (((SMap.rising_iff m).1 h).filter _).imp_of_mem fun {a b} ha hb hab => ?_
  have hqa : a.1 / 64 = w := by simpa using (List.mem_filter.1 ha).2
  have hqb : b.1 / 64 = w := by simpa using (List.mem_filter.1 hb).2
  show a.1 % 64 < b.1 % 64
  omega

/-- Bytes merged into a word one by one: each that is listed shows. -/
theorem getLsbD_foldl_gMerge {cs : SMap Byte} (h : SMap.rising cs = true) (base : Gran) {k : Nat} (hk : k < 512) :
    (cs.foldl (fun g c => gMerge g (BitVec.ofNat 512 (c.2.toNat * 2 ^ (8 * c.1))) (byteMask c.1 1)) base).getLsbD k =
      (SMap.find cs (k / 8)).elim (base.getLsbD k) (·.getLsbD (k % 8)) := by
  induction cs generalizing base with
  | nil => rfl
  | cons c cs ih =>
    obtain ⟨i, b⟩ := c
    obtain ⟨hlt, hrest⟩ := List.pairwise_cons.1 ((SMap.rising_iff _).1 h)
    rw [List.foldl_cons, ih ((SMap.rising_iff cs).2 hrest), getLsbD_gMerge_byte _ _ _ hk, SMap.find]
    by_cases hi : i = k / 8
    · rw [if_pos hi, if_pos hi, SMap.find_eq_none_of_lt (hi ▸ hlt)]
      rfl
    · rw [if_neg hi, if_neg hi]

/-- What the bytes of a word that no cell lists read (08 R261, R263). -/
def Dev.blank (d : Dev) (w : Nat) : Gran :=
  if (d.under w).zero then 0#512 else Config.unwrittenWord (d.under w).epoch w

/-- A word reads, byte by byte, what its cells list, and what lies under them elsewhere. -/
theorem Dev.getLsbD_rawWord {d : Dev} (h : SMap.rising d.mem.cells = true) (w : Nat) {k : Nat} (hk : k < 512) :
    (d.rawWord w).getLsbD k = (d.cell (64 * w + k / 8)).elim ((d.blank w).getLsbD k) (·.getLsbD (k % 8)) := by
  have hrise := wordCells_rising h w
  rw [Dev.cell, ← find_wordCells _ _ (show k / 8 < 64 by omega), Dev.rawWord]
  by_cases hlen : (wordCells d.mem.cells w).length = 64
  · have hk' : k / 8 < (wordCells d.mem.cells w).length := by omega
    rw [← SMap.getElem?_of_full hrise wordCells_lt hlen]
    simp only [hlen, beq_self_eq_true, if_true, gOfBytes, BitVec.getLsbD_ofNat, decide_eq_true hk, Bool.true_and,
      testBit_foldr_bytes (fun b : Byte => b.isLt), List.getElem?_map, List.getElem?_eq_getElem hk', Option.map_some, Option.elim_some]
    rfl
  · simp only [beq_eq_false_iff_ne.2 hlen, Bool.false_eq_true, if_false, getLsbD_foldl_gMerge hrise _ hk]
    rfl

/-- Words with the same cells over the same ground read the same. -/
theorem Dev.rawWord_congr {d e : Dev} {w : Nat} (hd : SMap.rising d.mem.cells = true) (he : SMap.rising e.mem.cells = true)
    (hu : e.under w = d.under w) (hc : ∀ i < 64, e.cell (64 * w + i) = d.cell (64 * w + i)) : e.rawWord w = d.rawWord w :=
  BitVec.eq_of_getLsbD_eq fun k hk => by
    rw [getLsbD_rawWord hd w hk, getLsbD_rawWord he w hk, hc _ (by omega), blank, blank, hu]

/-! ### Stored poison -/

section
variable (d : Dev) (w : Nat)

theorem Dev.stored_storePoison_self : (d.storePoison w).stored w = true := by simp [Dev.stored, Dev.storePoison]

theorem Dev.stored_storePoison_ne {v : Nat} (h : v ≠ w) : (d.storePoison w).stored v = d.stored v := by
  simp [Dev.stored, Dev.storePoison, h]

theorem Dev.cell_storePoison_ne {a : Nat} (h : a / 64 ≠ w) : (d.storePoison w).cell a = d.cell a := by
  refine (SMap.find_filter d.mem.cells (fun k => k / 64 != w) a).trans (if_pos ?_)
  simpa using h

end

/-! ### Data -/

/-- A masked write of a word lists the bytes of its mask. -/
theorem find_putWord_word (m : List Host.Cell) (w : Nat) (g : Gran) (mask : BitVec 64) {i : Nat} (hi : i < 64) :
    SMap.find (putWord m w g mask) (64 * w + i) =
      if mask.getLsbD i = true then some (gByte g i) else SMap.find m (64 * w + i) := by
  have hfold (n : Nat) : SMap.find ((List.range n).foldl (fun m i =>
      if mask.getLsbD i then putByte m (64 * w + i) (gByte g i) else m) m) (64 * w + i) =
        if i < n ∧ mask.getLsbD i = true then some (gByte g i) else SMap.find m (64 * w + i) := by
    induction n with
    | zero => rfl
    | succ n ih =>
      rw [List.range_succ, List.foldl_append, List.foldl_cons, List.foldl_nil]
      by_cases hin : i = n
      · subst hin
        by_cases hm : mask.getLsbD i = true
        · simp [hm, putByte]
        · simp [hm, ih]
      · have hlt : i < n + 1 ↔ i < n := by omega
        simp only [hlt, ← ih]
        split
        · exact SMap.find_put_ne _ _ (by omega)
        · rfl
  rw [putWord, hfold 64]
  simp only [hi, true_and]

theorem filter_true {α : Type} (o : Option α) : o.filter (fun _ => true) = o := by
  cases o <;> rfl

section
variable (d : Dev) (w : Nat) (g : Gran) (mask : BitVec 64)

theorem Dev.stored_storeWord_self : (d.storeWord w g mask).stored w = false := by
  simp [Dev.stored, Dev.storeWord, SMap.find_drop]

theorem Dev.stored_storeWord_ne {v : Nat} (h : v ≠ w) : (d.storeWord w g mask).stored v = d.stored v := by
  simp [Dev.stored, Dev.storeWord, SMap.find_drop, h]

variable {d} (hr : SMap.rising d.mem.cells = true)
include hr

/-- The cells of a word after a write: those of the mask, less the zeros that would read so unlisted. -/
theorem Dev.cell_storeWord (a : Nat) : (d.storeWord w g mask).cell a =
    (SMap.find (putWord d.mem.cells w g mask) a).filter (fun b => !((d.under w).zero && (a / 64 == w && b == 0#8))) := by
  simp only [Dev.cell, Dev.storeWord]
  split
  case isTrue hz =>
    rw [SMap.find_filter_of_rising (putWord_rising hr w g mask), hz]
    simp
  case isFalse hz => simp [hz, filter_true]

theorem Dev.cell_storeWord_ne {a : Nat} (h : a / 64 ≠ w) : (d.storeWord w g mask).cell a = d.cell a := by
  rw [Dev.cell_storeWord w g mask hr, find_putWord _ _ _ h, beq_eq_false_iff_ne.2 h]
  simp [Dev.cell, filter_true]

omit hr in
/-- A listed zero reads as an unlisted byte of a word that reads 0 where nothing is listed. -/
theorem Dev.elim_unlisted_zeros (o : Option Byte) (k : Nat) :
    (o.filter (fun b => !((d.under w).zero && b == 0#8))).elim ((d.blank w).getLsbD k) (·.getLsbD (k % 8)) =
      o.elim ((d.blank w).getLsbD k) (·.getLsbD (k % 8)) := by
  by_cases hz : (d.under w).zero = true
  · cases o with
    | none => rfl
    | some b => by_cases hb : b = 0#8 <;> simp [Dev.blank, hz, hb, Option.filter]
  · simp [hz, filter_true]

/-- A word reads, after a write, its old bytes with those of the mask replaced. -/
theorem Dev.rawWord_storeWord (hr' : SMap.rising (d.storeWord w g mask).mem.cells = true) :
    (d.storeWord w g mask).rawWord w = gMerge (d.rawWord w) g mask := by
  refine BitVec.eq_of_getLsbD_eq fun k hk => ?_
  have hi : k / 8 < 64 := by omega
  have hbyte : (gByte g (k / 8)).getLsbD (k % 8) = g.getLsbD k := by
    rw [getLsbD_gByte _ _ (Nat.mod_lt _ (by decide)), Nat.div_add_mod]
  have hblank : (d.storeWord w g mask).blank w = d.blank w := rfl
  rw [getLsbD_rawWord hr' w hk, getLsbD_gMerge _ _ _ hk, getLsbD_rawWord hr w hk, hblank, Dev.cell_storeWord w g mask hr,
    find_putWord_word _ _ _ _ hi, Dev.cell, show (64 * w + k / 8) / 64 = w by omega]
  simp only [beq_self_eq_true, Bool.true_and, Dev.elim_unlisted_zeros]
  split
  · exact hbyte
  · rfl

end

end Sys2Proof.Machine
end

section
/-! SUPPORT. What an access to a bank leaves of the module: all but the books of banks and rhizoids, the records, the counters and
the units in hand, and the word that it writes (08 R260-R273). -/

namespace Sys2Proof.Machine

/-- The device without the books of its banks and rhizoids, its records, its counters and its units. -/
def Dev.bare (d : Dev) : Dev :=
  { d with mem := { d.mem with banks := [], rtlog := [], rthead := 0 }, rhz := [], err := {}, stat := {}, units := [] }

section
variable {d e : Dev} (h : e.bare = d.bare)
include h

theorem Dev.cells_of_bare : e.mem.cells = d.mem.cells := congrArg (·.mem.cells) h
theorem Dev.poison_of_bare : e.mem.poison = d.mem.poison := congrArg (·.mem.poison) h
theorem Dev.fronds_of_bare : e.fronds = d.fronds := congrArg (·.fronds) h
theorem Dev.gemmas_of_bare : e.gemmas = d.gemmas := congrArg (·.gemmas) h
theorem Dev.regs_of_bare : e.regs = d.regs := congrArg (·.regs) h
theorem Dev.inForce_of_bare : e.inForce = d.inForce := congrArg (·.inForce) h
theorem Dev.halves_of_bare : e.halves = d.halves := congrArg (·.halves) h
theorem Dev.xfers_of_bare : e.xfers = d.xfers := congrArg (·.xfers) h
theorem Dev.stored_of_bare (w : Nat) : e.stored w = d.stored w := by
  change e.bare.stored w = d.bare.stored w
  rw [h]
theorem Dev.cell_of_bare (a : Nat) : e.cell a = d.cell a := by
  change e.bare.cell a = d.bare.cell a
  rw [h]
theorem Dev.rawWord_of_bare (w : Nat) : e.rawWord w = d.rawWord w := by
  change e.bare.rawWord w = d.bare.rawWord w
  rw [h]
theorem Dev.wf_of_bare : Memory.wf e = Memory.wf d := by
  change Memory.wf e.bare = Memory.wf d.bare
  rw [h]

end

variable (d : Dev)

/-! ### The updates of the books -/

@[simp] theorem Dev.setBank_bare (b : Nat) (x : Bank) : (d.setBank b x).bare = d.bare := rfl
@[simp] theorem Dev.setRhz_bare (f : Nat) (x : Rhz) : (d.setRhz f x).bare = d.bare := rfl
@[simp] theorem Dev.bump_bare (c n : Nat) : (d.bump c n).bare = d.bare := rfl
@[simp] theorem Dev.inc_bare (c : Nat) : (d.inc c).bare = d.bare := rfl
@[simp] theorem Dev.markPoison_bare (k a : Nat) : (d.markPoison k a).bare = d.bare := rfl
@[simp] theorem Dev.noteLanes_bare (path : Nat) (lanes : List Nat) (w : Nat) : (d.noteLanes path lanes w).bare = d.bare := rfl

@[simp] theorem Dev.raise_bare (s : Nat) (r : ErrRec) : (d.raise s r).bare = d.bare := by
  obtain ⟨err, stat, seq, h⟩ := d.raise_recorded r s
  rw [h]
  rfl

theorem Dev.foldl_bare {α : Type} {f : Dev → α → Dev} (hf : ∀ e a, (f e a).bare = e.bare) (l : List α) (d : Dev) :
    (l.foldl f d).bare = d.bare :=
  List.foldlRecOn (motive := fun e : Dev => e.bare = d.bare) l f rfl (fun e h a _ => (hf e a).trans h)

@[simp] theorem Dev.openRow_bare (a : Nat) (rhz : Option Nat) : (d.openRow a rhz).bare = d.bare := by
  unfold Dev.openRow
  dsimp only
  split
  · rfl
  · cases rhz <;> rfl

@[simp] theorem Dev.queueRow_bare (a : Nat) : (d.queueRow a).bare = d.bare := by
  unfold Dev.queueRow
  dsimp only
  split
  · rfl
  · split <;> rfl

/-! ### Lanes -/

@[simp] theorem Dev.pendRhz_bare (f p : Nat) : (d.pendRhz f p).bare = d.bare := by
  unfold Dev.pendRhz
  dsimp only
  split <;> simp

@[simp] theorem Dev.pendOut_bare (f : Nat) : (d.pendOut f).bare = d.bare := by
  unfold Dev.pendOut
  dsimp only
  split <;> simp

@[simp] theorem Dev.unqueueLane_bare (f : Nat) (cc : Bool) (lane : Nat) : (d.unqueueLane f cc lane).bare = d.bare :=
  Dev.foldl_bare (fun e _ => e.setBank_bare _ _) _ d

@[simp] theorem Dev.laneFail_bare (f : Nat) (cc : Bool) (lane : Nat) : (d.laneFail f cc lane).bare = d.bare := by
  unfold Dev.laneFail
  dsimp only
  repeat' split
  all_goals simp

@[simp] theorem Dev.laneRule_bare (cc : Bool) (w : Nat) (bytes : BitVec 64) : (d.laneRule cc w bytes).bare = d.bare := by
  unfold Dev.laneRule
  refine (Dev.foldl_bare (fun e l => ?_) _ _).trans (d.noteLanes_bare _ _ _)
  dsimp only
  split <;> simp

/-! ### Rows copied and mapped -/

@[simp] theorem Dev.mapRow_bare (b r k : Nat) : (d.mapRow b r k).bare = d.bare :=
  Dev.raise_bare _ _ _

end Sys2Proof.Machine
end

section
/-! SUPPORT. A bank's reads and writes (08 R260, R262, R264, R266, R273). -/

namespace Sys2Proof.Machine

variable (d : Dev) (w : Nat)

/-! ### Reads -/

section
variable (port : RdPort) (tr : ReadTry)

/-- A read changes books only. -/
@[simp] theorem Dev.readWord_bare : (d.readWord w port tr).1.bare = d.bare := by
  unfold Dev.readWord
  dsimp only
  repeat' split
  all_goals simp

variable {d}

theorem Dev.openRow_cases (d : Dev) (a : Nat) (rhz : Option Nat) : ∃ banks stat,
    d.openRow a rhz = { d with mem := { d.mem with banks := banks }, stat := stat } := by
  unfold Dev.openRow
  dsimp only
  split
  · exact ⟨_, _, rfl⟩
  · cases rhz <;> exact ⟨_, _, rfl⟩

@[simp] theorem Dev.openRow_failMask (a : Nat) (rhz : Option Nat) :
    (d.openRow a rhz).failMask w port tr = d.failMask w port tr := by
  obtain ⟨banks, stat, h⟩ := d.openRow_cases a rhz
  rw [h]
  rfl

/-- Stored poison is read at once (08 R260). -/
theorem Dev.readWord_stored (h : d.stored w = true) : (d.readWord w port tr).2 = (0#512, true) := by
  have hs (p : Option Nat) := (Dev.stored_of_bare (d.openRow_bare (w * 64) p) w).trans h
  simp only [Dev.readWord, hs, if_true]

/-- Bytes that fail after both retries make a poisoned read (08 R264). -/
theorem Dev.readWord_failed (h : d.stored w = false) (hm : d.failMask w port tr ≠ 0#64) :
    (d.readWord w port tr).2 = (0#512, true) := by
  have hs (p : Option Nat) := (Dev.stored_of_bare (d.openRow_bare (w * 64) p) w).trans h
  simp [Dev.readWord, hs, hm]

/-- A read that a retry or the first attempt answers has the word's data (08 R264). -/
theorem Dev.readWord_read (h : d.stored w = false) (hm : d.failMask w port tr = 0#64) :
    (d.readWord w port tr).2 = (d.rawWord w, false) := by
  have hs (p : Option Nat) := (Dev.stored_of_bare (d.openRow_bare (w * 64) p) w).trans h
  have hr (p : Option Nat) := Dev.rawWord_of_bare (d.openRow_bare (w * 64) p) w
  simp only [Dev.readWord, hs, Dev.openRow_failMask, hm, hr, bne_self_eq_false, Bool.false_eq_true, if_false]
  cases tr <;> rfl

/-- A read that the first attempt answers opens its row, and that is all. -/
theorem Dev.readWord_good (h : d.stored w = false) (hm : d.failMask w port .good = 0#64) :
    (d.readWord w port .good).1 = d.openRow (w * 64) (if port == .rhizoid then some (partOf (w * 64)) else none) := by
  have hs (p : Option Nat) := (Dev.stored_of_bare (d.openRow_bare (w * 64) p) w).trans h
  simp only [Dev.readWord, hs, Dev.openRow_failMask, hm, bne_self_eq_false, Bool.false_eq_true, if_false]

end

/-! ### Writes -/

section
variable (g : Gran) (mask : BitVec 64) (pois : Bool) (tr : WriteTry) (k : Nat) (cc : Option Bool)

/-- The bytes of a write that a failed lane still carries (08 R273). -/
def Dev.lostBytes : BitVec 64 :=
  (match cc with
    | some c => (d.rhiz (partOf (w * 64))).deadBytes c w
    | none => 0#64) &&& mask

theorem Dev.writeFate_of_intact (h : d.lostBytes w mask cc = 0#64) : d.writeFate w mask tr cc = tr :=
  if_pos (beq_iff_eq.2 h)

theorem Dev.writeFate_of_lost (h : d.lostBytes w mask cc ≠ 0#64) : ∃ b, d.writeFate w mask tr cc = .failed b := by
  refine Exists.imp (fun b hb => (if_neg fun e => h (beq_iff_eq.1 e)).trans hb) ?_
  cases tr <;> exact ⟨_, rfl⟩

/-- Every attempt at a write fails, for some byte of it (08 R266, R273). -/
def Dev.writeFails : Bool := match d.writeFate w mask tr cc with
  | .failed _ => true
  | _ => false

theorem Dev.writeFails_of_lost (h : d.lostBytes w mask cc ≠ 0#64) : d.writeFails w mask tr cc = true := by
  obtain ⟨b, hb⟩ := d.writeFate_of_lost w mask tr cc h
  simp only [Dev.writeFails, hb]

theorem Dev.writeFails_failed (b : BitVec 64) : d.writeFails w mask (.failed b) cc = true := by
  by_cases h : d.lostBytes w mask cc = 0#64
  · simp only [Dev.writeFails, d.writeFate_of_intact w mask _ cc h]
  · exact d.writeFails_of_lost w mask _ cc h

theorem Dev.writeFails_of_intact (h : d.lostBytes w mask cc = 0#64) (htr : tr = .good ∨ tr = .resent) :
    d.writeFails w mask tr cc = false := by
  rw [Dev.writeFails, d.writeFate_of_intact w mask tr cc h]
  rcases htr with rfl | rfl <;> rfl

/-- The device with what a bank keeps of a write, before any book is kept. -/
def Dev.written : Dev :=
  if mask = 0#64 then d
  else if d.writeFails w mask tr cc || pois then d.storePoison w
  else if mask ≠ fullMask ∧ d.stored w = true then d
  else d.storeWord w g mask

@[simp] theorem Dev.openRow_writeFate (a : Nat) (rhz : Option Nat) :
    (d.openRow a rhz).writeFate w mask tr cc = d.writeFate w mask tr cc := by
  obtain ⟨banks, stat, h⟩ := d.openRow_cases a rhz
  rw [h]
  rfl

theorem Dev.storePoison_bare : (d.storePoison w).bare = d.bare.storePoison w := rfl

theorem Dev.storeWord_bare : (d.storeWord w g mask).bare = d.bare.storeWord w g mask := rfl

/-- A write changes books, and its word as a bank keeps it. -/
theorem Dev.writeWord_bare : (d.writeWord w g mask pois tr k cc).bare = (d.written w g mask pois tr cc).bare := by
  have hdata (e : Dev) (he : e.bare = d.bare) :
      (if pois then (e.storePoison w).markPoison k (w * 64)
        else if mask != fullMask && e.stored w then
          ((e.inc (cMod 15)).raise (d.stk (partOf (w * 64)))
            { cls := 1, kind := 5, src := bankOf (w * 64), code := 0x0703, addr := w * 64 }).markPoison k (w * 64)
        else e.storeWord w g mask).bare =
      (if pois then d.storePoison w else if mask ≠ fullMask ∧ d.stored w = true then d else d.storeWord w g mask).bare := by
    simp only [Dev.stored_of_bare he, Bool.and_eq_true, bne_iff_ne, apply_ite Dev.bare, Dev.storePoison_bare, Dev.storeWord_bare,
      Dev.markPoison_bare, Dev.raise_bare, Dev.inc_bare, he]
  unfold Dev.writeWord Dev.written Dev.writeFails
  simp only [Dev.openRow_writeFate, beq_iff_eq]
  by_cases hm : mask = 0#64
  · simp [hm]
  · simp only [if_neg hm]
    cases d.writeFate w mask tr cc with
    | failed b => cases cc <;> simp [Dev.storePoison_bare]
    | good => exact hdata _ (by simp)
    | resent => exact hdata _ (by simp)

/-! What a bank keeps of a write, case by case. -/

/-- A bank keeps nothing of a write, poison, or its data. -/
theorem Dev.written_cases : d.written w g mask pois tr cc = d ∨ d.written w g mask pois tr cc = d.storePoison w ∨
    d.written w g mask pois tr cc = d.storeWord w g mask := by
  unfold Dev.written
  split_ifs <;> simp

section
variable {d w g mask pois tr cc}

theorem Dev.written_lost (hm : mask ≠ 0#64) (h : d.writeFails w mask tr cc = true ∨ pois = true) :
    d.written w g mask pois tr cc = d.storePoison w := by
  rw [Dev.written, if_neg hm, if_pos (by simpa using h)]

theorem Dev.written_discarded (hf : d.writeFails w mask tr cc = false) (hp : pois = false) (hs : d.stored w = true)
    (hm : mask ≠ fullMask) : d.written w g mask pois tr cc = d := by
  simp [Dev.written, hf, hp, hs, hm]

theorem Dev.written_stored (hm : mask ≠ 0#64) (hf : d.writeFails w mask tr cc = false) (hp : pois = false)
    (hs : d.stored w = false ∨ mask = fullMask) : d.written w g mask pois tr cc = d.storeWord w g mask := by
  rw [Dev.written, if_neg hm, hf, hp, if_neg (by decide), if_neg (by rcases hs with h | h <;> simp [h])]

theorem Dev.stored_written_ne {v : Nat} (hv : v ≠ w) : (d.written w g mask pois tr cc).stored v = d.stored v := by
  rcases d.written_cases w g mask pois tr cc with h | h | h <;> rw [h]
  · exact d.stored_storePoison_ne w hv
  · exact d.stored_storeWord_ne w g mask hv

theorem Dev.cell_written_ne (hr : SMap.rising d.mem.cells = true) {a : Nat} (ha : a / 64 ≠ w) :
    (d.written w g mask pois tr cc).cell a = d.cell a := by
  rcases d.written_cases w g mask pois tr cc with h | h | h <;> rw [h]
  · exact d.cell_storePoison_ne w ha
  · exact Dev.cell_storeWord_ne w g mask hr ha

theorem Dev.written_wf (hwf : Memory.wf d = true) : Memory.wf (d.written w g mask pois tr cc) = true := by
  rcases d.written_cases w g mask pois tr cc with h | h | h <;> rw [h]
  · exact hwf
  · exact Dev.storePoison_wf hwf w
  · exact Dev.storeWord_wf hwf w g mask

end

/-! What a write leaves, whatever its attempts come to. -/

theorem Dev.stored_writeWord_ne {v : Nat} (hv : v ≠ w) : (d.writeWord w g mask pois tr k cc).stored v = d.stored v :=
  (Dev.stored_of_bare (d.writeWord_bare w g mask pois tr k cc) v).trans (Dev.stored_written_ne hv)

variable {d} in
theorem Dev.writeWord_wf (hwf : Memory.wf d = true) : Memory.wf (d.writeWord w g mask pois tr k cc) = true :=
  (Dev.wf_of_bare (d.writeWord_bare w g mask pois tr k cc)).trans (Dev.written_wf hwf)

variable {d} in
theorem Dev.cell_writeWord_ne (hwf : Memory.wf d = true) {a : Nat} (ha : a / 64 ≠ w) :
    (d.writeWord w g mask pois tr k cc).cell a = d.cell a :=
  (Dev.cell_of_bare (d.writeWord_bare w g mask pois tr k cc) a).trans
    (Dev.cell_written_ne ((Memory.wf_iff d).1 hwf).1 ha)

variable {d} in
/-- Data that arrives whole, over no poison that stays, is stored: the word holds none, and reads as written (08 R260, R266). -/
theorem Dev.writeWord_stores (hwf : Memory.wf d = true) (hm : mask ≠ 0#64) (hf : d.writeFails w mask tr cc = false)
    (hs : d.stored w = false ∨ mask = fullMask) :
    (d.writeWord w g mask false tr k cc).stored w = false ∧
      (d.writeWord w g mask false tr k cc).rawWord w = gMerge (d.rawWord w) g mask := by
  have hb := d.writeWord_bare w g mask false tr k cc
  rw [Dev.written_stored hm hf rfl hs] at hb
  rw [Dev.stored_of_bare hb, Dev.rawWord_of_bare hb]
  exact ⟨d.stored_storeWord_self w g mask, Dev.rawWord_storeWord w g mask ((Memory.wf_iff d).1 hwf).1
    ((Memory.wf_iff _).1 (Dev.storeWord_wf hwf w g mask)).1⟩

end

end Sys2Proof.Machine
end

section
/-! SUPPORT. What a bank reads and keeps. -/

open Sys2Proof Sys2Proof.Machine

/-- Settles O34: stored poison, failing bytes and data are the three branches of a port's read, which changes books alone. -/
theorem bankReads : Obligations.BankReads := by
  intro d w port tr r
  have hb := d.readWord_bare w port tr
  exact ⟨Dev.readWord_stored w port tr, Dev.readWord_failed w port tr, Dev.readWord_read w port tr,
    Dev.cells_of_bare hb, Dev.poison_of_bare hb⟩

/-- Settles O35: a write leaves its word stored poison, as it was, or with the bytes of its mask (`Dev.written`), and books. -/
theorem bankWrites : Obligations.BankWrites := by
  intro d w g mask pois k cc hwf hm e lost
  have hpoison (tr) (h : d.writeFails w mask tr cc = true ∨ pois = true) : (e tr).stored w = true := by
    have hb := d.writeWord_bare w g mask pois tr k cc
    rw [Dev.written_lost hm h] at hb
    exact (Dev.stored_of_bare hb w).trans (d.stored_storePoison_self w)
  refine ⟨fun b => hpoison _ (.inl (d.writeFails_failed w mask cc b)),
    fun hlost tr => hpoison tr (.inl (d.writeFails_of_lost w mask tr cc hlost)), fun tr _ hp => hpoison tr (.inr hp),
    fun tr htr hp hs hfull => ?_, fun tr htr hlost hp hs => ?_,
    fun tr v hv => d.stored_writeWord_ne w g mask pois tr k cc hv, fun tr a ha => Dev.cell_writeWord_ne w g mask pois tr k cc hwf ha⟩
  · cases hf : d.writeFails w mask tr cc with
    | true => exact hpoison tr (.inl hf)
    | false =>
      have hb := d.writeWord_bare w g mask pois tr k cc
      rw [Dev.written_discarded hf hp hs hfull] at hb
      exact (Dev.stored_of_bare hb w).trans hs
  · subst hp
    exact Dev.writeWord_stores w g mask tr k cc hwf hm (d.writeFails_of_intact w mask tr cc hlost htr) hs

theorem Dev.copyRow_wf {d : Dev} (h : Memory.wf d = true) (b r : Nat) (bad : List Nat) : Memory.wf (d.copyRow b r bad) = true := by
  refine List.foldlRecOn (motive := fun e : Dev => Memory.wf e = true) _ _ h fun e he i _ => ?_
  dsimp only
  split
  · exact he
  · split
    · exact Dev.storePoison_wf he _
    · exact he

/-- Remapping a row stores poison for words that fail, and changes books (08 R268, R269). -/
theorem Dev.remapRow_wf {d : Dev} (h : Memory.wf d = true) (b r : Nat) (bad : List Nat) : Memory.wf (d.remapRow b r bad) = true := by
  have hcopy := Dev.copyRow_wf h b r bad
  unfold Dev.remapRow
  dsimp only
  split
  · refine (Dev.wf_of_bare (d := d) ?_).trans h
    split <;> simp
  · refine (Dev.wf_of_bare (d := d.copyRow b r bad) ?_).trans hcopy
    split <;> simp

theorem Dev.refresh_wf {d : Dev} (h : Memory.wf d = true) (b t : Nat) : Memory.wf (d.refresh b t) = true := by
  unfold Dev.refresh
  extract_lets i bk interval d1
  split
  · exact h
  · exact (Memory.wf_congr rfl rfl rfl rfl rfl).trans h

/-- Settles O36: reads and refresh change books, writes and remapping store one word at a time in canonical form. -/
theorem banksKeepForm : Obligations.BanksKeepForm := fun d h =>
  ⟨fun w port tr => (Dev.wf_of_bare (d.readWord_bare w port tr)).trans h,
    fun w g mask pois tr k cc => Dev.writeWord_wf w g mask pois tr k cc h, Dev.remapRow_wf h, Dev.refresh_wf h⟩
end

section
/-! SUPPORT. The end of a frozen master's drain (03 R90, R96), and a bank's refresh (08 R257). -/

namespace Sys2Proof.Machine

variable {d : Dev}

/-! ### Drains -/

/-- Raising a record changes neither windows, memory nor the cache. -/
theorem Dev.raise_keeps (d : Dev) (s : Nat) (r : ErrRec) :
    (d.raise s r).win = d.win ∧ (d.raise s r).mem = d.mem ∧ (d.raise s r).halves = d.halves := by
  obtain ⟨err, stat, seq, h⟩ := d.raise_recorded r s
  rw [h]
  exact ⟨rfl, rfl, rfl⟩

/-- The freeze log with the entry of drain r latched at its head, and the drain gone (03 R96). -/
def SecWin.latched (w : SecWin) (m : Nat) (r : Drain) : SecWin :=
  { w with
    drains := w.drains.eraseP (fun x => x.mid == m)
    log := (((w.log.put (4 * w.logHead) (pack [(r.mid, 0), (r.kind, 12), (r.wset, 16), (b2n (!r.free), 30), (1, 31)])).put
      (4 * w.logHead + 1) (BitVec.ofNat 32 (r.addr % 2 ^ 32))).put
      (4 * w.logHead + 2) (pack [(if 4 ≤ r.kind then 0 else r.addr / 2 ^ 32 % 256, 0), (r.lastCommit, 16)])).put
      (4 * w.logHead + 3) (BitVec.ofNat 32 (r.context % 2 ^ 32))
    logHead := (w.logHead + 1) % 32 }

theorem Dev.drainEnd_of_drained {m : Nat} {r : Drain} (hr : d.win.drains.find? (fun r => r.mid == m) = some r)
    (hx : d.xfers.any (fun x => x.mid == m) = false) :
    (d.drainEnd m).win = d.win.latched m r ∧ (d.drainEnd m).mem = d.mem ∧ (d.drainEnd m).halves = d.halves := by
  unfold Dev.drainEnd
  split
  case h_1 hnone => simp [hr] at hnone
  case h_2 r' hr' =>
    obtain rfl : r = r' := Option.some.inj (hr.symm.trans hr')
    rw [if_neg (Bool.eq_false_iff.1 hx)]
    extract_lets head lost log1 log2 log3 log4 w d1 d2 d3
    have h2 : d2.win = d1.win ∧ d2.mem = d1.mem ∧ d2.halves = d1.halves := by
      unfold d2
      split <;> exact ⟨rfl, rfl, rfl⟩
    have h3 : d3.win = d2.win ∧ d3.mem = d2.mem ∧ d3.halves = d2.halves := by
      unfold d3
      split <;> exact ⟨rfl, rfl, rfl⟩
    simp only [Dev.raise_keeps, h3, h2]
    exact ⟨rfl, rfl, rfl⟩

/-- The words of the entry that a drain latches. -/
theorem SecWin.latched_log (w : SecWin) (m : Nat) (r : Drain) :
    (w.latched m r).log.get (4 * w.logHead) 0#32 =
      pack [(r.mid, 0), (r.kind, 12), (r.wset, 16), (b2n (!r.free), 30), (1, 31)] ∧
    (w.latched m r).log.get (4 * w.logHead + 1) 0#32 = BitVec.ofNat 32 (r.addr % 2 ^ 32) ∧
    (w.latched m r).log.get (4 * w.logHead + 3) 0#32 = BitVec.ofNat 32 (r.context % 2 ^ 32) := by
  refine ⟨?_, ?_, ?_⟩ <;> simp [SecWin.latched]

/-! ### Refresh -/

/-- A bank refreshes once its interval has passed: one subarray's row closes, the next in turn (08 R257). -/
theorem Dev.refresh_due {b t : Nat}
    (h : 2 * (d.bank b).lastRef + (if (d.layer (d.layerOf (rowAddr b 0))).double = true then 15625 else 31250) ≤ 2 * t) :
    d.refresh b t = ((d.setBank b { d.bank b with
      openRow := (d.bank b).openRow.drop (d.bank b).nextSub
      nextSub := ((d.bank b).nextSub + 1) % 4
      lastRef := t
      refreshes := (d.bank b).refreshes + 1 }).inc (cLayer (d.layerOf (rowAddr b 0)))).upTo t :=
  if_neg (Nat.not_lt.2 h)

end Sys2Proof.Machine
end

section
/-! SUPPORT. A cache line word by word (09 R288): what each word's data and masks are once one word is replaced. -/

namespace Sys2Proof.Machine

/-- A field holds what replaced it. -/
theorem field_setField_self {m lo w : Nat} (v : BitVec m) (x : BitVec w) (h : lo + w ≤ m) :
    BitVec.ofNat w (bitsAt (setField v lo w x.toNat).toNat lo w) = x := by
  refine BitVec.eq_of_getLsbD_eq fun i hi => ?_
  rw [BitVec.getLsbD_ofNat, bitsAt_testBit, ← BitVec.getLsbD, getLsbD_setField v x.isLt (by omega), if_pos (by omega),
    Nat.add_sub_cancel]
  simp [hi, BitVec.getLsbD]

/-- A field keeps what it holds where another is replaced. -/
theorem field_setField_ne {m lo w lo' w' : Nat} (v : BitVec m) (x : BitVec w) (h : lo' + w' ≤ m)
    (hne : lo' + w' ≤ lo ∨ lo + w ≤ lo') : bitsAt (setField v lo w x.toNat).toNat lo' w' = bitsAt v.toNat lo' w' :=
  bitsAt_congr fun i h1 h2 => by
    rw [← BitVec.getLsbD, getLsbD_setField v x.isLt (by omega), if_neg (by omega), BitVec.getLsbD]

variable (c : CLine) (g : Gran) (v t : BitVec 64) (p : Bool) {j k : Nat} (hj : j < 4) (hk : k < 4)

@[simp] theorem CLine.line_setWord (j : Nat) : (c.setWord j g v t p).line = c.line := rfl

section
include hj

theorem CLine.word_setWord_self : (c.setWord j g v t p).word j = g :=
  field_setField_self c.data g (by omega)

theorem CLine.wValid_setWord_self : (c.setWord j g v t p).wValid j = v :=
  field_setField_self c.valid v (by omega)

theorem CLine.wDirty_setWord_self : (c.setWord j g v t p).wDirty j = t :=
  field_setField_self c.dirty t (by omega)

end

section
include hk

theorem CLine.word_setWord_ne (h : k ≠ j) : (c.setWord j g v t p).word k = c.word k :=
  congrArg (BitVec.ofNat 512) (field_setField_ne c.data g (by omega) (by omega))

theorem CLine.wValid_setWord_ne (h : k ≠ j) : (c.setWord j g v t p).wValid k = c.wValid k :=
  congrArg (BitVec.ofNat 64) (field_setField_ne c.valid v (by omega) (by omega))

theorem CLine.wDirty_setWord_ne (h : k ≠ j) : (c.setWord j g v t p).wDirty k = c.wDirty k :=
  congrArg (BitVec.ofNat 64) (field_setField_ne c.dirty t (by omega) (by omega))

end

/-- A way that holds a line holds its tag. -/
theorem Half.line_of_find {h : Half} {l k : Nat} {c : CLine} (hf : h.find l = some (k, c)) : c.line = l := by
  obtain ⟨w, -, hw⟩ := List.mem_filterMap.1 (List.mem_of_head? hf)
  split at hw
  · split at hw
    · cases hw
      exact eq_of_beq ‹_›
    · cases hw
  · cases hw

end Sys2Proof.Machine
end

section
/-! SUPPORT. A write-back that lands, word by word (09 R294, R295). -/

namespace Sys2Proof.Machine

variable (d : Dev)

/-! ### Lanes and other words after a write -/

@[simp] theorem Dev.openRow_rhz (a : Nat) (rhz : Option Nat) : (d.openRow a rhz).rhz = d.rhz := by
  obtain ⟨banks, stat, h⟩ := d.openRow_cases a rhz
  rw [h]

@[simp] theorem Dev.raise_rhz (s : Nat) (r : ErrRec) : (d.raise s r).rhz = d.rhz := by
  obtain ⟨err, stat, seq, h⟩ := d.raise_recorded r s
  rw [h]

@[simp] theorem Dev.inc_rhz (c : Nat) : (d.inc c).rhz = d.rhz := rfl
@[simp] theorem Dev.markPoison_rhz (k a : Nat) : (d.markPoison k a).rhz = d.rhz := rfl
@[simp] theorem Dev.storePoison_rhz (w : Nat) : (d.storePoison w).rhz = d.rhz := rfl
@[simp] theorem Dev.storeWord_rhz (w : Nat) (g : Gran) (m : BitVec 64) : (d.storeWord w g m).rhz = d.rhz := rfl

section
variable {d} {w : Nat} {mask : BitVec 64} {tr : WriteTry} {cc : Option Bool}

/-- A write that does not fail leaves the lanes as they were. -/
theorem Dev.writeWord_rhz (g : Gran) (pois : Bool) (k : Nat) (hf : d.writeFails w mask tr cc = false) :
    (d.writeWord w g mask pois tr k cc).rhz = d.rhz := by
  unfold Dev.writeFails at hf
  unfold Dev.writeWord
  simp only [Dev.openRow_writeFate]
  cases hfate : d.writeFate w mask tr cc with
  | failed b => simp [hfate] at hf
  | good | resent =>
    dsimp only
    split_ifs <;> simp

/-- A write touches no master, register, line or transfer. -/
theorem Dev.writeWord_keeps (d : Dev) (w : Nat) (g : Gran) (mask : BitVec 64) (pois : Bool) (tr : WriteTry) (k : Nat)
    (cc : Option Bool) : let e := d.writeWord w g mask pois tr k cc
    e.fronds = d.fronds ∧ e.gemmas = d.gemmas ∧ e.regs = d.regs ∧ e.halves = d.halves ∧ e.xfers = d.xfers := by
  have hb := d.writeWord_bare w g mask pois tr k cc
  dsimp only
  rw [Dev.fronds_of_bare hb, Dev.gemmas_of_bare hb, Dev.regs_of_bare hb, Dev.halves_of_bare hb, Dev.xfers_of_bare hb]
  rcases d.written_cases w g mask pois tr cc with h | h | h <;> rw [h] <;> exact ⟨rfl, rfl, rfl, rfl, rfl⟩

theorem Dev.rawWord_writeWord_ne (g : Gran) (pois : Bool) (k : Nat) (hwf : Memory.wf d = true) {v : Nat} (hv : v ≠ w) :
    (d.writeWord w g mask pois tr k cc).rawWord v = d.rawWord v := by
  have hunder : (d.written w g mask pois tr cc).under v = d.under v := by
    rcases d.written_cases w g mask pois tr cc with h | h | h <;> rw [h] <;> rfl
  have hr := ((Memory.wf_iff d).1 hwf).1
  rw [Dev.rawWord_of_bare (d.writeWord_bare w g mask pois tr k cc)]
  exact Dev.rawWord_congr hr ((Memory.wf_iff _).1 (Dev.written_wf hwf)).1 hunder fun i hi => Dev.cell_written_ne hr (by omega)

end

/-! ### The words of a line -/

/-- Word j of a line's write-back, where nothing fails. -/
def Dev.backWord (c : CLine) (j : Nat) : Dev :=
  if c.wDirty j == 0#64 then d else d.writeWord (c.line * 4 + j) (c.word j) (c.wDirty j) (c.wPois j) .good 0 (some true)

theorem Dev.writeBack_nil (c : CLine) : d.writeBack c [] = (List.range 4).foldl (fun e j => e.backWord c j) d := rfl

/-- Words below n of line c have been written back to e from d, and nothing else has changed in memory. -/
structure Dev.BackTo (d : Dev) (c : CLine) (n : Nat) (e : Dev) : Prop where
  wf : Memory.wf e = true
  rhz : e.rhz = d.rhz
  halves : e.halves = d.halves
  rest : ∀ j, n ≤ j → e.stored (4 * c.line + j) = d.stored (4 * c.line + j) ∧ e.rawWord (4 * c.line + j) = d.rawWord (4 * c.line + j)
  done : ∀ j < n, c.wPois j = false → c.wDirty j ≠ 0#64 → d.stored (4 * c.line + j) = false →
    e.rawWord (4 * c.line + j) = gMerge (d.rawWord (4 * c.line + j)) (c.word j) (c.wDirty j)
  cell : ∀ a, a / 256 ≠ c.line → e.cell a = d.cell a

variable {d}

theorem Dev.BackTo.start (hwf : Memory.wf d = true) (c : CLine) : d.BackTo c 0 d :=
  ⟨hwf, rfl, rfl, fun _ _ => ⟨rfl, rfl⟩, fun _ h => absurd h (Nat.not_lt_zero _), fun _ _ => rfl⟩

/-- The next word of a line is written back, where no failed lane carries a byte of it. -/
theorem Dev.BackTo.step {c : CLine} {n : Nat} {e : Dev} (h : d.BackTo c n e) (hn : n < 4)
    (hlost : d.lostBytes (4 * c.line + n) (c.wDirty n) (some true) = 0#64) : d.BackTo c (n + 1) (e.backWord c n) := by
  unfold Dev.backWord
  rw [Nat.mul_comm c.line]
  split
  case isTrue hclean =>
    refine ⟨h.wf, h.rhz, h.halves, fun j hj => h.rest j (by omega), fun j hj hp hd hs => ?_, h.cell⟩
    rcases Nat.lt_succ_iff_lt_or_eq.1 hj with hj | rfl
    · exact h.done j hj hp hd hs
    · exact absurd (eq_of_beq hclean) hd
  case isFalse hdirty =>
    have hd : c.wDirty n ≠ 0#64 := by simpa using hdirty
    have hfails : e.writeFails (4 * c.line + n) (c.wDirty n) .good (some true) = false := by
      refine e.writeFails_of_intact _ _ _ _ ?_ (.inl rfl)
      rw [← hlost, Dev.lostBytes, Dev.rhiz, h.rhz]
      rfl
    obtain ⟨-, -, -, hhalves, -⟩ := e.writeWord_keeps (4 * c.line + n) (c.word n) (c.wDirty n) (c.wPois n) .good 0 (some true)
    refine ⟨Dev.writeWord_wf _ _ _ _ _ _ _ h.wf, (Dev.writeWord_rhz _ _ _ hfails).trans h.rhz,
      hhalves.trans h.halves, fun j hj => ?_, fun j hj hp hdj hs => ?_, fun a ha => ?_⟩
    · obtain ⟨hs, hr⟩ := h.rest j (by omega)
      exact ⟨(e.stored_writeWord_ne _ _ _ _ _ _ _ (by omega)).trans hs, (Dev.rawWord_writeWord_ne _ _ _ h.wf (by omega)).trans hr⟩
    · rcases Nat.lt_succ_iff_lt_or_eq.1 hj with hj | rfl
      · exact (Dev.rawWord_writeWord_ne _ _ _ h.wf (by omega)).trans (h.done j hj hp hdj hs)
      · obtain ⟨hs', hr'⟩ := h.rest j le_rfl
        rw [hp, (Dev.writeWord_stores _ _ _ _ _ _ h.wf hd hfails (.inl (hs'.trans hs))).2, hr']
    · exact (Dev.cell_writeWord_ne _ _ _ _ _ _ _ h.wf (by omega)).trans (h.cell a ha)

/-- A line whose dirty bytes no failed lane carries is written back whole. -/
theorem Dev.writeBack_backTo (hwf : Memory.wf d = true) (c : CLine)
    (hlost : ∀ j < 4, d.lostBytes (4 * c.line + j) (c.wDirty j) (some true) = 0#64) : d.BackTo c 4 (d.writeBack c []) := by
  have hto (n : Nat) (hn : n ≤ 4) : d.BackTo c n ((List.range n).foldl (fun e j => e.backWord c j) d) := by
    induction n with
    | zero => exact .start hwf c
    | succ n ih =>
      rw [List.range_succ, List.foldl_append]
      exact (ih (by omega)).step hn (hlost n hn)
  rw [Dev.writeBack_nil]
  exact hto 4 le_rfl

end Sys2Proof.Machine
end

section
/-! SUPPORT. The end of a write-back and of a fill at their home half (09 R290, R295, R297). -/

namespace Sys2Proof.Machine

variable {d : Dev} {h l : Nat}

/-- From d to e nothing has changed but open rows, counters, lines and transfers. -/
def Dev.Served (d e : Dev) : Prop := ∃ banks stat halves xfers,
  e = { d with mem := { d.mem with banks := banks }, stat := stat, halves := halves, xfers := xfers }

theorem Dev.Served.refl (d : Dev) : d.Served d := ⟨_, _, _, _, rfl⟩

theorem Dev.Served.trans {e e' : Dev} (h : d.Served e) (h' : e.Served e') : d.Served e' := by
  obtain ⟨_, _, _, _, rfl⟩ := h
  obtain ⟨banks, stat, halves, xfers, rfl⟩ := h'
  exact ⟨banks, stat, halves, xfers, rfl⟩

theorem Dev.served_openRow (d : Dev) (a : Nat) (rhz : Option Nat) : d.Served (d.openRow a rhz) := by
  obtain ⟨banks, stat, h⟩ := d.openRow_cases a rhz
  exact ⟨banks, stat, d.halves, d.xfers, h⟩

theorem Dev.served_setHalf (d : Dev) (h : Nat) (x : Half) : d.Served (d.setHalf h x) := ⟨_, _, _, _, rfl⟩
theorem Dev.served_bump (d : Dev) (c n : Nat) : d.Served (d.bump c n) := ⟨_, _, _, _, rfl⟩

/-! ### Write-backs -/

/-- With nothing blocked, nothing arrives again. -/
theorem Dev.unblock_of_none (hb : (d.half h).blocked = []) : d.unblock h = d.setHalf h { d.half h with blocked := [] } := by
  simp only [Dev.unblock, hb, List.foldl_nil]

/-- A closed entry on which nothing waits is written back and freed. -/
theorem Dev.evictGo_closed {v : Evict} (hv : (d.half h).evicts.find? (fun e => e.cl.line == l && e.closed) = some v)
    (hw : v.waiters = []) (hb : (d.half h).blocked = []) (hhalves : (d.writeBack v.cl []).halves = d.halves) :
    ∃ stat halves, d.evictGo h l [] = { d.writeBack v.cl [] with stat := stat, halves := halves } ∧
      (halves.get h {}).evicts = (d.half h).evicts.filter (fun x => x.cl.line != l) ∧ (halves.get h {}).lines = (d.half h).lines := by
  have hhalf : ((d.writeBack v.cl []).bump (cHalf h 7) (dirtyBytes v.cl)).half h = d.half h := by
    simp only [Dev.half, Dev.bump_halves, hhalves]
  unfold Dev.evictGo
  simp only [hv, hw, List.foldl_nil, hhalf]
  rw [Dev.unblock_of_none (by simpa using hb)]
  exact ⟨_, _, rfl, by simp, by simp⟩

/-- No claim holds a word-line's access where none lies on it. -/
theorem Dev.evictLanded_unclaimed (hc : d.claimed (4 * l) = false) (tries : List WriteTry) :
    d.evictLanded h l tries = d.evictGo h l tries := by
  simp [Dev.evictLanded, Dev.claimHolds, hc]

/-! ### Fills -/

theorem Dev.fillReturn_unclaimed (hc : d.claimed (4 * l) = false) (tries : List ReadTry) (flt : CacheFault) :
    d.fillReturn h l tries flt = d.fillGo h l tries flt := by
  simp [Dev.fillReturn, Dev.fillHeld, Dev.claimHolds, hc]

/-- Word j of a line with the bytes that it lacked taken from g. -/
def CLine.filled (c : CLine) (j : Nat) (g : Gran) : CLine :=
  c.setWord j (gMerge g (c.word j) (c.wValid j)) fullMask (c.wDirty j) (c.wPois j)

/-- Line c' is line c with the bytes that its words below n lacked taken from those of raw. -/
structure CLine.FilledTo (c : CLine) (raw : Nat → Gran) (n : Nat) (c' : CLine) : Prop where
  line : c'.line = c.line
  done : ∀ j < n, c'.word j = gMerge (raw j) (c.word j) (c.wValid j) ∧ c'.wValid j = fullMask ∧ c'.wDirty j = c.wDirty j
  rest : ∀ j < 4, n ≤ j → c'.word j = c.word j ∧ c'.wValid j = c.wValid j ∧ c'.wDirty j = c.wDirty j

section
variable {c c' : CLine} {raw : Nat → Gran} {n : Nat}

theorem CLine.FilledTo.start (c : CLine) (raw : Nat → Gran) : c.FilledTo raw 0 c :=
  ⟨rfl, fun _ hj => absurd hj (Nat.not_lt_zero _), fun _ _ _ => ⟨rfl, rfl, rfl⟩⟩

/-- A word that lacks nothing is filled already. -/
theorem CLine.FilledTo.step_full (h : c.FilledTo raw n c') (hn : n < 4) (hv : c'.wValid n = fullMask) :
    c.FilledTo raw (n + 1) c' := by
  refine ⟨h.line, fun j hj => ?_, fun j h4 hj => h.rest j h4 (by omega)⟩
  rcases Nat.lt_succ_iff_lt_or_eq.1 hj with hj | rfl
  · exact h.done j hj
  · obtain ⟨hword, hvalid, hdirty⟩ := h.rest j hn le_rfl
    rw [← hvalid, hv, gMerge_fullMask]
    exact ⟨hword, rfl, hdirty⟩

theorem CLine.FilledTo.step_lacking (h : c.FilledTo raw n c') (hn : n < 4) :
    c.FilledTo raw (n + 1) (c'.filled n (raw n)) := by
  refine ⟨h.line, fun j hj => ?_, fun j h4 hj => ?_⟩
  · rcases Nat.lt_succ_iff_lt_or_eq.1 hj with hj | rfl
    · rw [CLine.filled, CLine.word_setWord_ne _ _ _ _ _ (by omega) hj.ne, CLine.wValid_setWord_ne _ _ _ _ _ (by omega) hj.ne,
        CLine.wDirty_setWord_ne _ _ _ _ _ (by omega) hj.ne]
      exact h.done j hj
    · obtain ⟨hword, hvalid, hdirty⟩ := h.rest j hn le_rfl
      rw [CLine.filled, CLine.word_setWord_self _ _ _ _ _ hn, CLine.wValid_setWord_self _ _ _ _ _ hn,
        CLine.wDirty_setWord_self _ _ _ _ _ hn, hword, hvalid]
      exact ⟨rfl, rfl, hdirty⟩
  · have hne : j ≠ n := by omega
    rw [CLine.filled, CLine.word_setWord_ne _ _ _ _ _ h4 hne, CLine.wValid_setWord_ne _ _ _ _ _ h4 hne,
      CLine.wDirty_setWord_ne _ _ _ _ _ h4 hne]
    exact h.rest j h4 (by omega)

end

section
variable {k j : Nat} {c : CLine} (hc : (d.half h).lines.find k = some c) (hs : d.stored (4 * c.line + j) = false)
include hc hs

/-- A word whose bytes are all VALID takes nothing from memory. -/
theorem Dev.fillWord_full (need : Bool) (tr : ReadTry) (hv : c.wValid j = fullMask) :
    d.fillWord h k j need tr = d.openRow (64 * (4 * c.line + j)) none := by
  rw [Nat.mul_comm 4] at *
  simp [Dev.fillWord, hc, hs, hv]

/-- A word that lacks bytes takes them from memory, where the first attempt answers. -/
theorem Dev.fillWord_lacking (need : Bool) (hm : d.failMask (4 * c.line + j) .channel .good = 0#64) (hv : c.wValid j ≠ fullMask) :
    d.fillWord h k j need .good =
      (d.openRow ((4 * c.line + j) * 64) none).setHalf h
        { (d.openRow ((4 * c.line + j) * 64) none).half h with
          lines := ((d.openRow ((4 * c.line + j) * 64) none).half h).lines.put k (c.filled j (d.rawWord (4 * c.line + j))) } := by
  have hread : d.readWord (4 * c.line + j) .channel .good =
      (d.openRow ((4 * c.line + j) * 64) none, d.rawWord (4 * c.line + j), false) :=
    Prod.ext (Dev.readWord_good _ .channel hs hm) (Dev.readWord_read _ .channel .good hs hm)
  rw [Nat.mul_comm 4] at *
  simp [Dev.fillWord, hc, hs, hv, hm, hread, CLine.filled]

end

/-- From d to e the words below n of the line in way k have been filled, and of memory only open rows have changed. -/
structure Dev.FilledTo (d : Dev) (h k : Nat) (c : CLine) (n : Nat) (e : Dev) : Prop where
  served : d.Served e
  fills : (e.half h).fills = (d.half h).fills
  blocked : (e.half h).blocked = (d.half h).blocked
  line : ∃ c', (e.half h).lines.find k = some c' ∧ c.FilledTo (fun j => d.rawWord (4 * c.line + j)) n c'

theorem Dev.FilledTo.start {k : Nat} {c : CLine} (hc : (d.half h).lines.find k = some c) : d.FilledTo h k c 0 d :=
  ⟨.refl d, rfl, rfl, c, hc, .start c _⟩

/-- An open row is no matter to what has been filled. -/
theorem Dev.FilledTo.openRow {k n : Nat} {c : CLine} {e : Dev} (he : d.FilledTo h k c n e) (a : Nat) :
    d.FilledTo h k c n (e.openRow a none) := by
  have hhalf : (e.openRow a none).half h = e.half h := by
    rw [Dev.half, Dev.halves_of_bare (e.openRow_bare a none), Dev.half]
  exact ⟨he.served.trans (e.served_openRow a none), hhalf ▸ he.fills, hhalf ▸ he.blocked, hhalf ▸ he.line⟩

theorem Dev.FilledTo.step {k n : Nat} {c : CLine} {e : Dev} (he : d.FilledTo h k c n e) (hn : n < 4)
    (hs : d.stored (4 * c.line + n) = false) (hm : d.failMask (4 * c.line + n) .channel .good = 0#64) (need : Bool) :
    d.FilledTo h k c (n + 1) (e.fillWord h k n need .good) := by
  obtain ⟨c', hc', hfilled⟩ := he.line
  obtain ⟨_, _, _, _, hserved⟩ := he.served
  have hs' : e.stored (4 * c'.line + n) = false := by rw [hfilled.line, hserved]; exact hs
  have hm' : e.failMask (4 * c'.line + n) .channel .good = 0#64 := by rw [hfilled.line, hserved]; exact hm
  have hraw : e.rawWord (4 * c'.line + n) = d.rawWord (4 * c.line + n) := by rw [hfilled.line, hserved]; rfl
  by_cases hv : c'.wValid n = fullMask
  · rw [Dev.fillWord_full hc' hs' need .good hv]
    exact Dev.FilledTo.openRow ⟨he.served, he.fills, he.blocked, c', hc', hfilled.step_full hn hv⟩ _
  · rw [Dev.fillWord_lacking hc' hs' need hm' hv, hraw]
    obtain ⟨hserved', hfills, hblocked, -⟩ := he.openRow ((4 * c'.line + n) * 64)
    refine ⟨hserved'.trans (Dev.served_setHalf _ _ _), ?_, ?_, _, ?_, hfilled.step_lacking hn⟩
    · rw [Dev.half_setHalf_self]; exact hfills
    · rw [Dev.half_setHalf_self]; exact hblocked
    · rw [Dev.half_setHalf_self]; exact SMap.find_put_self _ _ _

/-- The four words of a fill's line, none of which fails, are filled. -/
theorem Dev.fillWords_filledTo {k : Nat} {c : CLine} (hc : (d.half h).lines.find k = some c)
    (hclean : ∀ j < 4, d.stored (4 * c.line + j) = false ∧ d.failMask (4 * c.line + j) .channel .good = 0#64) (need : BitVec 4) :
    d.FilledTo h k c 4 ((List.range 4).foldl (fun e j => e.fillWord h k j (need.getLsbD j) (tryAt [] j)) d) := by
  have hto (n : Nat) (hn : n ≤ 4) :
      d.FilledTo h k c n ((List.range n).foldl (fun e j => e.fillWord h k j (need.getLsbD j) (tryAt [] j)) d) := by
    induction n with
    | zero => exact .start hc
    | succ n ih =>
      obtain ⟨hs, hm⟩ := hclean n hn
      rw [List.range_succ, List.foldl_append]
      exact (ih (by omega)).step hn hs hm _
  exact hto 4 le_rfl

/-! ### The read that waited -/

/-- A page's note of a clear seal bit is its transfer's. -/
theorem Dev.noteSeal_cases (d : Dev) (x w : Nat) : ∃ keep : Xfer → List Nat,
    d.noteSeal x w = d.modXfer x (fun e => { e with clear := keep e }) := by
  unfold Dev.noteSeal
  split
  · exact ⟨(·.clear), by simp [Dev.modXfer]⟩
  · refine ⟨fun e => if e.kind == .portRead && !e.clear.contains (w / 64) then w / 64 :: e.clear else e.clear, ?_⟩
    congr 1
    funext e
    dsimp only
    split_ifs <;> rfl

/-- A read that finds no ghost entry ends without a freeze (09 R302). -/
theorem Dev.finishRead_live (d : Dev) (a : HAcc) (st : Nat) (g : Gran) :
    d.finishRead a st g false = (d.finishGr a.x a.i st g).noteSeal a.x a.w := by
  unfold Dev.finishRead
  cases d.xfer a.x <;> rfl

theorem Dev.finishRead_served (d : Dev) (a : HAcc) (st : Nat) (g : Gran) :
    d.Served (d.finishRead a st g false) ∧ (d.finishRead a st g false).halves = d.halves := by
  obtain ⟨keep, hseal⟩ := (d.finishGr a.x a.i st g).noteSeal_cases a.x a.w
  rw [d.finishRead_live, hseal]
  exact ⟨⟨_, _, _, _, rfl⟩, rfl⟩

/-- A read is answered, and no line changes. -/
theorem Dev.serveRead_served (d : Dev) (a : HAcc) (pois unst : Bool) (g : Gran) :
    d.Served (d.serveRead a pois unst false g) ∧ (d.serveRead a pois unst false g).halves = d.halves := by
  unfold Dev.serveRead
  extract_lets st d1
  have h1 : d.Served d1 ∧ d1.halves = d.halves := by
    unfold d1
    split
    · exact ⟨d.served_bump _ _, rfl⟩
    · exact ⟨.refl d, rfl⟩
  obtain ⟨hserved, hhalves⟩ := d1.finishRead_served a st (if pois then 0#512 else g)
  exact ⟨h1.1.trans hserved, hhalves.trans h1.2⟩

/-- A read that hits, or finds its line gone, leaves the half's lines and entries. -/
theorem Dev.applyHit_read (d : Dev) (h : Nat) {a : HAcc} (ha : a.kind = 0) : d.Served (d.applyHit h a false) ∧
    ((d.applyHit h a false).half h).lines = (d.half h).lines ∧ ((d.applyHit h a false).half h).fills = (d.half h).fills ∧
    ((d.applyHit h a false).half h).blocked = (d.half h).blocked := by
  unfold Dev.applyHit
  simp only [ha, bne_self_eq_false, beq_self_eq_true, Bool.false_eq_true, if_false, if_true]
  split
  · exact ⟨.refl d, rfl, rfl, rfl⟩
  · rename_i k c _
    obtain ⟨hserved, hhalves⟩ := (d.setHalf h ((d.half h).touch k)).serveRead_served a (c.wPois (a.w % 4)) (d.unstableRead a)
      (c.word (a.w % 4))
    have hhalf : ((d.setHalf h ((d.half h).touch k)).serveRead a (c.wPois (a.w % 4)) (d.unstableRead a) false
        (c.word (a.w % 4))).half h = (d.half h).touch k := by
      rw [Dev.half, hhalves, ← Dev.half, Dev.half_setHalf_self]
    rw [hhalf]
    exact ⟨(d.served_setHalf h _).trans hserved, rfl, rfl, rfl⟩

/-- The end of a fill whose words are clean and on which one unmarked read waits (09 R297): it is freed, its line is filled, and
of memory only open rows have changed. -/
theorem Dev.fillGo_oneRead {f : Fill} {a : HAcc} {c : CLine} (hf : (d.half h).fills.find? (fun f => f.line == l) = some f)
    (hw : f.waiters = [a]) (ha : a.kind = 0) (hlu : a.lu = false) (hj : f.joined = 0) (hdead : f.dead = none)
    (hb : (d.half h).blocked = []) (hl : (d.half h).find l = some (f.way, c)) (hc : (d.half h).lines.find f.way = some c)
    (hclean : ∀ j < 4, d.stored (4 * c.line + j) = false ∧ d.failMask (4 * c.line + j) .channel .good = 0#64) :
    d.Served (d.fillGo h l [] .none) ∧ ((d.fillGo h l [] .none).half h).fills = (d.half h).fills.filter (fun x => x.line != l) ∧
      ∃ c', ((d.fillGo h l [] .none).half h).lines.find f.way = some c' ∧
        c.FilledTo (fun j => d.rawWord (4 * c.line + j)) 4 c' := by
  unfold Dev.fillGo
  extract_lets d0 hf0
  have h0 : d0 = d := by
    unfold d0
    split <;> rfl
  clear_value d0
  subst h0
  split
  case h_1 hnone => simp [hf0, hf] at hnone
  case h_2 f' hf' =>
    obtain rfl : f = f' := Option.some.inj (hf.symm.trans hf')
    rw [if_neg (by simp [hf0, hl])]
    extract_lets d1 d2 hf1 d3 reads rest d4 d5 d6 d7
    have h1 : d0.FilledTo h f.way c 4 d1 := Dev.fillWords_filledTo hc hclean f.need
    clear_value d1
    obtain ⟨c', hc', hfilled⟩ := h1.line
    have hreads : reads = [a] := by simp [reads, hw, ha]
    have hrest : rest = [] := by simp [rest, hw, ha]
    have h4 : d4 = d3.applyHit h a false := by simp [d4, hreads, hdead]
    have h7 : d7 = d4 := by simp [d7, hrest, d6, hreads, hlu, d5, hj]
    have h3 : d3.half h = ({ d1.half h with fills := (d1.half h).fills.filter (fun x => x.line != l) } : Half).touch f.way :=
      d2.half_setHalf_self h _
    have h3served : d0.Served d3 := h1.served.trans ((d1.served_bump _ _).trans (d2.served_setHalf h _))
    clear_value d7 d4 d3
    subst h7 h4
    obtain ⟨hserved, hlines, hfills, hblocked⟩ := d3.applyHit_read h ha
    rw [h3] at hlines hfills hblocked
    rw [Dev.unblock_of_none (hblocked.trans (h1.blocked.trans hb)), Dev.half_setHalf_self]
    exact ⟨(h3served.trans hserved).trans (Dev.served_setHalf _ h _), hfills.trans (congrArg (List.filter _) h1.fills), c',
      (congrArg (SMap.find · f.way) hlines).trans hc', hfilled⟩

end Sys2Proof.Machine
end

section
/-! SUPPORT. Fills, evictions and refresh. -/

open Sys2Proof Sys2Proof.Machine

/-- Settles O39: a fill by its four words (`CLine.FilledTo`), a write-back by its own (`Dev.BackTo`). -/
theorem fillsAndEvictions : Obligations.FillsAndEvictions := by
  intro s h l halive d hf
  refine ⟨fun f a c hfill hw hkind _ hlu hj hdead hb hl hc _ hclean hclaim => ?_, ?_, fun v hv hw hb hwf hclaim hlost => ?_,
    fun b t hdue => ?_⟩
  · obtain rfl : c.line = l := Half.line_of_find hl
    obtain ⟨⟨banks, stat, halves, xfers, hserved⟩, hfills, c', hc', hfilled⟩ :=
      Dev.fillGo_oneRead hfill hw hkind hlu hj hdead hb hl hc hclean
    refine ⟨_, c', exec_devRow (act := fun d => d.fillReturn h c.line [] .none) rfl halive (Dev.fillReturn_unclaimed hclaim _ _),
      hfills, hc', hfilled.line, hfilled.done, ?_, ?_⟩ <;> rw [hserved]
  · refine exec_devRow (act := fun d => d.evictIssue h l) rfl halive ?_
    simp only [Dev.evictIssue, beq_iff_eq, hf, d]
  · obtain ⟨rfl, -⟩ : v.cl.line = l ∧ v.closed = true := by simpa using List.find?_some hv
    have hback : d.BackTo v.cl 4 (d.writeBack v.cl []) := Dev.writeBack_backTo hwf v.cl fun j hj => by
      have hpart : partOf ((4 * v.cl.line + j) * 64) = partOf (v.cl.line * 256) := by simp only [partOf]; omega
      rw [Dev.lostBytes, hpart]
      exact hlost j hj
    obtain ⟨stat, halves, he, hevicts, hlines⟩ := Dev.evictGo_closed hv hw hb hback.halves
    refine ⟨_, exec_devRow (act := fun d => d.evictLanded h v.cl.line []) rfl halive
      ((Dev.evictLanded_unclaimed hclaim []).trans he), hevicts, hlines, hback.done, hback.cell⟩
  · exact exec_devRow (act := fun d => d.refresh b t) rfl halive (Dev.refresh_due hdue)
end

section
/-! SUPPORT. A frond's access over its own rhizoid, of a word that no line, entry or ghost of its home half holds (08 R254, 09 R296). -/

namespace Sys2Proof.Machine

variable {d : Dev} {x : Xfer}

/-! ### Pieces under way -/

/-- Piece i of transfer k, the one before the next, is listed. -/
def Dev.PieceBegun (d : Dev) (k i : Nat) : Prop := ∃ y r, d.xfer k = some y ∧ y.next = i + 1 ∧ r ∈ y.gr ∧ r.i = i

/-- Piece i of transfer k, the one before the next, is ready with data g. -/
def Dev.PieceReady (d : Dev) (k i : Nat) (g : Gran) : Prop := ∃ y r, d.xfer k = some y ∧ y.next = i + 1 ∧ r ∈ y.gr ∧ r.i = i ∧
  r.stage = 1 ∧ r.status = 0 ∧ r.data = g

theorem Dev.PieceReady.congr {e : Dev} {k i : Nat} {g : Gran} (h : d.PieceReady k i g) (he : e.xfers = d.xfers) : e.PieceReady k i g := by
  simpa only [Dev.PieceReady, Dev.xfer, he] using h

theorem Dev.xfer_id {k : Nat} {y : Xfer} (h : d.xfer k = some y) : y.id = k := by
  simpa using List.find?_some h

/-- A transfer after a change of its own fields. -/
theorem Dev.xfer_modXfer_self {k : Nat} {y : Xfer} (h : d.xfer k = some y) {f : Xfer → Xfer} (hf : ∀ u, (f u).id = u.id) :
    (d.modXfer k f).xfer k = some (f y) := by
  rw [d.xfer_modXfer k k f hf, h, Option.map_some, if_pos (beq_iff_eq.2 (Dev.xfer_id h))]

theorem Dev.xfer_begin (hx : d.xfer x.id = some x) : (d.begin x.id).xfer x.id =
    some { x with gr := x.gr ++ [{ i := x.next }], next := x.next + 1, held := false } :=
  Dev.xfer_modXfer_self hx fun _ => rfl

theorem Dev.begin_begun (hx : d.xfer x.id = some x) : (d.begin x.id).PieceBegun x.id x.next :=
  ⟨_, { i := x.next }, Dev.xfer_begin hx, rfl, by simp, rfl⟩

theorem Dev.PieceBegun.congr {e : Dev} {k i : Nat} (h : d.PieceBegun k i) (he : e.xfers = d.xfers) : e.PieceBegun k i := by
  simpa only [Dev.PieceBegun, Dev.xfer, he] using h

theorem Dev.PieceBegun.finishGr {k i : Nat} (h : d.PieceBegun k i) (g : Gran) : (d.finishGr k i 0 g).PieceReady k i g := by
  obtain ⟨y, r, hy, hnext, hr, rfl⟩ := h
  exact ⟨_, { r with stage := 1, status := 0, data := g }, Dev.xfer_modXfer_self hy fun _ => rfl, hnext,
    List.mem_map.2 ⟨r, hr, if_pos (beq_self_eq_true _)⟩, rfl, rfl, rfl, rfl⟩

theorem Dev.PieceReady.noteSeal {k i : Nat} {g : Gran} (h : d.PieceReady k i g) (w : Nat) : (d.noteSeal k w).PieceReady k i g := by
  obtain ⟨y, r, hy, hready⟩ := h
  obtain ⟨keep, hseal⟩ := d.noteSeal_cases k w
  rw [hseal]
  exact ⟨_, r, Dev.xfer_modXfer_self hy fun _ => rfl, hready⟩

/-- A read that ends readies its piece; but for the transfers nothing changes. -/
theorem Dev.PieceBegun.read {k i : Nat} (h : d.PieceBegun k i) (g : Gran) (w : Nat) :
    ((d.finishGr k i 0 g).noteSeal k w).PieceReady k i g ∧
      ∃ xfers, (d.finishGr k i 0 g).noteSeal k w = { d with xfers := xfers } := by
  refine ⟨(h.finishGr g).noteSeal w, ?_⟩
  obtain ⟨keep, hseal⟩ := (d.finishGr k i 0 g).noteSeal_cases k w
  exact ⟨_, hseal⟩

/-! ### The rhizoid -/

/-- Piece `next` of a frond's transfer begins on its rhizoid: the direction and the bytes are counted. -/
def Dev.onRhizoid (d : Dev) (x : Xfer) (wr : Bool) : Dev :=
  ((d.begin x.id).turnRhz x.mid wr).bump (cFrd x.mid (if wr then 10 else 9)) x.size

theorem Dev.onRhizoid_cases (d : Dev) (x : Xfer) (wr : Bool) : ∃ stat,
    d.onRhizoid x wr = { (d.begin x.id).setRhz x.mid { d.rhiz x.mid with lastWrite := some wr } with stat := stat } := by
  unfold Dev.onRhizoid Dev.turnRhz
  dsimp only
  split <;> exact ⟨_, rfl⟩

/-- The direction of a rhizoid is no matter to its lanes. -/
theorem Dev.onRhizoid_deadBytes (d : Dev) (x : Xfer) (wr cc : Bool) (f w : Nat) :
    ((d.onRhizoid x wr).rhiz f).deadBytes cc w = (d.rhiz f).deadBytes cc w := by
  obtain ⟨stat, h⟩ := d.onRhizoid_cases x wr
  rw [h]
  change (((d.begin x.id).setRhz x.mid _).rhiz f).deadBytes cc w = _
  rw [Dev.rhiz_setRhz]
  split
  case isTrue hf => rw [hf]; rfl
  case isFalse => rfl

theorem Dev.onRhizoid_bare (d : Dev) (x : Xfer) (wr : Bool) : (d.onRhizoid x wr).bare = (d.begin x.id).bare := by
  obtain ⟨stat, h⟩ := d.onRhizoid_cases x wr
  rw [h]
  rfl

/-- Rows opened ahead are the banks' books (08 R255). -/
@[simp] theorem Dev.openAhead_bare (d : Dev) (x : Xfer) (f : Nat) : (d.openAhead x f).bare = d.bare := by
  unfold Dev.openAhead
  refine List.foldlRecOn (motive := fun s : Dev × List (Nat × Nat) × Bool => s.1.bare = d.bare) _ _ rfl fun s hs a _ => ?_
  dsimp only
  split
  · exact hs
  · exact (s.1.openRow_bare a _).trans hs

/-- The next piece of a frond's transfer may go over its rhizoid, to a word that no claim holds and of whose line the home half
holds neither a way, an eviction entry nor a ghost. -/
structure Dev.GoesDirect (d : Dev) (x : Xfer) : Prop where
  listed : d.xfer x.id = some x
  may : d.mayPerform x = true
  via : d.viaRhizoid x x.next = true
  unclaimed : d.claimed (x.word x.next) = false
  reached : d.partStatus x.mid = 0
  absent : (d.half (d.home (partOf (x.word x.next * 64)))).find (x.word x.next / 4) = none
  unevicted : (d.half (d.home (partOf (x.word x.next * 64)))).evicts.any (fun v => v.cl.line == x.word x.next / 4) = false
  ghostless : (d.half (d.home (partOf (x.word x.next * 64)))).ghost (x.word x.next / 4) = none

/-- The word of a piece on its rhizoid lies in the frond's own partition. -/
theorem Dev.GoesDirect.part (h : d.GoesDirect x) : partOf (x.word x.next * 64) = x.mid := by
  obtain ⟨⟨⟨⟨-, hpart⟩, -⟩, -⟩, -⟩ : (((_ ∧ partOf (x.addr x.next) = x.mid) ∧ _) ∧ _) ∧ _ := by
    simpa only [Dev.viaRhizoid, Bool.and_eq_true, beq_iff_eq] using h.via
  rw [← hpart]
  simp only [partOf, Xfer.word]
  omega

/-! ### Reads -/

theorem Dev.rhizoidRead_performs {tr : ReadTry} (h : d.GoesDirect x) (hr : x.kind.isRead = true) :
    d.rhizoidRead x tr = ((d.onRhizoid x false).directRead (d.hacc x x.next) .rhizoid tr).openAhead x x.mid := by
  simp [Dev.rhizoidRead, h.may, h.via, hr, h.unclaimed, h.reached, Dev.claimHolds, Dev.onRhizoid]

/-- A read of clean data that is neither UNSTABLE nor a ghost hit ends OK (03 R84). -/
theorem Dev.serveRead_ok (d : Dev) (a : HAcc) (g : Gran) :
    d.serveRead a false false false g = (d.finishGr a.x a.i 0 g).noteSeal a.x a.w :=
  d.finishRead_live a 0 g

/-- No later granule counts as dead whose transfer has found no ghost entry of the line. -/
theorem Dev.deadTail_of_live {a : HAcc} {y : Xfer} (hy : d.xfer a.x = some y) (h : y.deadLine ≠ some (a.w / 4)) :
    d.deadTail a = false := by
  simp [Dev.deadTail, hy, h]

/-- A direct read whose home half holds nothing of the line serves its data. -/
theorem Dev.directRead_of_absent {e : Dev} {a : HAcc} {tr : ReadTry}
    (hev : (e.half (e.home (partOf (a.w * 64)))).evicts.any (fun v => v.cl.line == a.w / 4) = false)
    (hf : (e.half (e.home (partOf (a.w * 64)))).find (a.w / 4) = none)
    (hg : (e.half (e.home (partOf (a.w * 64)))).ghost (a.w / 4) = none) (hu : e.unstableRead a = false)
    (htail : e.deadTail a = false) (hlu : (a.lu && e.luOn) = false) (hs : e.stored a.w = false)
    (hm : e.failMask a.w .rhizoid tr = 0#64) :
    e.directRead a .rhizoid tr = ((e.readWord a.w .rhizoid tr).1.finishGr a.x a.i 0 (e.rawWord a.w)).noteSeal a.x a.w := by
  have hread : e.readWord a.w .rhizoid tr = ((e.readWord a.w .rhizoid tr).1, e.rawWord a.w, false) :=
    Prod.ext rfl (Dev.readWord_read a.w .rhizoid tr hs hm)
  have hb := e.readWord_bare a.w .rhizoid tr
  generalize (e.readWord a.w .rhizoid tr).1 = e1 at hread hb ⊢
  have htail' : e1.deadTail a = false := by
    rw [← htail, Dev.deadTail, Dev.deadTail, Dev.xfer, Dev.xfer, Dev.xfers_of_bare hb]
  have hlu' : (a.lu && ((e1.finishGr a.x a.i 0 (e.rawWord a.w)).noteSeal a.x a.w).luOn) = false := by
    obtain ⟨keep, hseal⟩ := (e1.finishGr a.x a.i 0 (e.rawWord a.w)).noteSeal_cases a.x a.w
    have hon : e1.luOn = e.luOn := by rw [Dev.luOn, Dev.luOn, Dev.inF, Dev.inF, Dev.inForce_of_bare hb]
    rw [hseal]
    exact (congrArg (a.lu && ·) hon).trans hlu
  simp [Dev.directRead, hev, hf, hg, hu, hread, htail', Dev.serveRead_ok, hlu']

/-- The rhizoid's lanes, and what was never written, are as before a piece began. -/
theorem Dev.onRhizoid_failMask (d : Dev) (x : Xfer) (wr : Bool) (w : Nat) (port : RdPort) (tr : ReadTry) :
    (d.onRhizoid x wr).failMask w port tr = d.failMask w port tr := by
  have hunwritten : (d.onRhizoid x wr).unwrittenFail w = d.unwrittenFail w := by
    change (d.onRhizoid x wr).bare.unwrittenFail w = _
    rw [d.onRhizoid_bare]
    rfl
  have hdead : (d.onRhizoid x wr).deadBytes w port = d.deadBytes w port := by
    simp only [Dev.deadBytes, Dev.onRhizoid_deadBytes]
  simp only [Dev.failMask, hunwritten, hdead]

/-- A read of a frond's own clean data: its piece is ready, and no cell, master or register changes. -/
theorem Dev.rhizoidRead_ready {tr : ReadTry} (h : d.GoesDirect x) (hr : x.kind.isRead = true) (hlu : d.luOn = false ∨ x.lu = false)
    (hu : d.unstableRead (d.hacc x x.next) = false) (hdead : x.deadLine ≠ some (x.word x.next / 4))
    (hs : d.stored (x.word x.next) = false) (hm : d.failMask (x.word x.next) .rhizoid tr = 0#64) :
    let e := d.rhizoidRead x tr
    e.PieceReady x.id x.next (d.rawWord (x.word x.next)) ∧ e.mem.cells = d.mem.cells ∧ e.fronds = d.fronds ∧
      e.gemmas = d.gemmas ∧ e.regs = d.regs := by
  intro e
  obtain ⟨stat, hbegun⟩ := d.onRhizoid_cases x false
  have hxfers := Dev.xfers_of_bare (d.onRhizoid_bare x false)
  have htail : (d.onRhizoid x false).deadTail (d.hacc x x.next) = false :=
    Dev.deadTail_of_live ((congrArg (List.find? _) hxfers).trans (Dev.xfer_begin h.listed)) hdead
  have hlu' : ((d.hacc x x.next).lu && (d.onRhizoid x false).luOn) = false := by
    rw [hbegun]
    rcases hlu with hon | hx
    · exact (congrArg ((d.hacc x x.next).lu && ·) hon).trans (Bool.and_false _)
    · simp [Dev.hacc, hx]
  have hread := Dev.directRead_of_absent (e := d.onRhizoid x false) (a := d.hacc x x.next) (tr := tr)
    (by rw [hbegun]; exact h.unevicted) (by rw [hbegun]; exact h.absent) (by rw [hbegun]; exact h.ghostless)
    (by rw [hbegun]; exact hu) htail hlu' (by rw [hbegun]; exact hs) ((d.onRhizoid_failMask ..).trans hm)
  have hb : ((d.onRhizoid x false).readWord (x.word x.next) .rhizoid tr).1.bare = (d.begin x.id).bare :=
    (Dev.readWord_bare _ _ _ _).trans (d.onRhizoid_bare x false)
  have hraw : (d.onRhizoid x false).rawWord (x.word x.next) = d.rawWord (x.word x.next) :=
    (Dev.rawWord_of_bare (d.onRhizoid_bare x false) _).trans rfl
  obtain ⟨hready, xfers, hend⟩ :=
    ((Dev.begin_begun h.listed).congr (Dev.xfers_of_bare hb)).read (d.rawWord (x.word x.next)) (x.word x.next)
  have he : e = ((((d.onRhizoid x false).readWord (x.word x.next) .rhizoid tr).1.finishGr x.id x.next 0
      (d.rawWord (x.word x.next))).noteSeal x.id (x.word x.next)).openAhead x x.mid := by
    rw [← hraw]
    exact (Dev.rhizoidRead_performs h hr).trans (congrArg (Dev.openAhead · x x.mid) hread)
  have hbe : e.bare = { d.begin x.id with xfers := xfers }.bare := by
    rw [he, Dev.openAhead_bare, hend]
    exact congrArg (fun r : Dev => { r with xfers := xfers }) hb
  refine ⟨?_, (Dev.cells_of_bare hbe :), (Dev.fronds_of_bare hbe :), (Dev.gemmas_of_bare hbe :), (Dev.regs_of_bare hbe :)⟩
  rw [he]
  exact hready.congr (Dev.xfers_of_bare (Dev.openAhead_bare _ x x.mid))

/-! ### Writes -/

theorem Dev.rhizoidWrite_performs {tr : WriteTry} (h : d.GoesDirect x) (hr : x.kind.isRead = false) :
    d.rhizoidWrite x tr = (((d.onRhizoid x true).markTouch x.unit (x.named x.next)).directWrite (d.hacc x x.next)
      (some false) tr).openAhead x x.mid := by
  simp [Dev.rhizoidWrite, h.may, h.via, hr, h.unclaimed, h.reached, Dev.claimHolds, Dev.onRhizoid]

theorem Dev.breakSeal_cases (d : Dev) (a m : Nat) : ∃ seals stat, d.breakSeal a m = { d with seals := seals, stat := stat } := by
  unfold Dev.breakSeal
  split
  · split
    · exact ⟨_, _, rfl⟩
    · exact ⟨_, _, rfl⟩
  · exact ⟨_, _, rfl⟩

/-- A direct write whose home half holds nothing of the line goes to the bank; the line's page loses its seal (10 R340). -/
theorem Dev.directWrite_of_absent {e : Dev} {a : HAcc} {tr : WriteTry}
    (hev : (e.half (e.home (partOf (a.w * 64)))).evicts.any (fun v => v.cl.line == a.w / 4) = false)
    (hf : (e.half (e.home (partOf (a.w * 64)))).find (a.w / 4) = none) :
    ∃ e1 : Dev, (∃ halves seals stat, e1 = { e with halves := halves, seals := seals, stat := stat }) ∧
      e.directWrite a (some false) tr =
        (e1.writeWord a.w a.data a.mask a.pois tr (e1.xUnit a.x) (some false)).finishGr a.x a.i 0 0#512 := by
  have hf' : ((e.half (e.home (partOf (a.w * 64)))).unghost (a.w / 4)).find (a.w / 4) = none := hf
  obtain ⟨seals, stat, hseal⟩ := (e.setHalf (e.home (partOf (a.w * 64)))
    ((e.half (e.home (partOf (a.w * 64)))).unghost (a.w / 4))).breakSeal_cases (a.w * 64) a.mid
  refine ⟨_, ⟨_, seals, stat, hseal⟩, ?_⟩
  simp only [Dev.directWrite, hev, hf, hf', Bool.or_false, Bool.false_eq_true, if_false]

/-- A write over the rhizoid is the bank's, from a device of the same memory and lanes on which the piece has begun. -/
theorem Dev.rhizoidWrite_eq {tr : WriteTry} (h : d.GoesDirect x) (hr : x.kind.isRead = false)
    (hp : (d.pieceData x x.next).2 = false) : ∃ e1 : Dev,
      (∃ halves seals, e1.bare = { d.begin x.id with halves := halves, seals := seals }.bare) ∧
      (∀ w, (e1.rhiz x.mid).deadBytes false w = (d.rhiz x.mid).deadBytes false w) ∧
      d.rhizoidWrite x tr = ((e1.writeWord (x.word x.next) (d.pieceData x x.next).1 (x.maskOf x.next) false tr (e1.xUnit x.id)
        (some false)).finishGr x.id x.next 0 0#512).openAhead x x.mid := by
  obtain ⟨stat, hbegun⟩ := d.onRhizoid_cases x true
  obtain ⟨e1, ⟨halves, seals, stat', he1⟩, hwrite⟩ := Dev.directWrite_of_absent (tr := tr)
    (e := (d.onRhizoid x true).markTouch x.unit (x.named x.next)) (a := d.hacc x x.next)
    (by rw [hbegun]; exact h.unevicted) (by rw [hbegun]; exact h.absent)
  have hpois : (d.hacc x x.next).pois = false := by simp [Dev.hacc, hp]
  refine ⟨e1, ⟨halves, seals, ?_⟩, fun w => ?_, ?_⟩
  · rw [he1, hbegun]
    rfl
  · rw [he1]
    exact d.onRhizoid_deadBytes x true false x.mid w
  · exact (Dev.rhizoidWrite_performs h hr).trans (congrArg (Dev.openAhead · x x.mid) (hpois ▸ hwrite))

/-- A write of a frond's own word, whole: its piece is ready, its bytes are stored, and no other word, master or register changes. -/
theorem Dev.rhizoidWrite_stores (h : d.GoesDirect x) (hr : x.kind.isRead = false) (hp : (d.pieceData x x.next).2 = false)
    (hm : x.maskOf x.next ≠ 0#64) (hwf : Memory.wf d = true)
    (hlost : (d.rhiz x.mid).deadBytes false (x.word x.next) &&& x.maskOf x.next = 0#64)
    (hs : d.stored (x.word x.next) = false ∨ x.maskOf x.next = fullMask) :
    let e := d.rhizoidWrite x .good
    e.PieceReady x.id x.next 0#512 ∧
      e.rawWord (x.word x.next) = gMerge (d.rawWord (x.word x.next)) (d.pieceData x x.next).1 (x.maskOf x.next) ∧
      (∀ a, a / 64 ≠ x.word x.next → e.cell a = d.cell a) ∧ e.fronds = d.fronds ∧ e.gemmas = d.gemmas ∧ e.regs = d.regs := by
  obtain ⟨e1, ⟨halves, seals, hb1⟩, hlanes, he⟩ := Dev.rhizoidWrite_eq (tr := .good) h hr hp
  intro e
  have hfails : e1.writeFails (x.word x.next) (x.maskOf x.next) .good (some false) = false := by
    refine e1.writeFails_of_intact _ _ _ _ ?_ (.inl rfl)
    rw [Dev.lostBytes, h.part, hlanes, hlost]
  have hwf1 : Memory.wf e1 = true := (Dev.wf_of_bare hb1).trans hwf
  obtain ⟨-, hraw⟩ := Dev.writeWord_stores _ (d.pieceData x x.next).1 _ .good (e1.xUnit x.id) (some false) hwf1 hm hfails
    (hs.imp_left (Dev.stored_of_bare hb1 _).trans)
  obtain ⟨hfronds, hgemmas, hregs, -, hxfers⟩ :=
    e1.writeWord_keeps (x.word x.next) (d.pieceData x x.next).1 (x.maskOf x.next) false .good (e1.xUnit x.id) (some false)
  have hcell (a : Nat) (ha : a / 64 ≠ x.word x.next) :=
    Dev.cell_writeWord_ne (x.word x.next) (d.pieceData x x.next).1 (x.maskOf x.next) false .good (e1.xUnit x.id) (some false) hwf1 ha
  generalize e1.writeWord (x.word x.next) (d.pieceData x x.next).1 (x.maskOf x.next) false .good (e1.xUnit x.id) (some false) = e2 at *
  have hb : e.bare = (e2.finishGr x.id x.next 0 0#512).bare := (congrArg Dev.bare he).trans (Dev.openAhead_bare _ x x.mid)
  have hbegun : e2.PieceBegun x.id x.next := (Dev.begin_begun h.listed).congr (hxfers.trans (Dev.xfers_of_bare hb1 :))
  refine ⟨(hbegun.finishGr 0#512).congr (Dev.xfers_of_bare hb), ?_, fun a ha => ?_, ?_, ?_, ?_⟩
  · exact (Dev.rawWord_of_bare hb _).trans (hraw.trans (congrArg (gMerge · _ _) (Dev.rawWord_of_bare hb1 _)))
  · exact (Dev.cell_of_bare hb a).trans ((hcell a ha).trans (Dev.cell_of_bare hb1 a))
  · exact (Dev.fronds_of_bare hb).trans (hfronds.trans (Dev.fronds_of_bare hb1 :))
  · exact (Dev.gemmas_of_bare hb).trans (hgemmas.trans (Dev.gemmas_of_bare hb1 :))
  · exact (Dev.regs_of_bare hb).trans (hregs.trans (Dev.regs_of_bare hb1 :))

end Sys2Proof.Machine
end

section
/-! SUPPORT. Accesses over a rhizoid, and the end of a drain. -/

open Sys2Proof Sys2Proof.Machine

/-- Settles O37: the home half holds nothing of the word's line, so the access is the bank's own (`Dev.rhizoidRead_ready`,
`Dev.rhizoidWrite_stores`); a drain latches its entry at the log's head (`SecWin.latched`). -/
theorem rhizoidAccesses : Obligations.RhizoidAccesses := by
  intro s halive d
  refine ⟨fun x hx hmay hvia _ hclaim hpart hfind hev hghost => ?_, fun m t r hr hx => ?_⟩
  · have hdirect : d.GoesDirect x := ⟨hx, hmay, hvia, hclaim, hpart, hfind, hev, hghost⟩
    refine ⟨fun tr hread hlu hu hdead hs hm => ?_, fun hwrite hp hm hwf hlost hs => ?_⟩
    · exact ⟨s.dev.rhizoidRead x tr, exec_devRow (act := fun d => match d.xfer x.id with
        | some xf => d.rhizoidRead xf tr
        | none => d) rfl halive (by simp only [show s.dev.xfer x.id = some x from hx]),
        Dev.rhizoidRead_ready hdirect hread hlu hu hdead hs hm⟩
    · exact ⟨s.dev.rhizoidWrite x .good, exec_devRow (act := fun d => match d.xfer x.id with
        | some xf => d.rhizoidWrite xf .good
        | none => d) rfl halive (by simp only [show s.dev.xfer x.id = some x from hx]),
        Dev.rhizoidWrite_stores hdirect hwrite hp hm hwf hlost hs⟩
  · obtain ⟨hwin, hmem, hhalves⟩ := Dev.drainEnd_of_drained (d := d.upTo t) hr hx
    refine ⟨(d.upTo t).drainEnd m.toNat, exec_devRow (act := fun d => (d.upTo t).drainEnd m.toNat) rfl halive rfl, ?_⟩
    obtain ⟨hlog0, hlog1, hlog3⟩ := d.win.latched_log m.toNat r
    rw [hwin]
    exact ⟨rfl, rfl, hlog0, hlog1, hlog3, rfl, hmem, hhalves⟩
end

section
/-! SUPPORT. A line that a half holds and that changes in its way (09 R288), and what a hit finds in a line (09 R290, R291, R304). -/

namespace Sys2Proof.Machine

variable {hf : Half} {l k : Nat} {c c' : CLine}

/-! ### Ways -/

/-- What a half finds of line l in way `key`. -/
def Half.inWay (hf : Half) (l key : Nat) : Option (Nat × CLine) :=
  match hf.lines.find key with
  | some c => if c.line == l then some (key, c) else none
  | none => none

theorem Half.find_eq_findSome (hf : Half) (l : Nat) :
    hf.find l = (List.range 16).findSome? (fun w => hf.inWay l (setOf l * 16 + w)) :=
  List.head?_filterMap

theorem Half.inWay_of_find (h : hf.find l = some (k, c)) : hf.inWay l k = some (k, c) := by
  rw [Half.find_eq_findSome] at h
  obtain ⟨w, -, hw⟩ := List.exists_of_findSome?_eq_some h
  obtain rfl : setOf l * 16 + w = k := by
    unfold Half.inWay at hw
    split at hw
    · split at hw
      · cases hw; rfl
      · cases hw
    · cases hw
  exact hw

/-- A line that changes in its way is found there with its change. -/
theorem Half.find_putLine (h : hf.find l = some (k, c)) (hl : c'.line = c.line) :
    { hf with lines := hf.lines.put k c' }.find l = some (k, c') := by
  have hline : c.line = l := Half.line_of_find h
  have hway (key : Nat) : { hf with lines := hf.lines.put k c' }.inWay l key =
      (hf.inWay l key).map (fun p => if p.1 = k then (k, c') else p) := by
    by_cases hk : key = k
    · subst hk
      rw [Half.inWay_of_find h]
      simp [Half.inWay, hl, hline]
    · simp only [Half.inWay, SMap.find_put_ne _ _ hk]
      split
      · split <;> simp [hk]
      · rfl
  rw [Half.find_eq_findSome] at h ⊢
  have hmap := List.map_findSome? (f := fun w => hf.inWay l (setOf l * 16 + w)) (g := fun p => if p.1 = k then (k, c') else p)
    (l := List.range 16)
  rw [h] at hmap
  simpa [hway, Function.comp_def] using hmap.symm

/-- A half after a hit in way k that leaves line c there. -/
def Half.hitWith (hf : Half) (k : Nat) (c : CLine) : Half := { hf.touch k with lines := hf.lines.put k c }

theorem Half.find_hitWith (h : hf.find l = some (k, c)) (hl : c'.line = c.line) : (hf.hitWith k c').find l = some (k, c') :=
  Half.find_putLine (hf := hf.touch k) h hl

/-! ### Hits -/

/-- A write or an atomic applied to its word of a line that holds every byte it needs; the flag says that the write was discarded,
or that the atomic met poison. -/
def CLine.applied (c : CLine) (a : HAcc) : CLine × Bool :=
  if a.kind == 1 then c.write (a.w % 4) a.data a.mask a.pois else c.atomic (a.w % 4) a

@[simp] theorem CLine.line_write (c : CLine) (j : Nat) (g : Gran) (m : BitVec 64) (p : Bool) : (c.write j g m p).1.line = c.line := by
  unfold CLine.write
  split_ifs <;> rfl

@[simp] theorem CLine.line_applied (c : CLine) (a : HAcc) : (c.applied a).1.line = c.line := by
  unfold CLine.applied CLine.atomic
  split_ifs
  · exact c.line_write ..
  · rfl
  · rfl

theorem CLine.applied_write {a : HAcc} (ha : a.kind = 1) (hp : a.pois = false) :
    c.applied a = c.write (a.w % 4) a.data a.mask false := by
  simp [CLine.applied, ha, hp]

theorem CLine.applied_atomic {a : HAcc} (ha : a.kind = 2) (hp : a.pois = false) (hw : c.wPois (a.w % 4) = false) :
    c.applied a = (c.setWord (a.w % 4) (atomGran a.aop a.afmt (c.word (a.w % 4)) a.data a.mask)
      (c.wValid (a.w % 4) ||| a.mask) (c.wDirty (a.w % 4) ||| a.mask) false, false) := by
  simp [CLine.applied, CLine.atomic, ha, hp, hw]

/-- A write of clean data to a clean word, or to a whole one, is not discarded. -/
theorem CLine.write_kept {j : Nat} {m : BitVec 64} (h : c.wPois j = false ∨ m = fullMask) (g : Gran) :
    (c.write j g m false).2 = false := by
  have hkept : (c.wPois j && m != fullMask) = false := by rcases h with h | h <;> simp [h]
  simp [CLine.write, hkept]

/-- An atomic wants only the bytes of its own word. -/
theorem CLine.serves_of_word {a : HAcc} (ha : a.kind ≠ 0) (hm : a.mask &&& ~~~ (c.wValid (a.w % 4)) = 0#64) : c.serves a = true := by
  refine List.all_eq_true.2 fun k _ => ?_
  by_cases hk : k = a.w % 4
  · simp [HAcc.wants, ha, hk, hm]
  · simp [HAcc.wants, ha, hk]

end Sys2Proof.Machine
end

section
/-! SUPPORT. A hit in the cache (09 R290, R291, R304): the next piece of a transfer reaches its home half over the cache path, and the
half holds the line in a way, with no fill or eviction entry of it. -/

namespace Sys2Proof.Machine

variable {d e : Dev} {x : Xfer} {a : HAcc} {h l k : Nat} {c : CLine}

/-- From d to e nothing has changed but seals, counters, units and transfers. -/
def Dev.HomeKept (d e : Dev) : Prop := ∃ seals stat units xfers,
  e = { d with seals := seals, stat := stat, units := units, xfers := xfers }

theorem Dev.HomeKept.trans {e' : Dev} (he : d.HomeKept e) (he' : e.HomeKept e') : d.HomeKept e' := by
  obtain ⟨_, _, _, _, rfl⟩ := he
  obtain ⟨_, _, _, _, rfl⟩ := he'
  exact ⟨_, _, _, _, rfl⟩

theorem Dev.HomeKept.setHalf (he : d.HomeKept e) (h : Nat) (hf : Half) : (d.setHalf h hf).HomeKept (e.setHalf h hf) := by
  obtain ⟨_, _, _, _, rfl⟩ := he
  exact ⟨_, _, _, _, rfl⟩

theorem Dev.HomeKept.half (he : d.HomeKept e) (h : Nat) : e.half h = d.half h := by
  obtain ⟨_, _, _, _, rfl⟩ := he
  rfl

theorem Dev.HomeKept.unstableRead (he : d.HomeKept e) (a : HAcc) : e.unstableRead a = d.unstableRead a := by
  obtain ⟨_, _, _, _, rfl⟩ := he
  rfl

theorem Dev.HomeKept.luOn (he : d.HomeKept e) : e.luOn = d.luOn := by
  obtain ⟨_, _, _, _, rfl⟩ := he
  rfl

theorem Dev.HomeKept.targetStatus (he : d.HomeKept e) (m adr : Nat) : e.targetStatus m adr = d.targetStatus m adr := by
  obtain ⟨_, _, _, _, rfl⟩ := he
  rfl

theorem Dev.HomeKept.home (he : d.HomeKept e) (f : Nat) : e.home f = d.home f := by
  obtain ⟨_, _, _, _, rfl⟩ := he
  rfl

/-- One half has changed; memory, masters, registers and the other halves have not. -/
theorem Dev.HomeKept.quiet {hf : Half} (he : (d.setHalf h hf).HomeKept e) :
    e.mem = d.mem ∧ e.fronds = d.fronds ∧ e.gemmas = d.gemmas ∧ e.regs = d.regs ∧ ∀ i, i ≠ h → e.half i = d.half i := by
  have hhalf (i : Nat) (hi : i ≠ h) : e.half i = d.half i := by rw [he.half, Dev.half_setHalf, if_neg hi]
  obtain ⟨_, _, _, _, rfl⟩ := he
  exact ⟨rfl, rfl, rfl, rfl, hhalf⟩

/-! ### The way to the home half -/

/-- The next piece of a transfer goes over the cache path, and neither its window nor its home half holds it back. -/
structure Dev.GoesHome (d : Dev) (x : Xfer) : Prop where
  listed : d.xfer x.id = some x
  may : d.mayPerform x = true
  path : d.viaRhizoid x x.next = false
  granted : x.kind = .copyRead ∨ x.kind = .copyWrite → d.allowedAt x.wset x.kind.acc (x.addr x.next) = true
  powered : d.halfHeld (d.home (partOf (x.addr x.next))) = false
  reached : d.targetStatus x.mid (x.word x.next * 64) = 0

/-- Piece `next` of a transfer begins on the cache path: its bytes are counted, and its unit notes a write. -/
def Dev.onCachePath (d : Dev) (x : Xfer) : Dev :=
  if (d.hacc x x.next).kind == 0 then (d.begin x.id).countCache x
  else ((d.begin x.id).countCache x).markTouch x.unit (x.named x.next)

theorem Dev.onCachePath_cases (d : Dev) (x : Xfer) : ∃ stat units,
    d.onCachePath x = { d.begin x.id with stat := stat, units := units } := by
  have hcount : ∃ stat, (d.begin x.id).countCache x = { d.begin x.id with stat := stat } := by
    unfold Dev.countCache
    split
    · exact ⟨_, rfl⟩
    · split <;> exact ⟨_, rfl⟩
  obtain ⟨stat, hcount⟩ := hcount
  unfold Dev.onCachePath
  rw [hcount]
  split <;> exact ⟨stat, _, rfl⟩

theorem Dev.onCachePath_kept (d : Dev) (x : Xfer) : d.HomeKept (d.onCachePath x) := by
  obtain ⟨stat, units, h⟩ := d.onCachePath_cases x
  exact ⟨d.seals, stat, units, _, h⟩

theorem Dev.onCachePath_xfers (d : Dev) (x : Xfer) : (d.onCachePath x).xfers = (d.begin x.id).xfers := by
  obtain ⟨stat, units, h⟩ := d.onCachePath_cases x
  rw [h]

/-- With no fault on the way, the piece's access arrives at its home half. -/
theorem Dev.cacheGo_arrives (hx : d.GoesHome x) :
    d.cacheGo x (d.hacc x x.next).kind .none =
      (d.onCachePath x).homeAccess (d.home (partOf (x.word x.next * 64))) (d.hacc x x.next) := by
  have hgranted : ((x.kind == .copyRead || x.kind == .copyWrite) && !d.allowedAt x.wset x.kind.acc (x.addr x.next)) = false := by
    by_cases hk : x.kind = .copyRead ∨ x.kind = .copyWrite
    · rw [hx.granted hk, Bool.not_true, Bool.and_false]
    · simp [not_or.1 hk]
  have hkind : (d.hacc x x.next).kind = if x.kind.isRead then 0 else if x.kind.isAtomic then 2 else 1 := rfl
  have hstatus := ((d.onCachePath_kept x).targetStatus x.mid (x.word x.next * 64)).trans hx.reached
  have hhome := (d.onCachePath_kept x).home (partOf (x.word x.next * 64))
  have hbegun : (if (d.hacc x x.next).kind == 0 then (d.begin x.id).countCache x
      else ((d.begin x.id).countCache x).markTouch x.unit (x.named x.next)) = d.onCachePath x := rfl
  unfold Dev.cacheGo
  simp only [hx.may, hx.path, ← hkind, hgranted, hx.powered, hbegun, Dev.pathFault, Dev.cacheFault, hstatus, hhome]
  simp

/-! ### Arrival -/

/-- Half h holds line l in way k, with no fill or eviction entry of it. -/
structure Dev.HoldsLine (d : Dev) (h l k : Nat) (c : CLine) : Prop where
  found : (d.half h).find l = some (k, c)
  unevicted : (d.half h).evicts.any (fun v => v.cl.line == l) = false
  unfilled : (d.half h).fills.any (fun f => f.line == l) = false

theorem Dev.HoldsLine.congr (hl : d.HoldsLine h l k c) (he : e.half h = d.half h) : e.HoldsLine h l k c :=
  ⟨he ▸ hl.found, he ▸ hl.unevicted, he ▸ hl.unfilled⟩

theorem Dev.breakSeal_kept (d : Dev) (adr m : Nat) : d.HomeKept (d.breakSeal adr m) := by
  obtain ⟨seals, stat, h⟩ := d.breakSeal_cases adr m
  exact ⟨seals, stat, d.units, d.xfers, h⟩

theorem Dev.breakSeal_xfers (d : Dev) (adr m : Nat) : (d.breakSeal adr m).xfers = d.xfers := by
  obtain ⟨seals, stat, h⟩ := d.breakSeal_cases adr m
  rw [h]

/-- A write or atomic breaks its page's seal as it arrives, and a hit is counted. -/
def Dev.metHit (d : Dev) (h : Nat) (a : HAcc) : Dev :=
  (if a.kind != 0 then d.breakSeal (a.w * 64) a.mid else d).countAt h a (2 * a.kind)

theorem Dev.metHit_kept (d : Dev) (h : Nat) (a : HAcc) : d.HomeKept (d.metHit h a) ∧ (d.metHit h a).xfers = d.xfers := by
  have hcount (e : Dev) : e.HomeKept (e.countAt h a (2 * a.kind)) ∧ (e.countAt h a (2 * a.kind)).xfers = e.xfers := by
    unfold Dev.countAt
    split <;> exact ⟨⟨_, _, _, _, rfl⟩, rfl⟩
  unfold Dev.metHit
  split
  · obtain ⟨hkept, hxfers⟩ := hcount (d.breakSeal (a.w * 64) a.mid)
    exact ⟨(d.breakSeal_kept _ _).trans hkept, hxfers.trans (d.breakSeal_xfers _ _)⟩
  · exact hcount d

theorem Dev.served_luOn (hs : d.Served e) : e.luOn = d.luOn := by
  obtain ⟨_, _, _, _, rfl⟩ := hs
  rfl

/-- An access whose line is present and holds every byte that it wants is applied as it arrives (09 R290). -/
theorem Dev.homeAccess_hit (hl : d.HoldsLine h (a.w / 4) k c) (hs : a.kind = 1 ∨ c.serves a = true)
    (hread : a.kind = 0 → d.deadTail a = false ∧ (a.lu && d.luOn) = false) :
    d.homeAccess h a = (d.metHit h a).applyHit h a false := by
  have hevicts : (d.half h).evicts.find? (fun v => v.cl.line == a.w / 4) = none := by simpa using hl.unevicted
  have hfills : (d.half h).fills.find? (fun f => f.line == a.w / 4) = none := by simpa using hl.unfilled
  have hhit : (a.kind == 1 || c.serves a) = true := by simpa using hs
  obtain ⟨hkept, hxfers⟩ := d.metHit_kept h a
  have htail : (a.kind == 0 && (d.metHit h a).deadTail a) = false := by
    by_cases ha : a.kind = 0
    · have := (hread ha).1
      simpa [ha, Dev.deadTail, Dev.xfer, hxfers] using this
    · simp [ha]
  have hlu : (a.kind == 0 && a.lu && ((d.metHit h a).applyHit h a false).luOn) = false := by
    by_cases ha : a.kind = 0
    · rw [Dev.served_luOn ((d.metHit h a).applyHit_read h ha).1, hkept.luOn]
      simpa [ha] using (hread ha).2
    · simp [ha]
  unfold Dev.metHit at htail hlu ⊢
  simp only [Dev.homeAccess, hevicts, hfills, hl.found, hhit, if_true, Nat.add_zero, htail, hlu, Bool.false_eq_true, if_false]

/-! ### The line -/

/-- A read that hits a clean word readies its piece with the word's data; the half notes the order of use only. -/
theorem Dev.applyHit_clean (hf : (d.half h).find (a.w / 4) = some (k, c)) (ha : a.kind = 0) (hp : c.wPois (a.w % 4) = false)
    (hu : d.unstableRead a = false) (hb : d.PieceBegun a.x a.i) :
    (d.applyHit h a false).PieceReady a.x a.i (c.word (a.w % 4)) ∧
      (d.setHalf h ((d.half h).touch k)).HomeKept (d.applyHit h a false) := by
  have he : d.applyHit h a false =
      ((d.setHalf h ((d.half h).touch k)).finishGr a.x a.i 0 (c.word (a.w % 4))).noteSeal a.x a.w := by
    simp [Dev.applyHit, ha, hf, hp, hu, Dev.serveRead_ok]
  obtain ⟨hready, xfers, hend⟩ := (hb.congr (e := d.setHalf h ((d.half h).touch k)) rfl).read (c.word (a.w % 4)) a.w
  rw [he]
  exact ⟨hready, _, _, _, xfers, hend⟩

/-- A write or an atomic that its line takes readies its piece, and the line holds what it was applied to. -/
theorem Dev.applyHit_lands (hf : (d.half h).find (a.w / 4) = some (k, c)) (ha : a.kind ≠ 0) (hp : a.pois = false)
    (hc : (c.applied a).2 = false) (hb : d.PieceBegun a.x a.i) :
    (d.applyHit h a false).PieceReady a.x a.i 0#512 ∧
      (d.setHalf h ((d.half h).hitWith k (c.applied a).1)).HomeKept (d.applyHit h a false) := by
  have hkept := d.breakSeal_kept (a.w * 64) a.mid
  have he : d.applyHit h a false = ((d.breakSeal (a.w * 64) a.mid).setHalf h
      ((d.half h).hitWith k (c.applied a).1)).finishGr a.x a.i 0 0#512 := by
    by_cases h1 : a.kind = 1
    · have hkept1 : (c.write (a.w % 4) a.data a.mask false).2 = false := by rw [← CLine.applied_write h1 hp, hc]
      simp [Dev.applyHit, CLine.applied, h1, hkept.half, hf, hp, hkept1, Half.hitWith, Half.touch, Dev.landed]
    · have hclean : (c.atomic (a.w % 4) a).2 = false := by simpa [CLine.applied, h1] using hc
      simp [Dev.applyHit, CLine.applied, ha, h1, hkept.half, hf, hclean, Half.hitWith, Half.touch, Dev.landed]
  rw [he]
  exact ⟨(hb.congr (d.breakSeal_xfers _ _)).finishGr 0#512, (hkept.setHalf h _).trans ⟨_, _, _, _, rfl⟩⟩

/-! ### A piece that hits -/

/-- The next piece of a transfer that goes home, and the line that it finds there. -/
structure Dev.Hits (d : Dev) (x : Xfer) (k : Nat) (c : CLine) : Prop extends d.GoesHome x where
  held : d.HoldsLine (d.home (partOf (x.word x.next * 64))) (x.word x.next / 4) k c

/-- A piece that hits is applied to its line, on a device that keeps what the home half sees. -/
theorem Dev.cacheGo_hits (hx : d.Hits x k c) (hs : (d.hacc x x.next).kind = 1 ∨ c.serves (d.hacc x x.next) = true)
    (hread : (d.hacc x x.next).kind = 0 → x.deadLine ≠ some (x.word x.next / 4) ∧ (d.luOn = false ∨ x.lu = false)) :
    ∃ e, d.HomeKept e ∧ e.PieceBegun x.id x.next ∧ d.cacheGo x (d.hacc x x.next).kind .none =
      e.applyHit (d.home (partOf (x.word x.next * 64))) (d.hacc x x.next) false := by
  have hkept := d.onCachePath_kept x
  have hxfers := d.onCachePath_xfers x
  obtain ⟨hmet, hmetXfers⟩ := (d.onCachePath x).metHit_kept (d.home (partOf (x.word x.next * 64))) (d.hacc x x.next)
  refine ⟨_, hkept.trans hmet, (Dev.begin_begun hx.listed).congr (hmetXfers.trans hxfers), (Dev.cacheGo_arrives hx.toGoesHome).trans ?_⟩
  refine Dev.homeAccess_hit (hx.held.congr (hkept.half _)) hs fun ha => ?_
  obtain ⟨hdead, hlu⟩ := hread ha
  refine ⟨Dev.deadTail_of_live ((congrArg (List.find? _) hxfers).trans (Dev.xfer_begin hx.listed)) hdead, ?_⟩
  rw [hkept.luOn]
  rcases hlu with hlu | hlu <;> simp [Dev.hacc, hlu]

/-- A read of a clean word that holds the bytes it wants: the word's data, from lines that stay. -/
theorem Dev.cacheGo_read (hx : d.Hits x k c) (hr : x.kind.isRead = true) (hs : c.serves (d.hacc x x.next) = true)
    (hp : c.wPois (x.word x.next % 4) = false) (hu : d.unstableRead (d.hacc x x.next) = false)
    (hdead : x.deadLine ≠ some (x.word x.next / 4)) (hlu : d.luOn = false ∨ x.lu = false) :
    let h := d.home (partOf (x.word x.next * 64))
    let e := d.cacheGo x 0 .none
    e.PieceReady x.id x.next (c.word (x.word x.next % 4)) ∧ (d.setHalf h ((d.half h).touch k)).HomeKept e ∧
      (e.half h).lines = (d.half h).lines := by
  intro h e
  have ha : (d.hacc x x.next).kind = 0 := by simp [Dev.hacc, hr]
  obtain ⟨e', hkept, hbegun, hgo⟩ := Dev.cacheGo_hits hx (.inr hs) fun _ => ⟨hdead, hlu⟩
  rw [ha] at hgo
  obtain ⟨hready, hend⟩ := Dev.applyHit_clean ((hkept.half _).symm ▸ hx.held.found) ha hp ((hkept.unstableRead _).trans hu) hbegun
  rw [hkept.half] at hend
  have hto := (hkept.setHalf _ _).trans hend
  rw [← hgo] at hready hto
  refine ⟨hready, hto, ?_⟩
  rw [hto.half, Dev.half_setHalf_self]
  rfl

/-- A write or an atomic that its line takes: the line is found in its way with the change. -/
theorem Dev.cacheGo_lands (hx : d.Hits x k c) (ha : (d.hacc x x.next).kind ≠ 0) (hp : (d.pieceData x x.next).2 = false)
    (hs : (d.hacc x x.next).kind = 1 ∨ c.serves (d.hacc x x.next) = true) (hc : (c.applied (d.hacc x x.next)).2 = false) :
    let h := d.home (partOf (x.word x.next * 64))
    let e := d.cacheGo x (d.hacc x x.next).kind .none
    e.PieceReady x.id x.next 0#512 ∧
      (d.setHalf h ((d.half h).hitWith k (c.applied (d.hacc x x.next)).1)).HomeKept e ∧
      (e.half h).find (x.word x.next / 4) = some (k, (c.applied (d.hacc x x.next)).1) := by
  intro h e
  obtain ⟨e', hkept, hbegun, hgo⟩ := Dev.cacheGo_hits hx hs fun h0 => absurd h0 ha
  obtain ⟨hready, hend⟩ := Dev.applyHit_lands ((hkept.half _).symm ▸ hx.held.found) ha (by simp [Dev.hacc, hp]) hc hbegun
  rw [hkept.half] at hend
  have hto := (hkept.setHalf _ _).trans hend
  rw [← hgo] at hready hto
  refine ⟨hready, hto, ?_⟩
  rw [hto.half, Dev.half_setHalf_self]
  exact Half.find_hitWith hx.held.found (c.line_applied _)

end Sys2Proof.Machine
end

section
/-! SUPPORT. Accesses that hit the cache. -/

open Sys2Proof Sys2Proof.Machine

/-- Settles O38: the piece reaches its home half and is applied to the line it finds there (`Dev.cacheGo_read`,
`Dev.cacheGo_lands`). -/
theorem cacheAccesses : Obligations.CacheAccesses := by
  intro s x k c halive hx d w hn j m hmay hvia hsig _ hlu hwin _ hreached hheld hfind hev hfill
  have hhits : d.Hits x k c := ⟨⟨hx, hmay, hvia, hwin, hheld, hreached⟩, ⟨hfind, hev, hfill⟩⟩
  refine ⟨fun hr hp hs hu hdead => ?_, fun hr hat hp hword => ?_, fun hr hat hp hword hvalid => ?_⟩
  · obtain ⟨hready, hkept, hlines⟩ := Dev.cacheGo_read hhits hr hs hp hu hdead hlu
    exact ⟨_, exec_devRow (act := fun d => match d.xfer x.id with
      | some xf => d.cacheGo xf 0 .none
      | none => d) rfl halive (by simp only [hx]; rfl), hready, hlines, hkept.quiet⟩
  · have ha : (d.hacc x x.next).kind = 1 := by simp [Dev.hacc, hr, hat]
    have happ : c.applied (d.hacc x x.next) = c.write j (d.pieceData x x.next).1 m false :=
      CLine.applied_write ha (by simp [Dev.hacc, hp])
    obtain ⟨hready, hkept, hline⟩ := Dev.cacheGo_lands hhits (by simp [ha]) hp (.inl ha) (happ ▸ CLine.write_kept hword _)
    rw [ha] at hready hkept hline
    rw [happ] at hline
    exact ⟨_, exec_devRow (act := fun d => match d.xfer x.id with
      | some xf => d.cacheGo xf 1 .none
      | none => d) rfl halive (by simp only [hx]; rfl), hready, hline, hkept.quiet⟩
  · have ha : (d.hacc x x.next).kind = 2 := by simp [Dev.hacc, hr, hat]
    have happ := CLine.applied_atomic (c := c) ha (by simp [Dev.hacc, hp]) hword
    obtain ⟨hready, hkept, hline⟩ := Dev.cacheGo_lands hhits (by simp [ha]) hp (.inr (CLine.serves_of_word (by simp [ha]) hvalid))
      (by rw [happ])
    rw [ha] at hready hkept hline
    rw [happ] at hline
    exact ⟨_, exec_devRow (act := fun d => match d.xfer x.id with
      | some xf => if d.mayPerform xf && d.sigFails xf then (d.endXfer x.id).stopUnit xf.unit 7 0 else d.cacheGo xf 2 .none
      | none => d) rfl halive (by simp only [hx, show s.dev.sigFails x = false from hsig]; simp [d]), hready, hline, hkept.quiet⟩
end

section
/-! SUPPORT. The extremes of an integer vector and their indices (10 R320, R324). -/

namespace Sys2Proof.Machine

/-- Numbers in the order of the pick: the extreme is the word of the lowest rank. -/
def pickRank (mx : Bool) (w : Word) : Int := if mx then -w.toInt else w.toInt

theorem pick_better (mx : Bool) (b w : Word) :
    (if mx then b.slt w else w.slt b) = decide (pickRank mx w < pickRank mx b) := by
  cases mx <;> simp [pickRank, BitVec.slt]

/-- One more element is the extreme where it is better than all before it. -/
theorem iPick_concat (mx : Bool) {l : List Word} (h : l ≠ []) (w : Word) :
    iPick mx (l ++ [w]) = if pickRank mx w < pickRank mx (iPick mx l) then w else iPick mx l := by
  obtain ⟨a, t, rfl⟩ := List.exists_cons_of_ne_nil h
  simp only [iPick, List.cons_append, List.foldl_append, List.foldl_cons, List.foldl_nil, pick_better, decide_eq_true_eq]

theorem iPick_mem (mx : Bool) {l : List Word} (h : l ≠ []) : iPick mx l ∈ l := by
  induction l using List.reverseRecOn with
  | nil => exact absurd rfl h
  | append_singleton l w ih =>
    by_cases hl : l = []
    · subst hl; exact List.mem_singleton.2 rfl
    · rw [iPick_concat mx hl]
      split
      · simp
      · exact List.mem_append_left _ (ih hl)

theorem pickRank_iPick_le (mx : Bool) {l : List Word} : ∀ v ∈ l, pickRank mx (iPick mx l) ≤ pickRank mx v := by
  induction l using List.reverseRecOn with
  | nil => exact fun v hv => absurd hv List.not_mem_nil
  | append_singleton l w ih =>
    intro v hv
    by_cases hl : l = []
    · subst hl; rw [List.mem_singleton.1 hv]; rfl
    · rw [iPick_concat mx hl]
      rcases List.mem_append.1 hv with hv | hv
      · have hle := ih v hv
        split <;> omega
      · rw [List.mem_singleton.1 hv]
        split <;> omega

/-- The pick of an index, over the elements with their places. -/
def argStep (mx : Bool) (s : Option (Nat × Word)) (e : Nat × Word) : Option (Nat × Word) :=
  match s with
  | none => some e
  | some c => if pickRank mx e.2 < pickRank mx c.2 then some e else some c

def argFold (mx : Bool) (ws : List Word) : Option (Nat × Word) := ((List.range ws.length).zip ws).foldl (argStep mx) none

theorem argPick_of_argFold {mx : Bool} {ws : List Word} {e : Nat × Word} (h : argFold mx ws = some e) :
    argPick mx true ws = BitVec.ofNat 32 e.1 := by
  unfold argPick
  extract_lets better r
  have hr : r = argFold mx ws := by
    refine congrArg (fun f => List.foldl f none _) (funext fun s => funext fun e => ?_)
    cases s <;> simp [argStep, better, pick_better]
  rw [hr, h]

theorem argFold_concat (mx : Bool) (l : List Word) (w : Word) :
    argFold mx (l ++ [w]) = argStep mx (argFold mx l) (l.length, w) := by
  simp [argFold, List.range_succ, List.zip_append, List.foldl_append]

/-- The index is that of the extreme, and every element before it is worse. -/
theorem argFold_eq (mx : Bool) {l : List Word} (h : l ≠ []) : ∃ k < l.length, argFold mx l = some (k, iPick mx l) ∧
    l.getD k 0#32 = iPick mx l ∧ ∀ j < k, pickRank mx (iPick mx l) < pickRank mx (l.getD j 0#32) := by
  induction l using List.reverseRecOn with
  | nil => exact absurd rfl h
  | append_singleton l w ih =>
    by_cases hl : l = []
    · subst hl; exact ⟨0, by simp, rfl, rfl, fun j hj => absurd hj (Nat.not_lt_zero j)⟩
    · obtain ⟨k, hk, hfold, hget, hfirst⟩ := ih hl
      have hold : ∀ j < l.length, (l ++ [w]).getD j 0#32 = l.getD j 0#32 := fun j hj => List.getD_append _ _ _ _ hj
      rw [argFold_concat, hfold, iPick_concat mx hl, argStep]
      by_cases hw : pickRank mx w < pickRank mx (iPick mx l)
      · rw [if_pos hw, if_pos hw]
        refine ⟨l.length, by simp, rfl, by simp, fun j hj => ?_⟩
        rw [hold j hj]
        have hmem : l.getD j 0#32 ∈ l := by
          rw [List.getD_eq_getElem _ _ hj]; exact List.getElem_mem hj
        exact hw.trans_le (pickRank_iPick_le mx _ hmem)
      · rw [if_neg hw, if_neg hw]
        refine ⟨k, by simp; omega, rfl, (hold k hk).trans hget, fun j hj => ?_⟩
        rw [hold j (hj.trans hk)]
        exact hfirst j hj

end Sys2Proof.Machine
end

section
/-! SUPPORT. Extremes of an integer vector. -/

open Sys2Proof Sys2Proof.Machine

/-- Settles O29, by induction on the vector from its end: one more element is the extreme where it beats all before it. -/
theorem gemmaIntegerExtremes : Obligations.GemmaIntegerExtremes := by
  intro ws hne
  refine ⟨iPick_mem false hne, pickRank_iPick_le false, iPick_mem true hne,
    fun w hw => Int.neg_le_neg_iff.1 (pickRank_iPick_le true w hw), fun hlen => ?_⟩
  obtain ⟨k, hk, hfold, hget, hfirst⟩ := argFold_eq false hne
  have hidx : (argPick false true ws).toNat = k := by
    rw [argPick_of_argFold hfold]
    exact (BitVec.toNat_ofNat k 32).trans (Nat.mod_eq_of_lt (by omega))
  rw [hidx]
  exact ⟨hget, hfirst⟩
end

section
/-! SUPPORT. The integer operations of a gemma's core (10 R311). -/

open Sys2Proof Sys2Proof.Machine

/-- Settles O8: the operations are those of words; the high product and the quotients agree with those of the numbers that
the words stand for. -/
theorem integerOperations : Obligations.IntegerOperations := by
  intro a b
  have hslt : rvAlu 2 false a b = if a.toInt < b.toInt then 1#32 else 0#32 := by simp [rvAlu, BitVec.slt]
  have hult : rvAlu 3 false a b = if a.toNat < b.toNat then 1#32 else 0#32 := by simp [rvAlu, BitVec.ult]
  have hmulhu : rvMul 3 a b = BitVec.ofNat 32 (a.toNat * b.toNat / 2 ^ 32) := by
    change BitVec.ofInt 32 _ = _
    rw [← BitVec.ofInt_natCast]
    norm_cast
  have hdivu : rvMul 5 a b = if b = 0#32 then BitVec.allOnes 32 else a / b := by simp [rvMul, BitVec.udiv_def]
  have hremu : rvMul 7 a b = if b = 0#32 then a else a % b := by simp [rvMul, BitVec.umod_def]
  exact ⟨rfl, rfl, rfl, hslt, hult, rfl, rfl, rfl, rfl, rfl, rfl, hmulhu, rfl, rfl, hdivu, hremu⟩
end

section
/-! SUPPORT. The registers of a gemma (10 R311). -/

namespace Sys2Proof.Machine

variable (x : Gemma) (n : Nat) (w : Word) (p : Bool)

@[simp] theorem Gemma.setX_zero : x.setX 0 w p = x := rfl

variable {n}

theorem Gemma.setX_of_ne (h : n ≠ 0) :
    x.setX n w p = { x with x := x.x.put n w, xP := if p then x.xP.put n () else x.xP.drop n } := by simp [Gemma.setX, h]

/-- The marks of poisoned registers after one is written. -/
theorem isSome_find_mark (m : SMap Unit) (j n : Nat) :
    (SMap.find (if p then m.put n () else m.drop n) j).isSome = if j = n then p else (SMap.find m j).isSome := by
  by_cases h : j = n <;> cases p <;> simp [SMap.find_drop, h]

theorem Gemma.rx_setX_self (h : n ≠ 0) : (x.setX n w p).rx n = w := by simp [Gemma.setX_of_ne x w p h, Gemma.rx, h]
theorem Gemma.px_setX_self (h : n ≠ 0) : (x.setX n w p).px n = p := by
  simp [Gemma.setX_of_ne x w p h, Gemma.px, h, isSome_find_mark]

theorem Gemma.rx_setX_ne {m : Nat} (h : m ≠ n) : (x.setX n w p).rx m = x.rx m := by
  by_cases hn : n = 0
  · rw [hn, Gemma.setX_zero]
  · simp [Gemma.setX_of_ne x w p hn, Gemma.rx, h]
theorem Gemma.px_setX_ne {m : Nat} (h : m ≠ n) : (x.setX n w p).px m = x.px m := by
  by_cases hn : n = 0
  · rw [hn, Gemma.setX_zero]
  · simp [Gemma.setX_of_ne x w p hn, Gemma.px, h, isSome_find_mark]

@[simp] theorem Gemma.rf_setF_self : (x.setF n w p).rf n = w := by simp [Gemma.setF, Gemma.rf]
@[simp] theorem Gemma.pf_setF_self : (x.setF n w p).pf n = p := by simp [Gemma.setF, Gemma.pf, isSome_find_mark]
theorem Gemma.rf_setF_ne {m : Nat} (h : m ≠ n) : (x.setF n w p).rf m = x.rf m := by simp [Gemma.setF, Gemma.rf, h]
theorem Gemma.pf_setF_ne {m : Nat} (h : m ≠ n) : (x.setF n w p).pf m = x.pf m := by
  simp [Gemma.setF, Gemma.pf, h, isSome_find_mark]

end Sys2Proof.Machine
end

section
/-! SUPPORT. Registers of a gemma. -/

open Sys2Proof Sys2Proof.Machine

/-- Settles O21: x0, a register that is written, and any other. -/
theorem gemmaRegisters : Obligations.GemmaRegisters := fun x _ _ w p =>
  ⟨rfl, rfl, rfl, fun h => ⟨x.rx_setX_self w p h, x.px_setX_self w p h⟩, fun h => ⟨x.rx_setX_ne w p h, x.px_setX_ne w p h⟩,
    x.rf_setF_self w p, x.pf_setF_self w p, fun h => ⟨x.rf_setF_ne w p h, x.pf_setF_ne w p h⟩⟩
end

section
/-! SUPPORT. What the row of a gemma's instruction does in a running module. -/

namespace Sys2Proof.Machine

/-- The row of the group that stands acts as its instruction does. -/
theorem exec_gemRow {s : State} {g : Nat} {u : WUnit} {i : RvI} {k : GKind} {c : Instr} {e : Dev} {mine : RvI → GKind → Bool}
    {body : Dev → WUnit → RvI → Dev} (hrow : exec c s = onDev (fun d => d.gemGo g mine body) s) (halive : s.dev.alive = true)
    (hi : GemIssues s.dev g u i k) (hk : k ≠ .illegal) (hmine : mine i k = true) (he : body s.dev u i = e) :
    exec c s = .next (s.ran e) :=
  exec_devRow hrow halive ((Dev.gemGo_issues hi hk hmine).trans he)

end Sys2Proof.Machine
end

section
/-! SUPPORT. The base instructions of a gemma by opcode (10 R311). -/

namespace Sys2Proof.Machine

variable {d : Dev} {g : Nat} {i : RvI}

/-! ### Results -/

/-- The device with a result in the destination register. -/
def Dev.gemSet (d : Dev) (g : Nat) (i : RvI) (w : Word) (p : Bool) : Dev := d.modGemma g (fun y => y.setX i.rd w p)

theorem Dev.gemBase_lui (h : i.op = 0x37) : d.gemBase g i = (d.gemSet g i (BitVec.ofInt 32 i.imm) false).gemStep g i := by
  simp only [Dev.gemBase, h, Dev.gemSet]

theorem Dev.gemBase_auipc (h : i.op = 0x17) : d.gemBase g i =
    (d.gemSet g i (BitVec.ofNat 32 (d.gemma g).pc + BitVec.ofInt 32 i.imm) false).gemStep g i := by
  simp only [Dev.gemBase, h, Dev.gemSet]

theorem Dev.gemBase_opImm (h : i.op = 0x13) : d.gemBase g i =
    (d.gemSet g i (rvAlu i.f3 (i.f3 == 5 && i.f7 == 32) ((d.gemma g).rx i.rs1) (BitVec.ofInt 32 i.imm))
      ((d.gemma g).px i.rs1)).gemStep g i := by
  simp only [Dev.gemBase, h, Dev.gemSet]

theorem Dev.gemBase_op (h : i.op = 0x33) : d.gemBase g i =
    (d.gemSet g i (if i.f7 = 1 then rvMul i.f3 ((d.gemma g).rx i.rs1) ((d.gemma g).rx i.rs2)
        else rvAlu i.f3 (i.f7 == 32) ((d.gemma g).rx i.rs1) ((d.gemma g).rx i.rs2))
      ((d.gemma g).px i.rs1 || (d.gemma g).px i.rs2)).gemStep g i := by
  simp only [Dev.gemBase, h, Dev.gemSet, beq_iff_eq]

theorem Dev.gemBase_fence (h : i.op = 0x0F) : d.gemBase g i = d.gemStep g i := by simp only [Dev.gemBase, h]

/-! ### Jumps and branches -/

theorem Dev.gemBase_jal (h : i.op = 0x6F) : d.gemBase g i =
    (d.gemSet g i (BitVec.ofNat 32 ((d.gemma g).pc + i.size)) false).gemNext g
      (BitVec.ofNat 32 (d.gemma g).pc + BitVec.ofInt 32 i.imm).toNat := by
  simp only [Dev.gemBase, h, Dev.gemSet]

theorem Dev.gemBase_jalr (h : i.op = 0x67) (hp : (d.gemma g).px i.rs1 = false) : d.gemBase g i =
    (d.gemSet g i (BitVec.ofNat 32 ((d.gemma g).pc + i.size)) false).gemNext g
      (((d.gemma g).rx i.rs1 + BitVec.ofInt 32 i.imm).toNat / 2 * 2) := by
  simp only [Dev.gemBase, h, hp]
  rfl

theorem Dev.gemBase_branch (h : i.op = 0x63) (hp : (d.gemma g).px i.rs1 = false) (hq : (d.gemma g).px i.rs2 = false) :
    d.gemBase g i = if rvBranch i.f3 ((d.gemma g).rx i.rs1) ((d.gemma g).rx i.rs2) = true
      then d.gemNext g (BitVec.ofNat 32 (d.gemma g).pc + BitVec.ofInt 32 i.imm).toNat else d.gemStep g i := by
  simp only [Dev.gemBase, h, hp, hq]
  rfl

/-! ### Loads and stores -/

theorem Dev.gemBase_load (h : i.op = 0x03) : d.gemBase g i = d.gemLoad g i false := by simp only [Dev.gemBase, h]
theorem Dev.gemBase_fload (h : i.op = 0x07) : d.gemBase g i = d.gemLoad g i true := by simp only [Dev.gemBase, h]
theorem Dev.gemBase_store (h : i.op = 0x23) : d.gemBase g i = d.gemStore g i false := by simp only [Dev.gemBase, h]
theorem Dev.gemBase_fstore (h : i.op = 0x27) : d.gemBase g i = d.gemStore g i true := by simp only [Dev.gemBase, h]

/-- The address of a base load or store. -/
def Gemma.maddr (x : Gemma) (i : RvI) : Nat := (x.rx i.rs1 + BitVec.ofInt 32 i.imm).toNat

/-- The bytes of a base load or store. -/
def RvI.msize (i : RvI) : Nat := 2 ^ (i.f3 % 4)

/-- A base load or store with a clean, naturally aligned address within SRAM, whose bytes no transfer still needs. -/
structure Dev.MemOk (d : Dev) (g : Nat) (i : RvI) (wr : Bool) : Prop where
  clean : (d.gemma g).px i.rs1 = false
  aligned : (d.gemma g).maddr i % i.msize = 0
  inside : (d.gemma g).maddr i + i.msize ≤ 0x20000
  free : d.gemStall g ((d.gemma g).maddr i) i.msize wr = false

theorem Dev.MemOk.check {wr : Bool} (h : d.MemOk g i wr) :
    memChk (d.gemma g) i.rs1 ((d.gemma g).maddr i) i.msize false = .ok := by
  have hplace : noneOf [((d.gemma g).maddr i % i.msize != 0, 3), (decide (0x20000 < (d.gemma g).maddr i + i.msize), 4)] = true := by
    simp [noneOf, h.aligned, h.inside]
  exact checks_eq_ok rfl rfl h.clean hplace

theorem Dev.gemLoad_performs (fl : Bool) (h : d.MemOk g i false) :
    let b := (d.gemma g).bytes ((d.gemma g).maddr i) i.msize
    d.gemLoad g i fl = (d.modGemma g (fun y =>
      if fl then y.setF i.rd (BitVec.ofNat 32 b.1) b.2 else y.setX i.rd (rvLoad i.f3 b.1) b.2)).gemStep g i := by
  have hchk := h.check
  have hfree := h.free
  simp only [Gemma.maddr, RvI.msize] at hchk hfree ⊢
  simp only [Dev.gemLoad, hchk, hfree, Dev.gemChecked, Bool.false_eq_true, if_false]

theorem Dev.gemStore_performs (fl : Bool) (h : d.MemOk g i true) :
    let v := if fl then ((d.gemma g).rf i.rs2, (d.gemma g).pf i.rs2) else ((d.gemma g).rx i.rs2, (d.gemma g).px i.rs2)
    d.gemStore g i fl =
      (d.modGemma g (fun y => y.putBytes ((d.gemma g).maddr i) i.msize v.1.toNat v.2 false)).gemStep g i := by
  have hchk := h.check
  have hfree := h.free
  simp only [Gemma.maddr, RvI.msize] at hchk hfree ⊢
  simp only [Dev.gemStore, hchk, hfree, Dev.gemChecked, Bool.false_eq_true, if_false]

end Sys2Proof.Machine
end

section
/-! SUPPORT. Integer instructions, loads and stores of a gemma. -/

open Sys2Proof Sys2Proof.Machine

/-- Settles O20: each opcode's row is its equation of the base set. -/
theorem gemmaIntegerResults : Obligations.GemmaIntegerResults := by
  intro s g u i halive hi d x pc imm a b p1 p2 set link
  have hrun {e : Dev} (he : d.gemBase g i = e) : exec (.gemmaBaseInstruction g) s = .next (s.ran e) :=
    exec_gemRow rfl halive hi (by decide) rfl he
  refine ⟨fun h => ?_, fun h => ?_, fun h => ?_, fun h h7 => ?_, fun h h7 => ?_, fun h => ?_, fun h hp => ?_, fun h hp hq => ?_,
    fun h => ?_⟩
  · exact hrun (Dev.gemBase_lui h)
  · exact hrun (Dev.gemBase_auipc h)
  · exact hrun (Dev.gemBase_opImm h)
  · exact hrun ((Dev.gemBase_op h).trans (by rw [if_neg h7]; rfl))
  · exact hrun ((Dev.gemBase_op h).trans (by rw [if_pos h7]; rfl))
  · exact hrun (Dev.gemBase_jal h)
  · exact hrun (Dev.gemBase_jalr h hp)
  · exact hrun (Dev.gemBase_branch h hp hq)
  · exact hrun (Dev.gemBase_fence h)

/-- Settles O22: once its checks pass, a load or store performs its access. -/
theorem gemmaLoadsAndStores : Obligations.GemmaLoadsAndStores := by
  intro s g u i halive hi d x a n hclean halign hin
  have hrun {e : Dev} (he : d.gemBase g i = e) : exec (.gemmaBaseInstruction g) s = .next (s.ran e) :=
    exec_gemRow rfl halive hi (by decide) rfl he
  have hok {wr : Bool} (hfree : d.gemStall g a n wr = false) : d.MemOk g i wr := ⟨hclean, halign, hin, hfree⟩
  refine ⟨fun h hfree => ?_, fun h hfree => ?_, fun h hfree => ?_, fun h hfree => ?_⟩
  · exact hrun ((Dev.gemBase_load h).trans (Dev.gemLoad_performs false (hok hfree)))
  · exact hrun ((Dev.gemBase_fload h).trans (Dev.gemLoad_performs true (hok hfree)))
  · exact hrun ((Dev.gemBase_store h).trans (Dev.gemStore_performs false (hok hfree)))
  · exact hrun ((Dev.gemBase_fstore h).trans (Dev.gemStore_performs true (hok hfree)))
end

section
/-! SUPPORT. The CSR instructions of a gemma (10 R322, R331). -/

namespace Sys2Proof.Machine

variable {d : Dev} {g : Nat} {u : WUnit} {i : RvI}

/-- The CSR that an instruction names. -/
def RvI.csrNo (i : RvI) : Nat := (i.imm % 4096).toNat

/-- The operand of a CSR instruction: its immediate, or a register. -/
def Gemma.csrSrc (x : Gemma) (i : RvI) : Word := if 4 ≤ i.f3 then BitVec.ofNat 32 i.rs1 else x.rx i.rs1

/-- CSRRW writes always, CSRRS and CSRRC where they name an operand. -/
def RvI.csrWrites (i : RvI) : Bool := i.f3 % 4 == 1 || i.rs1 != 0

/-- What a CSR instruction writes over an old value. -/
def Gemma.csrNew (x : Gemma) (i : RvI) (old : Word) : Word :=
  if i.f3 % 4 == 1 then x.csrSrc i else if i.f3 % 4 == 2 then old ||| x.csrSrc i else old &&& ~~~ x.csrSrc i

/-- A CSR instruction on no cycle counter, whose operand is an immediate or a clean register. -/
structure Dev.CsrOk (d : Dev) (g : Nat) (i : RvI) : Prop where
  low : i.csrNo ≠ 0xC00
  high : i.csrNo ≠ 0xC80
  clean : 4 ≤ i.f3 ∨ (d.gemma g).px i.rs1 = false

theorem Dev.gemCsrOp_performs (h : d.CsrOk g i) :
    d.gemCsrOp g u i = (d.modGemma g (fun y =>
      (if i.csrWrites then y.setCsr i.csrNo ((d.gemma g).csrNew i (d.gemCsr g u i.csrNo)) else y).setX i.rd
        (d.gemCsr g u i.csrNo) false)).gemStep g i := by
  have hok : (i.csrWrites && !decide (4 ≤ i.f3) && (d.gemma g).px i.rs1) = false := by
    rcases h.clean with h | h <;> simp [h]
  have hcounter : (i.csrNo == 0xC00 || i.csrNo == 0xC80) = false := by simp [h.low, h.high]
  simp only [RvI.csrNo, RvI.csrWrites] at hok hcounter
  simp only [Dev.gemCsrOp, hok, hcounter, Dev.gemChecked, Gemma.csrNew, Gemma.csrSrc, RvI.csrNo, RvI.csrWrites,
    Bool.false_eq_true, if_false, decide_eq_true_eq]
  rfl

theorem Dev.gemCsrOp_writes {w : Word} (h : d.CsrOk g i) (hw : i.csrWrites = true)
    (hnew : (d.gemma g).csrNew i (d.gemCsr g u i.csrNo) = w) : d.gemCsrOp g u i =
      (d.modGemma g (fun y => (y.setCsr i.csrNo w).setX i.rd (d.gemCsr g u i.csrNo) false)).gemStep g i := by
  rw [Dev.gemCsrOp_performs h, hw, hnew]
  rfl

theorem Dev.gemCsrOp_reads (h : d.CsrOk g i) (hw : i.csrWrites = false) : d.gemCsrOp g u i =
    (d.modGemma g (fun y => y.setX i.rd (d.gemCsr g u i.csrNo) false)).gemStep g i := by
  rw [Dev.gemCsrOp_performs h, hw]
  rfl

end Sys2Proof.Machine
end

section
/-! SUPPORT. System instructions of a gemma. -/

open Sys2Proof Sys2Proof.Machine

/-- Settles O23: ECALL as its exception, a CSR instruction by its operation and whether it writes. -/
theorem gemmaSystemInstructions : Obligations.GemmaSystemInstructions := by
  intro s g u i halive d x
  refine ⟨fun hi => exec_gemRow rfl halive hi (by decide) rfl rfl, fun hi => ?_⟩
  intro n src hl hh hclean old
  have hrun {e : Dev} (he : d.gemCsrOp g u i = e) : exec (.gemmaCsrAccess g) s = .next (s.ran e) :=
    exec_gemRow rfl halive hi (by decide) rfl he
  have hok : d.CsrOk g i := ⟨hl, hh, hclean⟩
  refine ⟨fun h => ?_, fun h hr => ?_, fun h hr => ?_, fun h hr => ?_⟩
  · exact hrun (Dev.gemCsrOp_writes hok (by simp [RvI.csrWrites, h]) (by simp [Gemma.csrNew, h, Gemma.csrSrc, src, x]))
  · exact hrun (Dev.gemCsrOp_writes hok (by simp [RvI.csrWrites, hr])
      (by simp [Gemma.csrNew, h, Gemma.csrSrc, src, old, x, RvI.csrNo, n]))
  · exact hrun (Dev.gemCsrOp_writes hok (by simp [RvI.csrWrites, hr])
      (by simp [Gemma.csrNew, h, Gemma.csrSrc, src, old, x, RvI.csrNo, n]))
  · exact hrun (Dev.gemCsrOp_reads hok (by rcases h with h | h <;> simp [RvI.csrWrites, h, hr]))
end

section
/-! SUPPORT. The bank extension's transfers whose checks pass (10 R319, R323, R326). -/

namespace Sys2Proof.Machine

variable {d : Dev} {g : Nat} {u : WUnit} {i : RvI}

/-- The staging operand of a transfer. -/
abbrev Gemma.sd (x : Gemma) (i : RvI) : Word := x.rx i.rs2

/-- A transfer that reads (wr = false) or writes its staging operand stalls. -/
def Dev.sdStall (d : Dev) (g : Nat) (i : RvI) (wr : Bool) : Bool :=
  d.gemStall g (0x10000 + 64 * sdFirst ((d.gemma g).sd i)) (64 * sdCount ((d.gemma g).sd i)) wr

/-- The transfer of a kind over the staging operand, from an address. -/
def Dev.sdXfer (d : Dev) (g : Nat) (u : WUnit) (i : RvI) (k : XKind) (base : Nat) : Xfer :=
  d.gemXfer g u k base (sdCount ((d.gemma g).sd i)) (1024 + sdFirst ((d.gemma g).sd i))

/-- The registers of a transfer's address and operand are clean, and its bytes lie in staging. -/
structure Gemma.StagingOk (x : Gemma) (i : RvI) : Prop where
  addr : x.px i.rs1 = false
  operand : x.px i.rs2 = false
  inside : sdRange (x.sd i) = false
  clear : sdBad (x.sd i) = false

theorem Gemma.StagingOk.clean {x : Gemma} (h : x.StagingOk i) : (x.px i.rs1 || x.px i.rs2) = false := by
  rw [h.addr, h.operand]; rfl

/-! ### Banks -/

/-- A range of n granules at a bank address lies in one bank, which runs no instruction and none of whose granules an
atomic holds. -/
structure Dev.BankFree (d : Dev) (g a n : Nat) : Prop where
  range : gbaBad a n = false
  idle : d.bankBusy g (gbaLin g a) = false
  unheld : d.gemAtomHeld g (gbaLin g a) n = false

/-- A bank instruction on a free range issues its transfer and runs it. -/
theorem Dev.bankIssue_free {xf : Xfer} {a : Nat} (rt : List ReadTry) (wt : List WriteTry) (h : d.BankFree g a xf.n)
    (hbase : xf.base = gbaLin g a) : d.bankIssue g i xf rt wt =
      ((d.gemStep g i).issue xf (d.gemma g).pc).bankRun g d.nextX rt wt := by
  have hfree : (d.bankBusy g xf.base || d.gemAtomHeld g xf.base xf.n) = false := by rw [hbase, h.idle, h.unheld]; rfl
  simp only [Dev.bankIssue, hfree, Bool.false_eq_true, if_false]

theorem Dev.doGbLd_performs (rt : List ReadTry) (hrd : i.rd = 0) (h7 : i.f7 < 2) (hs : (d.gemma g).StagingOk i)
    (hb : d.BankFree g ((d.gemma g).rx i.rs1).toNat (sdCount ((d.gemma g).sd i)))
    (hfree : d.sdStall g i true = false) :
    d.doGbLd g u i rt = ((d.gemStep g i).issue
      { d.sdXfer g u i .gLd (gbaLin g ((d.gemma g).rx i.rs1).toNat) with lu := i.f7 == 1 } (d.gemma g).pc).bankRun g d.nextX rt [] := by
  have hcodes : noneOf [(i.rd != 0 || decide (2 ≤ i.f7), 1)] = true := by simp [noneOf, hrd, h7]
  have hlate : noneOf [(sdRange ((d.gemma g).sd i), 4), (gbaBad ((d.gemma g).rx i.rs1).toNat (sdCount ((d.gemma g).sd i)) ||
      sdBad ((d.gemma g).sd i), 6)] = true := by simp [noneOf, hs.inside, hs.clear, hb.range]
  rw [Dev.doGbLd, Dev.gemChecked_ok (checks_eq_ok hcodes rfl hs.clean hlate)]
  exact (if_neg (Bool.eq_false_iff.1 hfree)).trans (Dev.bankIssue_free rt [] hb rfl)

theorem Dev.doGbSt_performs (wt : List WriteTry) (hrd : i.rd = 0) (h7 : i.f7 = 0) (hs : (d.gemma g).StagingOk i)
    (hb : d.BankFree g ((d.gemma g).rx i.rs1).toNat (sdCount ((d.gemma g).sd i)))
    (hfree : d.sdStall g i false = false) :
    d.doGbSt g u i wt = ((d.gemStep g i).issue
      ((d.sdXfer g u i .gSt (gbaLin g ((d.gemma g).rx i.rs1).toNat)).capture (d.gemma g)) (d.gemma g).pc).bankRun g d.nextX [] wt := by
  have hcodes : noneOf [(i.rd != 0 || i.f7 != 0, 1)] = true := by simp [noneOf, hrd, h7]
  have hlate : noneOf [(sdRange ((d.gemma g).sd i), 4), (gbaBad ((d.gemma g).rx i.rs1).toNat (sdCount ((d.gemma g).sd i)) ||
      sdBad ((d.gemma g).sd i), 6)] = true := by simp [noneOf, hs.inside, hs.clear, hb.range]
  rw [Dev.doGbSt, Dev.gemChecked_ok (checks_eq_ok hcodes rfl hs.clean hlate)]
  exact (if_neg (Bool.eq_false_iff.1 hfree)).trans (Dev.bankIssue_free [] wt hb rfl)

/-- The granules that a fill writes. -/
def Gemma.fillCount (x : Gemma) (i : RvI) : Nat := cnt (bf (x.rx i.rs2) 7 0) 256

theorem Dev.doGbFill_performs (wt : List WriteTry) (hrd : i.rd = 0) (h7 : i.f7 = 0) (ha : (d.gemma g).px i.rs1 = false)
    (ho : (d.gemma g).px i.rs2 = false) (hb : d.BankFree g ((d.gemma g).rx i.rs1).toNat ((d.gemma g).fillCount i)) :
    d.doGbFill g u i wt = ((d.gemStep g i).issue
      { d.gemXfer g u .gFill (gbaLin g ((d.gemma g).rx i.rs1).toNat) ((d.gemma g).fillCount i) 0 with
        data := (List.range ((d.gemma g).fillCount i)).map (fun j => (j, fillGran ((d.gemma g).c 0x806))) }
      (d.gemma g).pc).bankRun g d.nextX [] wt := by
  have hcodes : noneOf [(i.rd != 0 || i.f7 != 0, 1)] = true := by simp [noneOf, hrd, h7]
  have hclean : ((d.gemma g).px i.rs1 || (d.gemma g).px i.rs2) = false := by rw [ha, ho]; rfl
  have hlate : noneOf [(gbaBad ((d.gemma g).rx i.rs1).toNat ((d.gemma g).fillCount i), 6)] = true := by simp [noneOf, hb.range]
  rw [Gemma.fillCount] at *
  rw [Dev.doGbFill, Dev.gemChecked_ok (checks_eq_ok hcodes rfl hclean hlate)]
  exact Dev.bankIssue_free [] wt hb rfl

theorem Dev.doGbWait_performs (hrd : i.rd = 0) (h1 : i.rs1 = 0) (h2 : i.rs2 = 0) (h7 : i.f7 < 32) :
    d.doGbWait g i = if d.gemOutstanding g i.f7 = true then d.gemWait g else d.gemStep g i := by
  have hcodes : noneOf [(i.rd != 0 || i.rs1 != 0 || i.rs2 != 0 || decide (32 ≤ i.f7), 1)] = true := by
    simp [noneOf, hrd, h1, h2, h7]
  rw [Dev.doGbWait, Dev.gemChecked_ok (checks_eq_ok hcodes rfl rfl rfl)]

/-! ### The cache path -/

@[simp] theorem Dev.gemRemote_local (x : Gemma) : d.gemRemote x false = none := rfl

/-- An access over the cache path at a 64-B-aligned address, with room on the path. -/
structure Dev.PathOk (d : Dev) (g : Nat) (i : RvI) : Prop extends Gemma.StagingOk (d.gemma g) i where
  aligned : (d.gemma g).caddr i.rs1 % 64 = 0
  room : d.cachePath g < 8

/-- Its checks after its encoding, where it stays in this module. -/
theorem Dev.PathOk.late (h : d.PathOk g i) : noneOf [((d.gemma g).caddr i.rs1 % 64 != 0, 3), (sdRange ((d.gemma g).sd i), 4),
    (sdBad ((d.gemma g).sd i), 6), (false && decide (4095 < ((d.gemma g).c 0x801).toNat), 8)] = true := by
  simp [noneOf, h.aligned, h.inside, h.clear]

theorem Dev.PathOk.goes {wr : Bool} (h : d.PathOk g i) (hfree : d.sdStall g i wr = false) : ¬ (decide (8 ≤ d.cachePath g) ||
    d.gemStall g (0x10000 + 64 * sdFirst ((d.gemma g).sd i)) (64 * sdCount ((d.gemma g).sd i)) wr) = true := by
  change ¬ (decide (8 ≤ d.cachePath g) || d.sdStall g i wr) = true
  simp [h.room, hfree]

/-- GB.CRD and GB.CWR. -/
theorem Dev.doGbC_performs (wr : Bool) (hrd : i.rd = 0) (h7 : i.f7 < 4) (hlu : wr = true → i.f7 % 2 = 0) (h : d.PathOk g i)
    (hfree : d.sdStall g i (!wr) = false) :
    let xf := { d.sdXfer g u i (if wr then .gCwr else .gCrd) ((d.gemma g).caddr i.rs1) with
        lu := !wr && i.f7 % 2 == 1, host := if i.f7 / 2 % 2 = 1 then some d.swizzle else none }
    d.doGbC g u i wr = (d.gemStep g i).issue (if wr then xf.capture (d.gemma g) else xf) (d.gemma g).pc := by
  have hrem : (i.f7 / 4 % 2 == 1) = false := by rw [beq_eq_false_iff_ne]; omega
  have hcodes : noneOf [(i.rd != 0 || decide (8 ≤ i.f7) || (wr && i.f7 % 2 == 1) || (!wr && i.f7 % 2 == 1 && false), 1)] = true := by
    have h8 : ¬ 8 ≤ i.f7 := by omega
    cases wr <;> simp [noneOf, hrd, h8, hlu]
  simp only [Dev.doGbC, hrem]
  rw [Dev.gemChecked_ok (checks_eq_ok hcodes rfl h.clean h.late), if_neg (h.goes hfree)]
  simp only [Dev.gemRemote_local, beq_iff_eq]
  rfl

theorem Dev.doGbAtom_performs (hrd : i.rd = 0) (h7 : i.f7 < 16) (hop : i.f7 % 4 ≠ 3) (hfmt : i.f7 / 4 % 4 ≠ 3) (h : d.PathOk g i)
    (hfree : d.sdStall g i false = false) :
    d.doGbAtom g u i = (d.gemStep g i).issue
      { (d.sdXfer g u i .gAtom ((d.gemma g).caddr i.rs1)).capture (d.gemma g) with
        aop := i.f7 % 4, afmt := i.f7 / 4 % 4 } (d.gemma g).pc := by
  have hrem : (i.f7 / 16 % 2 == 1) = false := by rw [beq_eq_false_iff_ne]; omega
  have hcodes : noneOf [(i.rd != 0 || decide (32 ≤ i.f7), 1), (i.f7 % 4 == 3 || i.f7 / 4 % 4 == 3, 7)] = true := by
    have h32 : ¬ 32 ≤ i.f7 := by omega
    simp [noneOf, hrd, h32, hop, hfmt]
  simp only [Dev.doGbAtom, hrem]
  rw [Dev.gemChecked_ok (checks_eq_ok hcodes rfl h.clean h.late), if_neg (h.goes hfree)]
  rfl

end Sys2Proof.Machine
end

section
/-! SUPPORT. Transfers of a gemma. -/

open Sys2Proof Sys2Proof.Machine

/-- Settles O25: each row as its instruction, whose checks pass on a free range. -/
theorem gemmaBankTransfers : Obligations.GemmaBankTransfers := by
  intro s g u i rt wt halive hi hrd d x a sd n clean free staging xf go
  refine ⟨fun h3 h7 hclean hfree hstaging hstall => ?_, fun h3 h7 hclean hfree hstaging hstall => ?_,
    fun h3 h7 hclean hfree => ?_, fun h3 h1 h2 h7 => ?_⟩
  · obtain ⟨⟨ha, ho⟩, ⟨hrange, hidle, hheld⟩, hin, hclear⟩ := And.intro hclean (And.intro hfree hstaging)
    exact exec_gemRow rfl halive hi (by decide) (by simp [h3])
      (Dev.doGbLd_performs rt hrd h7 ⟨ha, ho, hin, hclear⟩ ⟨hrange, hidle, hheld⟩ hstall)
  · obtain ⟨⟨ha, ho⟩, ⟨hrange, hidle, hheld⟩, hin, hclear⟩ := And.intro hclean (And.intro hfree hstaging)
    exact exec_gemRow rfl halive hi (by decide) (by simp [h3])
      (Dev.doGbSt_performs wt hrd h7 ⟨ha, ho, hin, hclear⟩ ⟨hrange, hidle, hheld⟩ hstall)
  · obtain ⟨⟨ha, ho⟩, hrange, hidle, hheld⟩ := And.intro hclean hfree
    exact exec_gemRow rfl halive hi (by decide) (by simp [h3])
      (Dev.doGbFill_performs wt hrd h7 ha ho ⟨hrange, hidle, hheld⟩)
  · exact exec_gemRow rfl halive hi (by decide) (by simp [h3]) (Dev.doGbWait_performs hrd h1 h2 h7)

/-- Settles O26: each row as its instruction, whose checks pass in this module. -/
theorem gemmaCacheTransfers : Obligations.GemmaCacheTransfers := by
  intro s g u i halive hi hrd d x a sd n stall xf go host ha ho halign hin hclear hroom
  have hok : d.PathOk g i := ⟨⟨ha, ho, hin, hclear⟩, halign, hroom⟩
  refine ⟨fun h3 h7 hstall => ?_, fun h3 h7 h2 hstall => ?_, fun h3 h7 hop hfmt hstall => ?_⟩
  · exact exec_gemRow rfl halive hi (by decide) (by simp [h3])
      (Dev.doGbC_performs false hrd h7 (fun h => absurd h (by decide)) hok hstall)
  · exact exec_gemRow rfl halive hi (by decide) (by simp [h3]) (Dev.doGbC_performs true hrd h7 (fun _ => h2) hok hstall)
  · exact exec_gemRow rfl halive hi (by decide) (by simp [h3]) (Dev.doGbAtom_performs hrd h7 hop hfmt hok hstall)
end

section
/-! SUPPORT. The vector instructions of a gemma with a staging operand (10 R320, R324). -/

namespace Sys2Proof.Machine

variable {d : Dev} {g : Nat} {i : RvI}

/-- A poisoned element among those of the staging operand. -/
def Gemma.elemsPois (x : Gemma) (a : Nat) : Bool := (x.elems a).any (fun e => e.2.2)

theorem Dev.doGvLd_performs (hok : d.opChk g i.rs1 (hi16 i.rd || i.rs2 != 0) false false = .ok) :
    let x := d.gemma g
    let a := (x.rx i.rs1).toNat
    d.doGvLd g i = d.gvUpdate g i (fmtInt x.gfmt) (x.elemsPois a) (fun l => gvLoaded x.gfmt (x.elem a l)) := by
  rw [Dev.doGvLd, Dev.gemChecked_ok hok]
  rfl

theorem Dev.doGvSt_performs (hok : d.opChk g i.rs1 (i.rd != 0 || hi16 i.rs2) (clsBad (d.gemma g) i.rs2 (fmtInt (d.gemma g).gfmt))
    true = .ok) :
    let r := (d.gemma g).gvStored ((d.gemma g).rx i.rs1).toNat ((d.gemma g).vec i.rs2) (outCfg (d.arrCtrl (g / 8)))
    d.doGvSt g i = ((d.setGemma g r.1).modGemma g (fun y => y.flagIn (gvFlag 0#3 r.2))).gemStep g i := by
  rw [Dev.doGvSt, Dev.gemChecked_ok hok]

/-- In FP32 a vector's words are stored unchanged, and none is clamped. -/
theorem Gemma.gvStored_fp32 {x : Gemma} (h : x.gfmt = 12) (a : Nat) (v : VReg) (c : OutCfg) :
    x.gvStored a v c = (x.putBytes a ((x.c 0x803).toNat * grpBytes 12) (gvPack 12 (((List.range (x.c 0x803).toNat).flatMap (fun q =>
      (List.range 32).map (fun l => v.at' (32 * q + l)))).map (fun e => e.toNat))) v.pois true, false) := by
  have hmx : fmtMx 12 = false := rfl
  have hcodes (ws : List Word) : gvCodes 12 c ws = (ws.map (fun e => e.toNat), false) := by
    simp [gvCodes, show fmtInt 12 = false from rfl, Function.comp_def]
  simp only [Gemma.gvStored, h, hmx, hcodes, Bool.false_eq_true, if_false]

/-- GV.DOT's sum of a value and exact products, with its two cases. -/
theorem dotSum_eq (c : Val) (l : List (Val × Val)) :
    let nan (e : Val × Val) : Bool := e.1.isNan || e.2.isNan
    let sum := (l.filter (fun e => !nan e)).foldl (fun m e => m.add (e.1.mul e.2)) (if c.isNan = true then .num false 0 0 else c)
    dotSum c l = if c.isNan = true ∨ l.any nan = true then (canonNan, if sum.isNan = true then 1#3 else 0#3) else roundCell sum false := by
  simp only [dotSum, Bool.not_or, Bool.or_eq_true]
  rfl

theorem Dev.doGvDot_performs (hok : d.opChk g i.rs1 (hi16 i.rs2) (fmtInt (d.gemma g).gfmt || clsBad (d.gemma g) i.rs2 false) false
    = .ok) :
    let x := d.gemma g
    let a := (x.rx i.rs1).toNat
    let r := dotSum (f32 (x.rf i.rd)) ((List.range x.vl).map (fun l => (f32 ((x.vec i.rs2).at' l), codeVal x.gfmt (x.elem a l))))
    d.doGvDot g i = (d.modGemma g (fun y =>
      (y.setF i.rd r.1 ((x.vec i.rs2).pois || x.pf i.rd || x.elemsPois a)).flagIn (gvFlag r.2 false))).gemStep g i := by
  rw [Dev.doGvDot, Dev.gemChecked_ok hok]
  rfl

theorem Dev.doGvAxpy_performs (hok : d.opChk g i.rs1 (hi16 i.rd) (fmtInt (d.gemma g).gfmt || clsBad (d.gemma g) i.rd false) false
    = .ok) :
    let x := d.gemma g
    let a := (x.rx i.rs1).toNat
    d.doGvAxpy g i = d.gvUpdate g i false (x.pf i.rs2 || (x.vec i.rd).pois || x.elemsPois a)
      (fun l => cellFloat 0 ((x.vec i.rd).at' l) (f32 (x.rf i.rs2)) (codeVal x.gfmt (x.elem a l))) := by
  rw [Dev.doGvAxpy, Dev.gemChecked_ok hok]
  rfl

/-- Element l of GV.MINADD (mode 3) and GV.MAXADD (mode 4), in the class of the operand's format (04 R117). -/
def Dev.gvBest (d : Dev) (g : Nat) (i : RvI) (mode l : Nat) : Word × CellFlags :=
  let x := d.gemma g
  let e := x.elem (x.rx i.rs1).toNat l
  let v := (x.vec i.rs2).at' l
  if fmtInt x.gfmt then cellInt mode ((d.arrCtrl (g / 8)).getLsbD 3) ((x.vec i.rd).at' l) v.toInt (twos (fmtBits x.gfmt) e.1) 0 0
  else cellFloat mode ((x.vec i.rd).at' l) (f32 v) (codeVal x.gfmt e)

theorem Dev.gvMinMax_performs (mode : Nat) (hok : d.opChk g i.rs1 (hi16 i.rd || hi16 i.rs2)
    (clsBad (d.gemma g) i.rd (fmtInt (d.gemma g).gfmt) || clsBad (d.gemma g) i.rs2 (fmtInt (d.gemma g).gfmt)) false = .ok) :
    let x := d.gemma g
    d.gvMinMax g i mode = d.gvUpdate g i (fmtInt x.gfmt)
      ((x.vec i.rs2).pois || (x.vec i.rd).pois || x.elemsPois (x.rx i.rs1).toNat) (d.gvBest g i mode) := by
  rw [Dev.gvMinMax, Dev.gemChecked_ok hok]
  rfl

end Sys2Proof.Machine
end

section
/-! SUPPORT. Vector instructions with a staging operand. -/

open Sys2Proof Sys2Proof.Machine

/-- Settles O27: each row as its instruction, whose checks pass; the store in FP32 by `Gemma.gvStored_fp32`. -/
theorem gemmaVectorOperands : Obligations.GemmaVectorOperands := by
  intro s g u i halive hi d x f int a v w pe elem best
  refine ⟨fun h7 hok => ?_, fun h7 hok => ⟨?_, fun hf => ?_⟩, fun h7 hok => ?_, fun h7 hok => ?_, fun h7 hok => ?_,
    fun h7 hok => ?_⟩
  · exact exec_gemRow rfl halive hi (by decide) (by simp [h7]) (Dev.doGvLd_performs hok)
  · exact exec_gemRow rfl halive hi (by decide) (by simp [h7]) (Dev.doGvSt_performs hok)
  · rw [hf]
    exact Gemma.gvStored_fp32 hf a w _
  · intro ps c nan sum r
    have hr : r = dotSum c ps := (dotSum_eq c ps).symm
    rw [hr]
    exact exec_gemRow rfl halive hi (by decide) (by simp [h7]) (Dev.doGvDot_performs hok)
  · exact exec_gemRow rfl halive hi (by decide) (by simp [h7]) (Dev.doGvAxpy_performs hok)
  · exact exec_gemRow rfl halive hi (by decide) (by simp [h7]) (Dev.gvMinMax_performs 3 hok)
  · exact exec_gemRow rfl halive hi (by decide) (by simp [h7]) (Dev.gvMinMax_performs 4 hok)
end

section
/-! SUPPORT. The vector instructions of a gemma among registers (10 R320, R324). -/

namespace Sys2Proof.Machine

variable {d : Dev} {g : Nat} {i : RvI}

theorem hi16_of_lt {n : Nat} (h : n < 16) : hi16 n = false := decide_eq_false (Nat.not_le.2 h)

theorem clsBad_of_int {x : Gemma} {n : Nat} {c : Bool} (h : (x.vec n).int = c) : clsBad x n c = false := by
  rw [clsBad, h, bne_self_eq_false]

/-! ### Updates -/

theorem Dev.doGvMac_performs (hd : i.rd < 16) (h1 : i.rs1 < 16) (h2 : i.rs2 < 16) (hv : ((d.gemma g).vec i.rd).int = false)
    (ha : ((d.gemma g).vec i.rs1).int = false) (hb : ((d.gemma g).vec i.rs2).int = false) :
    let x := d.gemma g
    d.doGvMac g i = d.gvUpdate g i false ((x.vec i.rd).pois || (x.vec i.rs1).pois || (x.vec i.rs2).pois)
      (fun l => cellFloat 0 ((x.vec i.rd).at' l) (f32 ((x.vec i.rs1).at' l)) (f32 ((x.vec i.rs2).at' l))) := by
  have hcodes : noneOf [(hi16 i.rd || hi16 i.rs1 || hi16 i.rs2, 1), (clsBad (d.gemma g) i.rd false ||
      clsBad (d.gemma g) i.rs1 false || clsBad (d.gemma g) i.rs2 false, 7)] = true := by
    simp [noneOf, hi16_of_lt hd, hi16_of_lt h1, hi16_of_lt h2, clsBad_of_int hv, clsBad_of_int ha, clsBad_of_int hb]
  rw [Dev.doGvMac, Dev.gemChecked_ok (checks_eq_ok hcodes rfl rfl rfl)]

theorem Dev.doGvScal_performs (hd : i.rd < 16) (h1 : i.rs1 < 16) (ha : ((d.gemma g).vec i.rs1).int = false) :
    let x := d.gemma g
    d.doGvScal g i = d.gvUpdate g i false ((x.vec i.rs1).pois || x.pf i.rs2) (fun l =>
      roundCell ((f32 ((x.vec i.rs1).at' l)).mul (f32 (x.rf i.rs2)))
        ((f32 ((x.vec i.rs1).at' l)).isNan || (f32 (x.rf i.rs2)).isNan)) := by
  have hcodes : noneOf [(hi16 i.rd || hi16 i.rs1, 1), (clsBad (d.gemma g) i.rs1 false, 7)] = true := by
    simp [noneOf, hi16_of_lt hd, hi16_of_lt h1, clsBad_of_int ha]
  rw [Dev.doGvScal, Dev.gemChecked_ok (checks_eq_ok hcodes rfl rfl rfl)]

/-- The fill value by code: 0, the greatest, the least of the class (04 R118). -/
theorem gvFill_of_code {c n : Nat} (hc : c < 3) : gvFill c (n == 1) =
    [0#32, if n = 1 then 0x7FFFFFFF#32 else 0x7F800000#32].getD c (if n = 1 then 0x80000000#32 else 0xFF800000#32) := by
  interval_cases c <;> simp [gvFill]

theorem Dev.doGvZero_performs (hd : i.rd < 16) (h1 : i.rs1 < 3) (h2 : i.rs2 < 2) :
    d.doGvZero g i = d.gvUpdate g i (i.rs2 == 1) false (fun _ => (gvFill i.rs1 (i.rs2 == 1), 0#3)) := by
  have hcodes : noneOf [(hi16 i.rd || decide (3 ≤ i.rs1) || decide (2 ≤ i.rs2), 1)] = true := by
    simp [noneOf, hi16_of_lt hd, h1, h2]
  rw [Dev.doGvZero, Dev.gemChecked_ok (checks_eq_ok hcodes rfl rfl rfl)]

/-! ### Reductions -/

/-- A reduction of a vector that exists names no second operand. -/
theorem reduction_codes (h1 : i.rs1 < 16) (h2 : i.rs2 = 0) : noneOf [(hi16 i.rs1 || i.rs2 != 0, 1)] = true := by
  simp [noneOf, hi16_of_lt h1, h2]

theorem Dev.doGvRsum_performs (h1 : i.rs1 < 16) (h2 : i.rs2 = 0) (ha : ((d.gemma g).vec i.rs1).int = false) :
    let x := d.gemma g
    d.doGvRsum g i = (d.modGemma g (fun y => (y.setF i.rd (gvSum (x.lane i.rs1)).1 (x.vec i.rs1).pois).flagIn
      (gvFlag (gvSum (x.lane i.rs1)).2 false))).gemStep g i := by
  have hcodes : noneOf [(hi16 i.rs1 || i.rs2 != 0, 1), (clsBad (d.gemma g) i.rs1 false, 7)] = true := by
    simp [noneOf, hi16_of_lt h1, h2, clsBad_of_int ha]
  rw [Dev.doGvRsum, Dev.gemChecked_ok (checks_eq_ok hcodes rfl rfl rfl)]

theorem Dev.gvExtreme_performs (mx : Bool) (h1 : i.rs1 < 16) (h2 : i.rs2 = 0) :
    let x := d.gemma g
    let v := x.vec i.rs1
    d.gvExtreme g i mx = (d.modGemma g (fun y => if v.int then y.setX i.rd (iPick mx (x.lane i.rs1)) v.pois
      else y.setF i.rd (fPick mx (x.lane i.rs1)) v.pois)).gemStep g i := by
  rw [Dev.gvExtreme, Dev.gemChecked_ok (checks_eq_ok (reduction_codes h1 h2) rfl rfl rfl)]

theorem Dev.gvArg_performs (mx : Bool) (h1 : i.rs1 < 16) (h2 : i.rs2 = 0) :
    let x := d.gemma g
    let v := x.vec i.rs1
    d.gvArg g i mx = (d.modGemma g (fun y => y.setX i.rd (argPick mx v.int (x.lane i.rs1)) v.pois)).gemStep g i := by
  rw [Dev.gvArg, Dev.gemChecked_ok (checks_eq_ok (reduction_codes h1 h2) rfl rfl rfl)]

theorem gvSum_singleton (c : Word) : gvSum [c] = (if (f32 c).isNan = true then canonNan else c, 0#3) := rfl

/-- One more element is added to the sum of those before it, and rounded. -/
theorem gvSum_concat {l : List Word} (h : l ≠ []) (c : Word) :
    let m := gvSum l
    let r := roundCell ((f32 m.1).add (f32 c)) ((f32 m.1).isNan || (f32 c).isNan)
    gvSum (l ++ [c]) = (r.1, m.2 ||| r.2) := by
  obtain ⟨a, t, rfl⟩ := List.exists_cons_of_ne_nil h
  simp only [gvSum, List.cons_append, List.foldl_append, List.foldl_cons, List.foldl_nil]

end Sys2Proof.Machine
end

section
/-! SUPPORT. Vector instructions among registers. -/

open Sys2Proof Sys2Proof.Machine

/-- Settles O28: each row as its instruction, whose checks pass, and the sum by its last element. -/
theorem gemmaVectorRegisters : Obligations.GemmaVectorRegisters := by
  refine ⟨?_, gvSum_singleton, fun _ c h => gvSum_concat h c⟩
  intro s g u i halive hi d x a b v lane
  refine ⟨fun h7 hd h1 h2 hv ha hb => ?_, fun h7 hd h1 ha => ?_, fun h7 hd h1 h2 => ?_, fun h7 h1 h2 ha => ?_,
    fun h7 h1 h2 => ?_, fun h7 h1 h2 => ?_, fun h7 h1 h2 => ?_, fun h7 h1 h2 => ?_⟩
  · exact exec_gemRow rfl halive hi (by decide) (by simp [h7]) (Dev.doGvMac_performs hd h1 h2 hv ha hb)
  · exact exec_gemRow rfl halive hi (by decide) (by simp [h7]) (Dev.doGvScal_performs hd h1 ha)
  · rw [← gvFill_of_code h1]
    exact exec_gemRow rfl halive hi (by decide) (by simp [h7]) (Dev.doGvZero_performs hd h1 h2)
  · exact exec_gemRow rfl halive hi (by decide) (by simp [h7]) (Dev.doGvRsum_performs h1 h2 ha)
  · exact exec_gemRow rfl halive hi (by decide) (by simp [h7]) (Dev.gvExtreme_performs false h1 h2)
  · exact exec_gemRow rfl halive hi (by decide) (by simp [h7]) (Dev.gvExtreme_performs true h1 h2)
  · exact exec_gemRow rfl halive hi (by decide) (by simp [h7]) (Dev.gvArg_performs false h1 h2)
  · exact exec_gemRow rfl halive hi (by decide) (by simp [h7]) (Dev.gvArg_performs true h1 h2)
end

section
/-! SUPPORT. The control instructions of a gemma whose checks pass (10 R321, R324, R329, R332). -/

namespace Sys2Proof.Machine

variable {d : Dev} {g : Nat} {u : WUnit} {i : RvI}

/-! ### Commit, end and fence -/

/-- The encoding of an instruction with no operand. -/
def RvI.bare (i : RvI) : Bool := i.rd == 0 && i.rs1 == 0 && i.rs2 == 0 && i.f7 == 0

theorem RvI.bare_of_zero (h : i.rd = 0 ∧ i.rs1 = 0 ∧ i.rs2 = 0 ∧ i.f7 = 0) : i.bare = true := by
  obtain ⟨hd, h1, h2, h7⟩ := h
  simp [RvI.bare, hd, h1, h2, h7]

/-- The first gemma at its unit's barrier waits there with its ID. -/
theorem Dev.doGbCommit_first {id : Nat} {clean : Bool} (hclean : clean = true) (hid : id ≠ 0xFFFF) (hdone : d.gemDone g = true)
    (hfail : (d.gemma g).wrFail = 0) (hbar : d.barrierId u = none) : d.doGbCommit g u id clean =
      d.modGemma g (fun y => { y with barrier := some id, ip := (d.gemma g).pc, waiting := true }) := by
  have hcodes : noneOf [(id == 0xFFFF || !clean, 1)] = true := by simp [noneOf, hclean, hid]
  rw [Dev.doGbCommit, Dev.gemChecked_ok (checks_eq_ok hcodes rfl rfl rfl)]
  simp only [hdone, hfail, hbar, Bool.not_true, bne_self_eq_false, Bool.false_eq_true, if_false]
  rfl

/-- GB.FEND: the gemma's part of its unit ends, and the unit with the last. -/
theorem Dev.doGbFend_performs {clean : Bool} (hclean : clean = true) (hdone : d.gemDone g = true)
    (hfail : (d.gemma g).wrFail = 0) :
    let e := (d.inc (cGem g 0)).modGemma g (fun y =>
      { y with fend := true, running := false, ip := (d.gemma g).pc, waiting := true })
    d.doGbFend g u clean = if u.gemList.all (fun k => (e.gemma k).fend) = true then e.endUnit u.key 0 0 0 else e := by
  have hcodes : noneOf [(!clean, 1)] = true := by simp [noneOf, hclean]
  rw [Dev.doGbFend, Dev.gemChecked_ok (checks_eq_ok hcodes rfl rfl rfl)]
  simp only [hdone, hfail, Bool.not_true, bne_self_eq_false, Bool.false_eq_true, if_false]
  rfl

theorem Dev.doGbFence_performs {clean : Bool} (hclean : clean = true) :
    d.doGbFence g i clean = if d.gemDone g = true then d.gemStep g i else d.gemWait g := by
  have hcodes : noneOf [(!clean, 1)] = true := by simp [noneOf, hclean]
  rw [Dev.doGbFence, Dev.gemChecked_ok (checks_eq_ok hcodes rfl rfl rfl)]

/-! ### Signals and waits -/

theorem Dev.doGbSig_performs (hrd : i.rd = 0) (h7 : i.f7 = 0) (hfail : (d.gemma g).wrFail = 0) (hclean : (d.gemma g).px i.rs1 = false)
    (halign : (d.gemma g).caddr i.rs1 % 4 = 0) (hroom : d.cachePath g < 8) :
    let x := d.gemma g
    let a := x.caddr i.rs1
    d.doGbSig g u i = (d.gemStep g i).issue { d.gemXfer g u .gSig a 1 0 with
      size := 4, mask := byteMask (a % 64) 4, afmt := 2
      data := [(0, BitVec.ofNat 512 ((x.rx i.rs2).toNat * 2 ^ (8 * (a % 64))))]
      pois := if x.px i.rs2 = true then [0] else [] } x.pc := by
  have hrem : (i.f7 == 1) = false := by simp [h7]
  have hcodes : noneOf [(i.rd != 0 || decide (2 ≤ i.f7), 1)] = true := by simp [noneOf, hrd, h7]
  have hlate : noneOf [((d.gemma g).caddr i.rs1 % 4 != 0, 3), (false && decide (4095 < ((d.gemma g).c 0x801).toNat), 8)] = true := by
    simp [noneOf, halign]
  simp only [Dev.doGbSig, hrem]
  rw [Dev.gemChecked_ok (checks_eq_ok hcodes rfl hclean hlate)]
  simp only [hfail, bne_self_eq_false, Bool.false_eq_true, if_false, Nat.not_le.2 hroom]
  rfl

/-- A GB.WAITM whose read is not under way is issued and holds issue. -/
theorem Dev.doGbWaitm_performs (hrd : i.rd = 0) (h7 : i.f7 < 6) (h1 : (d.gemma g).px i.rs1 = false) (h2 : (d.gemma g).px i.rs2 = false)
    (halign : (d.gemma g).caddr i.rs1 % 4 = 0)
    (hnew : d.xfers.any (fun y => y.mid == gemmaMid g && y.kind == .gWaitm) = false) :
    let x := d.gemma g
    let a := x.caddr i.rs1
    d.doGbWaitm g u i = (d.gemWait g).issue { d.gemXfer g u .gWaitm a 1 0 with
      size := 4, mask := byteMask (a % 64) 4, aop := i.f7, data := [(1, (x.rx i.rs2).setWidth 512)] } x.pc := by
  have hrem : (i.f7 / 8 % 2 == 1) = false := by rw [beq_eq_false_iff_ne]; omega
  have hop : i.f7 % 8 = i.f7 := Nat.mod_eq_of_lt (by omega)
  have hcodes : noneOf [(i.rd != 0 || decide (16 ≤ i.f7) || decide (6 ≤ i.f7), 1)] = true := by
    simp [noneOf, hrd]; omega
  have hclean : ((d.gemma g).px i.rs1 || (d.gemma g).px i.rs2) = false := by rw [h1, h2]; rfl
  have hlate : noneOf [((d.gemma g).caddr i.rs1 % 4 != 0, 3), (false && decide (4095 < ((d.gemma g).c 0x801).toNat), 8)] = true := by
    simp [noneOf, halign]
  simp only [Dev.doGbWaitm, hnew, hrem, hop, Bool.false_eq_true, if_false]
  rw [Dev.gemChecked_ok (checks_eq_ok hcodes rfl hclean hlate)]
  rfl

/-! ### In-flight regions, checksums and 2^x -/

/-- GB.INFL with a range of whole granules of one bank, or of none. -/
theorem Dev.doGbInfl_performs (hrd : i.rd = 0) (h7 : i.f7 < 4) (h1 : (d.gemma g).px i.rs1 = false) (h2 : (d.gemma g).px i.rs2 = false)
    (hmax : ((d.gemma g).rx i.rs1).toNat < 2 ^ 29) (ha : ((d.gemma g).rx i.rs1).toNat % 64 = 0)
    (hn : ((d.gemma g).rx i.rs2).toNat % 64 = 0)
    (hbank : ((d.gemma g).rx i.rs1).toNat % 2 ^ 27 + ((d.gemma g).rx i.rs2).toNat ≤ 2 ^ 27) :
    let r := ((d.gemma g).rx i.rs1).toNat
    let n := ((d.gemma g).rx i.rs2).toNat
    d.doGbInfl g i = (d.modGemma g (fun y =>
      { y with infl := if n = 0 then y.infl.drop i.f7 else y.infl.put i.f7 (gbaLin g r, n) })).gemStep g i := by
  intro r n
  have hcodes : noneOf [(i.rd != 0 || decide (4 ≤ i.f7), 1)] = true := by simp [noneOf, hrd, h7]
  have hclean : ((d.gemma g).px i.rs1 || (d.gemma g).px i.rs2) = false := by rw [h1, h2]; rfl
  have hlate : noneOf [(decide (2 ^ 29 ≤ r) || r % 64 != 0 || n % 64 != 0 || decide (2 ^ 27 < r % 2 ^ 27 + n), 6)] = true := by
    have hin : ¬ 2 ^ 29 ≤ r := Nat.not_le.2 hmax
    have hend : ¬ 2 ^ 27 < r % 2 ^ 27 + n := Nat.not_lt.2 hbank
    simp only [noneOf, List.all_cons, List.all_nil, decide_eq_false hin, decide_eq_false hend, show r % 64 = 0 from ha,
      show n % 64 = 0 from hn]
    rfl
  rw [Dev.doGbInfl, Dev.gemChecked_ok (checks_eq_ok hcodes rfl hclean hlate)]
  simp only [Nat.mod_eq_of_lt h7, beq_iff_eq]
  rfl

/-- GB.CRC over whole words of staging, which no transfer still writes. -/
theorem Dev.doGbCrc_performs {r n : Nat} (hr : ((d.gemma g).rx i.rs1).toNat = r) (hn : ((d.gemma g).rx i.rs2).toNat = n) (h7 : i.f7 = 0)
    (h1 : (d.gemma g).px i.rs1 = false) (h2 : (d.gemma g).px i.rs2 = false) (halign : r % 4 = 0) (hlow : 0x10000 ≤ r)
    (hhigh : r + n ≤ 0x20000) (hwords : n % 4 = 0) (hpos : 0 < n) (hmax : n ≤ 16384) (hfree : d.gemStall g r n false = false) :
    let x := d.gemma g
    let c := crc32cRaw (x.c 0x807) ((List.range n).map (fun j => gByte (x.sram.get ((r + j) / 64) 0#512) ((r + j) % 64)))
    ∃ p, d.doGbCrc g i = (d.modGemma g (fun y => ({ y with csr := y.csr.put 0x807 c }).setX i.rd (~~~ c) p)).gemStep g i := by
  subst hr hn
  have hcodes : noneOf [(i.f7 != 0, 1)] = true := by simp [noneOf, h7]
  have hclean : ((d.gemma g).px i.rs1 || (d.gemma g).px i.rs2) = false := by rw [h1, h2]; rfl
  have hlate : noneOf [(((d.gemma g).rx i.rs1).toNat % 4 != 0, 3), (decide (((d.gemma g).rx i.rs1).toNat < 0x10000) ||
      decide (0x20000 < ((d.gemma g).rx i.rs1).toNat + ((d.gemma g).rx i.rs2).toNat), 4), (((d.gemma g).rx i.rs2).toNat % 4 != 0 ||
      ((d.gemma g).rx i.rs2).toNat == 0 || decide (16384 < ((d.gemma g).rx i.rs2).toNat), 6)] = true := by
    simp [noneOf, halign, hlow, hhigh, hwords, hmax, Nat.ne_of_gt hpos]
  rw [Dev.doGbCrc, Dev.gemChecked_ok (checks_eq_ok hcodes rfl hclean hlate), hfree]
  exact ⟨_, rfl⟩

theorem Dev.doFexp2_performs (h2 : i.rs2 = 0) (h7 : i.f7 = 0) : d.doFexp2 g i =
    (d.modGemma g (fun y => y.setF i.rd (fExp2 ((d.gemma g).rf i.rs1)) ((d.gemma g).pf i.rs1))).gemStep g i := by
  have hcodes : noneOf [(i.rs2 != 0 || i.f7 != 0, 1)] = true := by simp [noneOf, h2, h7]
  rw [Dev.doFexp2, Dev.gemChecked_ok (checks_eq_ok hcodes rfl rfl rfl)]

end Sys2Proof.Machine
end

section
/-! SUPPORT. Control instructions of a gemma. -/

open Sys2Proof Sys2Proof.Machine

/-- Settles O30: each row as its instruction, whose checks pass. -/
theorem gemmaControlInstructions : Obligations.GemmaControlInstructions := by
  intro s g u i halive hi d x done wait id zero a
  refine ⟨fun h3 hrd h1 hid hdone hfail hbar => ?_, fun h3 hz hdone hfail => ?_, fun h3 hrd h7 hfail hp1 halign hroom => ?_,
    fun h3 hrd h7 hp1 hp2 halign hnew => ?_, ?_, ?_, fun h3 h2 h7 => ?_, fun h3 hz => ?_⟩
  · exact exec_gemRow rfl halive hi (by decide) (by simp [h3])
      (Dev.doGbCommit_first (by simp [hrd, h1]) hid hdone hfail hbar)
  · exact exec_gemRow rfl halive hi (by decide) (by simp [h3]) (Dev.doGbFend_performs (RvI.bare_of_zero hz) hdone hfail)
  · exact exec_gemRow rfl halive hi (by decide) (by simp [h3]) (Dev.doGbSig_performs hrd h7 hfail hp1 halign hroom)
  · exact exec_gemRow rfl halive hi (by decide) (by simp [h3]) (Dev.doGbWaitm_performs hrd h7 hp1 hp2 halign hnew)
  · intro r n h3 hrd h7 hp1 hp2 hmax ha hn hbank
    exact exec_gemRow rfl halive hi (by decide) (by simp [h3]) (Dev.doGbInfl_performs hrd h7 hp1 hp2 hmax ha hn hbank)
  · intro r n h3 h7 hp1 hp2 halign hlow hhigh hwords hpos hmax hfree
    obtain ⟨p, hp⟩ := Dev.doGbCrc_performs (r := r) (n := n) rfl rfl h7 hp1 hp2 halign hlow hhigh hwords hpos hmax hfree
    exact ⟨p, exec_gemRow rfl halive hi (by decide) (by simp [h3]) hp⟩
  · exact exec_gemRow rfl halive hi (by decide) (by simp [h3]) (Dev.doFexp2_performs h2 h7)
  · exact exec_gemRow rfl halive hi (by decide) (by simp [h3]) (Dev.doGbFence_performs (RvI.bare_of_zero hz))
end

section
/-! SUPPORT. How a gemma's transfers, claims, barriers and waits end (10 R319, R321, R328, R332). -/

namespace Sys2Proof.Machine

variable {d : Dev} {g : Nat}

/-! ### Claims -/

theorem Dev.gemma_modGemma (d : Dev) (i j : Nat) (h : Gemma → Gemma) :
    (d.modGemma i h).gemma j = if j = i then h (d.gemma i) else d.gemma j := by rw [Dev.modGemma_eq, Dev.gemma_setGemma]

/-- A bank's claims end while no page of it is read for its seal. -/
theorem Dev.claimOver_idle {b : Nat} (h : d.sealBusy b = false) : d.claimOver g b = (d.unclaim g b).unhold b :=
  if_neg (Bool.eq_false_iff.1 h)

theorem Dev.claimOver_unit (b k : Nat) : (d.claimOver g b).unit k = d.unit k := by
  unfold Dev.claimOver
  split <;> rfl

theorem Dev.unclaim_claims (b : Nat) :
    ((d.unclaim g b).gemma g).claims = (d.gemma g).claims.filter (fun c => c.1 != b) := by
  rw [Dev.unclaim, Dev.gemma_modGemma, if_pos rfl]

theorem Dev.unclaim_gemma_ne (b : Nat) {k : Nat} (h : k ≠ g) : (d.unclaim g b).gemma k = d.gemma k := by
  rw [Dev.unclaim, Dev.gemma_modGemma, if_neg h]

/-! ### Transfers -/

/-- A transfer of a gemma's program of which nothing is left, and none of whose reads failed. -/
structure Xfer.GemDone (x : Xfer) (g : Nat) : Prop where
  gemma : x.mid = gemmaMid g
  kind : x.kind ≠ .gWaitm
  program : x.ip < 0x10000
  performed : x.next = x.limit
  delivered : x.gr = []
  answered : x.sent = []
  good : x.worst = 0

/-- Its interlocks are released, and with them a bank instruction's claims. -/
theorem Dev.gemXferEnd_done {x : Xfer} (hx : d.xfer x.id = some x) (h : x.GemDone g) : d.gemXferEnd g x.id =
    if x.kind.isBank = true then (d.endXfer x.id).claimOver g (bankOf x.base) else d.endXfer x.id := by
  have hend : (x.next == x.limit && x.gr.isEmpty && x.sent.isEmpty && x.kind != .gWaitm) = true := by
    simp [h.performed, h.delivered, h.answered, h.kind]
  simp only [h.delivered] at hend
  simp only [Dev.gemXferEnd, hx, h.gemma, h.delivered, List.filter_nil, List.foldl_nil, bne_self_eq_false, Bool.false_eq_true,
    if_false, hend, if_true, Dev.gemXferDone, h.good]

/-- A unit that is no FILL has no more to do when one of its transfers ends. -/
theorem Dev.transferEnd_done {x : Xfer} (hx : d.xfer x.id = some x) (h : x.GemDone g)
    (hfill : ∀ u, d.unit x.unit = some u → u.kind ≠ 3) : d.transferEnd g x.id =
      if x.kind.isBank = true then (d.endXfer x.id).claimOver g (bankOf x.base) else d.endXfer x.id := by
  have hip : (x.kind == .gFill && x.ip == 0x10000) = false := by
    rw [beq_eq_false_iff_ne.2 h.program.ne, Bool.and_false]
  have hunit : (if x.kind.isBank = true then (d.endXfer x.id).claimOver g (bankOf x.base) else d.endXfer x.id).unit x.unit =
      d.unit x.unit := by
    split
    · exact Dev.claimOver_unit _ _
    · rfl
  simp only [Dev.transferEnd, hx, h.gemma, bne_self_eq_false, Bool.false_eq_true, if_false, hip, Dev.gemXferEnd_done hx h, hunit]
  split
  case h_1 u hu => rw [if_neg (by simpa using hfill u hu)]
  case h_2 => rfl

/-! ### Barriers and polls -/

/-- A unit of one gemma, which is at its barrier: the commit point passes. -/
theorem Dev.gemBarrier_single {u : WUnit} {id : Nat} (hu : d.unit u.key = some u) (hkind : u.kind = 1) (hphase : u.phase = 1)
    (hg : u.gemList = [g]) (hbar : (d.gemma g).barrier = some id) : d.gemBarrier u.key =
      ((d.modUnit u.key (fun v => { v with lastCommit := id, touched := 0#8, touchedOther := false })).modGemma g
        (fun y => { y with barrier := none, commitId := id })).gemNext g ((d.gemma g).pc + 4) := by
  have hid : d.barrierId u = some id := by simp [Dev.barrierId, hg, hbar]
  have hbar' : ((d.modUnit u.key (fun v => { v with lastCommit := id, touched := 0#8, touchedOther := false })).gemma g).barrier =
      some id := hbar
  simp only [Dev.gemBarrier, hu, hkind, hphase, bne_self_eq_false, Bool.or_self, Bool.false_eq_true, if_false, hid, hg,
    List.all_cons, List.all_nil, hbar, Option.isSome_some, Bool.true_or, Bool.and_self, if_true, List.foldl_cons, List.foldl_nil,
    hbar']
  rfl

theorem Dev.gemPoll_of_found {x : Xfer} (hu : (d.gemIssuing g).isSome = true) (hfind : d.xfers.find? (fun y =>
    y.mid == gemmaMid g && y.kind == .gWaitm && y.next == 1 && y.gr.isEmpty && y.sent.isEmpty) = some x) :
    d.gemPoll g = d.modXfer x.id (fun e => { e with next := 0 }) := by
  obtain ⟨u, hu⟩ := Option.isSome_iff_exists.1 hu
  simp only [Dev.gemPoll, hu, hfind]

end Sys2Proof.Machine
end

section
/-! SUPPORT. Ends of a gemma's work. -/

open Sys2Proof Sys2Proof.Machine

/-- Settles O31: each row is the event on the gemma, whose conditions hold. -/
theorem gemmaEnds : Obligations.GemmaEnds := by
  intro s g halive d
  refine ⟨fun x hx hmid hkind hip hnext hgr hsent hworst hfill => ?_, fun u id hu hkind hphase hg hbar => ?_,
    fun j hidle => ?_, fun x hu hfind => ?_⟩
  · exact exec_devRow (act := fun d => d.transferEnd g x.id) rfl halive
      (Dev.transferEnd_done hx ⟨hmid, hkind, hip, hnext, hgr, hsent, hworst⟩ hfill)
  · exact exec_devRow (act := fun d => d.gemBarrier u.key) rfl halive (Dev.gemBarrier_single hu hkind hphase hg hbar)
  · exact ⟨_, exec_devRow (act := fun d => d.claimEnd g j) rfl halive (Dev.claimOver_idle hidle), Dev.unclaim_claims _,
      fun k hk => Dev.unclaim_gemma_ne _ hk, rfl, rfl⟩
  · exact exec_devRow (act := fun d => d.gemPoll g) rfl halive (Dev.gemPoll_of_found hu hfind)
end

section
/-! SUPPORT. What follows every step leaves the control registers as they are: units that end, domains that power down, and ports
(02 R64, 11 R366-R385, 13 R442, 15 R496, R497). -/

namespace Sys2Proof.Machine

variable (d : Dev)

@[simp] theorem Dev.modFrond_regs (f : Nat) (g : Frond → Frond) : (d.modFrond f g).regs = d.regs := rfl
@[simp] theorem Dev.modPort_regs (p : Nat) (f : PortS → PortS) : (d.modPort p f).regs = d.regs := rfl
@[simp] theorem Dev.inc_regs (c : Nat) : (d.inc c).regs = d.regs := rfl
@[simp] theorem Dev.truncCopy_regs (k : Nat) : (d.truncCopy k).regs = d.regs := rfl
@[simp] theorem Dev.wipeLayer_regs (i : Nat) : (d.wipeLayer i).regs = d.regs := rfl
@[simp] theorem Dev.unwrite_regs (p lo hi : Nat) : (d.unwrite p lo hi).regs = d.regs := rfl
@[simp] theorem Dev.raise_regs (s : Nat) (r : ErrRec) : (d.raise s r).regs = d.regs := Dev.regs_of_bare (d.raise_bare s r)

@[simp] theorem Dev.stopUnit_regs (k cause aux : Nat) : (d.stopUnit k cause aux).regs = d.regs := by
  unfold Dev.stopUnit
  split <;> rfl

/-- Steps that each leave the registers leave them together. -/
theorem Dev.foldl_regs {α : Type} {f : Dev → α → Dev} (hf : ∀ e a, (f e a).regs = e.regs) (l : List α) (d : Dev) :
    (l.foldl f d).regs = d.regs :=
  List.foldlRecOn (motive := fun e : Dev => e.regs = d.regs) l f rfl (fun e h a _ => (hf e a).trans h)

/-! ### Units end -/

@[simp] theorem Dev.touchInFlight_regs (k : Nat) : (d.touchInFlight k).regs = d.regs :=
  Dev.foldl_regs (fun _ _ => Dev.foldl_regs (fun _ _ => by rfl) _ _) _ d

@[simp] theorem Dev.endGemmas_regs (u : WUnit) : (d.endGemmas u).regs = d.regs := Dev.foldl_regs (fun _ _ => by rfl) _ d

@[simp] theorem Dev.endUnitAs_regs (k st cause aux : Nat) : (d.endUnitAs k st cause aux).regs = d.regs := by
  unfold Dev.endUnitAs
  split
  · rfl
  · dsimp only
    repeat' split
    all_goals simp

theorem Dev.depFail_regs (n : Nat) (d : Dev) : (d.depFail n).regs = d.regs := by
  induction n generalizing d with
  | zero => rfl
  | succ n ih =>
    unfold Dev.depFail
    dsimp only
    split
    · rfl
    · exact (ih _).trans (Dev.foldl_regs (fun e _ => e.endUnitAs_regs _ 2 4 0) _ d)

@[simp] theorem Dev.killUnits_regs (p : WUnit → Bool) (cause : Nat) : (d.killUnits p cause).regs = d.regs :=
  (Dev.depFail_regs _ _).trans (Dev.foldl_regs (fun e _ => e.endUnitAs_regs _ _ cause 0) _ d)

/-! ### Domains power down -/

@[simp] theorem Dev.writeWord_regs (w : Nat) (g : Gran) (mask : BitVec 64) (pois : Bool) (tr : WriteTry) (k : Nat)
    (cc : Option Bool) : (d.writeWord w g mask pois tr k cc).regs = d.regs := by
  refine (Dev.regs_of_bare (d.writeWord_bare w g mask pois tr k cc)).trans ?_
  unfold Dev.written
  repeat' split
  all_goals rfl

@[simp] theorem Dev.writeBack_regs (c : CLine) (tries : List WriteTry) : (d.writeBack c tries).regs = d.regs := by
  refine Dev.foldl_regs (fun e j => ?_) _ d
  split <;> simp

@[simp] theorem Dev.flushHalf_regs (h : Nat) (tries : List WriteTry) : (d.flushHalf h tries).regs = d.regs :=
  Dev.foldl_regs (fun e _ => e.writeBack_regs _ _) _ d

theorem Dev.anyWrites_regs (n : Nat) (d : Dev) : (d.anyWrites n).1.regs = d.regs := by
  induction n generalizing d with
  | zero => rfl
  | succ n ih => exact ih _

@[simp] theorem Dev.loseHalf_regs (h : Nat) : (d.loseHalf h).regs = d.regs := Dev.foldl_regs (fun _ _ => by rfl) _ d

@[simp] theorem Dev.domLost_regs (i : Nat) : (d.domLost i).regs = d.regs := by
  unfold Dev.domLost
  dsimp only
  split
  · exact (Dev.loseHalf_regs _ _).trans (Dev.foldl_regs (fun _ _ => by rfl) _ d)
  · split
    · exact (Dev.foldl_regs (fun _ _ => Dev.foldl_regs (fun _ _ => by rfl) _ _) _ _).trans
        (Dev.foldl_regs (fun e l => e.wipeLayer_regs l) _ d)
    · rfl

@[simp] theorem Dev.domDown_regs (i : Nat) : (d.domDown i).regs = d.regs := by
  unfold Dev.domDown
  dsimp only
  split <;> simp [Dev.anyWrites_regs]

@[simp] theorem Dev.allDown_regs : d.allDown.regs = d.regs := by
  have hdown (e : Dev) (i : Nat) : (if ((e.dom i).st != 0 && (e.dom i).st != 5) = true then e.domDown i else e).regs = e.regs := by
    split <;> simp
  exact (Dev.foldl_regs hdown _ _).trans ((Dev.foldl_regs hdown _ _).trans (d.killUnits_regs _ _))

/-! ### Ports send, answer and go down -/

@[simp] theorem Dev.sendFlits_regs (p : Nat) (is : List TxItem) : (d.sendFlits p is).regs = d.regs := by
  unfold Dev.sendFlits
  split <;> rfl

@[simp] theorem Dev.pumpPort_regs (p : Nat) : (d.pumpPort p).regs = d.regs := by
  unfold Dev.pumpPort
  dsimp only
  split <;> simp

@[simp] theorem Dev.sendCpl_regs (p : Nat) (c : CplHdr) : (d.sendCpl p c).regs = d.regs := by
  unfold Dev.sendCpl
  split <;> simp

@[simp] theorem Dev.reply_regs (p rsn st seals result : Nat) (data : List Byte) (pm : BitVec 64) :
    (d.reply p rsn st seals result data pm).regs = d.regs := by
  unfold Dev.reply
  split <;> simp

@[simp] theorem Dev.finishPieces_regs (o : OutReq) (st : Nat) (data : List Byte) (pm : BitVec 64) :
    (d.finishPieces o st data pm).regs = d.regs := by
  unfold Dev.finishPieces
  split
  · rfl
  · exact Dev.foldl_regs (fun _ _ => by rfl) _ _

@[simp] theorem Dev.outEnd_regs (e : Nat) (o : OutReq) (st seals result : Nat) (data : List Byte) (pm : BitVec 64) :
    (d.outEnd e o st seals result data pm).regs = d.regs := by
  unfold Dev.outEnd
  dsimp only
  split <;> simp

@[simp] theorem Dev.portDown_regs (p : Nat) : (d.portDown p).regs = d.regs := by
  unfold Dev.portDown
  dsimp only
  split
  · rfl
  · exact (Dev.foldl_regs (fun e o => e.outEnd_regs _ _ _ _ _ _ _) _ _).trans (Dev.raise_regs _ _ _)

@[simp] theorem Dev.sendReq_regs (e : Nat) (h : ReqHdr) (o : OutReq) : (d.sendReq e h o).regs = d.regs :=
  Dev.pumpPort_regs _ e

@[simp] theorem Dev.forward_regs (p : Nat) (r : ReqHdr) (fl : List Nat) : (d.forward p r fl).regs = d.regs := by
  unfold Dev.forward
  dsimp only
  repeat' split
  all_goals simp

@[simp] theorem Dev.forwardHeld_regs : d.forwardHeld.regs = d.regs := by
  refine Dev.foldl_regs (fun e p => ?_) _ d
  split
  · rfl
  · exact Dev.foldl_regs (fun e r => e.forward_regs _ _ _) _ _

/-! ### Remote transfers leave -/

/-- The bytes of pieces, gathered one piece after the other. -/
theorem Dev.gather_regs {α β : Type} {f : Dev × β → α → Dev × β} (hf : ∀ s a, (f s a).1.regs = s.1.regs) (l : List α)
    (s : Dev × β) : (l.foldl f s).1.regs = s.1.regs :=
  List.foldlRecOn (motive := fun t : Dev × β => t.1.regs = s.1.regs) l f rfl (fun t h a _ => (hf t a).trans h)

@[simp] theorem Dev.pieceOut_regs (x : Xfer) (i : Nat) : (d.pieceOut x i).1.regs = d.regs := by
  unfold Dev.pieceOut
  split
  split
  · exact Dev.gather_regs (fun _ _ => by rfl) _ _
  · rfl

@[simp] theorem Dev.sendBurst_regs (x : Xfer) (m : Nat) : (d.sendBurst x m).regs = d.regs := by
  unfold Dev.sendBurst
  extract_lets i k is e src fail d0
  have hfail (d' : Dev) (st : Nat) : (fail d' st).regs = d'.regs := Dev.foldl_regs (fun _ _ => by rfl) _ _
  have h0 : d0.regs = d.regs := by
    unfold d0
    split
    · rfl
    · exact Dev.foldl_regs (fun _ _ => by rfl) _ _
  split
  · exact (hfail _ _).trans h0
  · split
    · exact (hfail _ _).trans h0
    · split
      · exact (hfail _ _).trans h0
      · dsimp only
        have hgather (l : List Nat) (s : Dev × List Byte) := Dev.gather_regs
          (f := fun s j => ((s.1.pieceOut x j).1, s.2 ++ (s.1.pieceOut x j).2)) (fun s j => s.1.pieceOut_regs x j) l s
        rw [Dev.sendReq_regs]
        repeat' split
        all_goals simp [hgather, h0]

theorem Dev.pumpXfer_regs (n id : Nat) (d : Dev) : (d.pumpXfer n id).regs = d.regs := by
  induction n generalizing d with
  | zero => rfl
  | succ n ih =>
    unfold Dev.pumpXfer
    dsimp only
    repeat' split
    all_goals simp [ih]

@[simp] theorem Dev.pumpRemote_regs : d.pumpRemote.regs = d.regs :=
  Dev.foldl_regs (fun e _ => Dev.pumpXfer_regs _ _ e) _ d

/-! ### Resets that follow -/

@[simp] theorem Dev.abortRot_regs : d.abortRot.regs = d.regs := by
  unfold Dev.abortRot
  split
  · rfl
  · dsimp only
    split <;> simp [Dev.setThm]

@[simp] theorem Dev.fwLose_regs (fs : List Nat) : (d.fwLose fs).regs = d.regs := by
  unfold Dev.fwLose
  split <;> rfl

@[simp] theorem Dev.rstShow_regs (level unit st : Nat) : (d.rstShow level unit st).regs = d.regs := by
  unfold Dev.rstShow
  dsimp only
  split <;> rfl

@[simp] theorem Dev.rstUnits_regs (level unit : Nat) : (d.rstUnits level unit).regs = d.regs :=
  (Dev.depFail_regs _ _).trans (Dev.foldl_regs (fun e _ => e.endUnitAs_regs _ _ 12 0) _ d)

@[simp] theorem Dev.rstBegin_regs (level unit : Nat) : (d.rstBegin level unit).regs = d.regs := by
  unfold Dev.rstBegin
  extract_lets fs d1 d2 d3 d4 d5
  have h1 : d1.regs = d.regs := Dev.rstShow_regs _ _ _ _
  have h3 : d3.regs = d2.regs := Dev.foldl_regs (fun _ _ => by rfl) _ _
  have h4 : d4.regs = d3.regs := (Dev.fwLose_regs _ _).trans (Dev.rstUnits_regs _ _ _)
  have h5 : d5.regs = d4.regs := by
    unfold d5
    split
    · split <;> simp
    · rfl
  have hold : d5.regs = d.regs := h5.trans (h4.trans (h3.trans h1))
  split
  · refine (Dev.foldl_regs (fun e p => ?_) _ _).trans hold
    split <;> simp
  · exact hold

@[simp] theorem Dev.rstFollow_regs : d.rstFollow.regs = d.regs := by
  refine Dev.foldl_regs (fun e r => ?_) _ d
  dsimp only
  repeat' split
  all_goals simp

/-! ### The rest of what follows -/

@[simp] theorem Dev.runStops_regs : d.runStops.regs = d.regs := by
  refine Dev.foldl_regs (fun e f => ?_) _ d
  split <;> rfl

@[simp] theorem Dev.portSkip_regs : d.portSkip.regs = d.regs := by
  unfold Dev.portSkip
  split <;> rfl

@[simp] theorem Dev.freeBufs_regs : d.freeBufs.regs = d.regs := by
  unfold Dev.freeBufs
  split <;> rfl

@[simp] theorem Dev.stops_regs : d.stops.regs = d.regs := by
  unfold Dev.stops
  refine (Dev.foldl_regs (fun e p => ?_) _ _).trans ?_
  · split <;> simp
  · split <;> simp

@[simp] theorem Dev.alertPin_regs : d.alertPin.regs = d.regs := by
  unfold Dev.alertPin
  dsimp only
  repeat' split
  all_goals rfl

/-- What follows a step changes no control register. -/
@[simp] theorem Dev.finish_regs : d.finish.regs = d.regs := by
  unfold Dev.finish
  split <;> simp

end Sys2Proof.Machine
end

section
/-! CLAIM. The end of a seal command's read of its page shows DONE in RESULT (10 R343, R347): it fails for an entry whose state, a number
of any size in the model, reaches the bit. -/

namespace Sys2Proof.Machine

variable {d : Dev}

/-- With no cache a word of a page is read in its bank. -/
theorem Dev.sealWord_bare (g w : Nat) (tr : ReadTry) (hcache : d.halves = []) : (d.sealWord g w tr).1.bare = d.bare := by
  have hhalf (h : Nat) : d.half h = {} := by rw [Dev.half, hcache]; rfl
  simp [Dev.sealWord, hhalf, Half.find, Half.ghost]

/-- With no cache the read of a page changes only books of its banks. -/
theorem Dev.sealRead_bare (g : Nat) (page : Nat) (tries : List ReadTry) (hcache : d.halves = []) (l : List Nat) :
    (l.foldl (fun (s : Dev × Bool × List Byte) i =>
      let (e, p, v) := s.1.sealWord g (page * 64 + i) (tryAt tries i)
      (e, s.2.1 || p, s.2.2 ++ gBytes v)) (d, false, [])).1.bare = d.bare :=
  List.foldlRecOn (motive := fun s : Dev × Bool × List Byte => s.1.bare = d.bare) l _ rfl
    (fun _ h _ _ => (Dev.sealWord_bare g _ _ ((Dev.halves_of_bare h).trans hcache)).trans h)

/-- A read whose page lost its seal bit while it ran answers BROKEN, with the entry's state in the bits from 4 on. -/
theorem Dev.sealCrcEnd_broken {p : Nat} {r : SealRun} {entry : Seal} (tries : List ReadTry)
    (hrun : d.sealRuns.find? (fun x => x.port == p) = some r) (hclaim : r.claim = true) (hbit : r.bit = true)
    (hheld : d.sealHeld = []) (hcache : d.halves = []) (hentry : d.seals.find r.page = some entry) (hclear : entry.bit = false) :
    (d.sealCrcEnd p tries).reg (sealReg p 16) = pack [(6, 0), (entry.state, 4),
      (if entry.state == 3 then entry.breaker else 0, 8), (1, 31)] := by
  have hbare := Dev.sealRead_bare (d := d) (gemmaOf (r.page * 4096)) r.page tries hcache (List.range 64)
  unfold Dev.sealCrcEnd
  rw [hrun]
  simp only [hclaim, Bool.not_true, Bool.false_and, Bool.false_eq_true, if_false, if_true]
  generalize List.foldl _ (d, false, []) (List.range 64) = read at hbare ⊢
  obtain ⟨e, pois, bytes⟩ := read
  have hseals : e.seals = d.seals := congrArg (·.seals) hbare
  have hheldE : e.sealHeld = [] := (congrArg (·.sealHeld) hbare).trans hheld
  have hwoken (f : Dev) (b : Bool) (g : Nat) (up : Gemma → Gemma) (hs : f.seals = d.seals) (hh : f.sealHeld = []) :
      (if b = true then f else f.modGemma g up).seals = d.seals ∧ (if b = true then f else f.modGemma g up).sealHeld = [] := by
    split <;> exact ⟨hs, hh⟩
  obtain ⟨hs, hh⟩ := hwoken (Dev.sealUnclaim { e with sealRuns := e.sealRuns.filter (fun x => x.port != p) } (gemmaOf (r.page * 4096))
    r.page) _ _ _ hseals hheldE
  generalize (if List.any _ _ = true then _ else Dev.modGemma _ _ _) = f at hs hh ⊢
  simp [hs, hh, hbit, hentry, hclear, Dev.sealResult, Dev.sealNext]

/-- A module whose port 0 ends a read of page 0, which a write broke while it ran: the entry's state is 2 to the 27th. -/
def brokenRead : Dev :=
  { bup := { powered := true }, win := { win := [(0, 0x20009000#32), (1, 0x50009000#32)] }, seals := [(0, ⟨false, 2 ^ 27, 0#32, 0⟩)],
    sealRuns := [⟨0, 0, false, none, true, true⟩] }

theorem brokenRead_alive : brokenRead.alive = true := rfl

theorem brokenRead_allowed : brokenRead.allowed (brokenRead.portSet 0) 1 .write (sealReg 0 12 / 4096) = true := by decide

/-- The state's bit 27 adds to the DONE bit, and the sum leaves the word. -/
theorem brokenRead_result : (brokenRead.sealCrcEnd 0 []).reg (sealReg 0 16) = 6#32 :=
  (Dev.sealCrcEnd_broken (r := ⟨0, 0, false, none, true, true⟩) (entry := ⟨false, 2 ^ 27, 0#32, 0⟩) [] rfl rfl rfl rfl rfl rfl
    rfl).trans (by decide)

/-- Refutes O52: the end of a read shows an entry's state at bit 4 of RESULT by a sum, so a state of 2 to the 27th, which no command
makes but the model's numbers allow, carries out of DONE. -/
theorem not_sealCommands : ¬ Obligations.SealCommands := by
  unfold Obligations.SealCommands
  intro h
  obtain ⟨-, -, hend⟩ := h { dev := brokenRead } 0 false brokenRead_alive rfl brokenRead_allowed
  obtain ⟨e, hexec, -, hdone⟩ := hend ⟨0, 0, false, none, true, true⟩ [] rfl rfl (.inl rfl)
  have hran : State.ran { dev := brokenRead } (brokenRead.sealCrcEnd 0 []) = State.ran { dev := brokenRead } e :=
    Host.Outcome.next.inj ((exec_devRow (act := fun d => d.sealCrcEnd 0 []) rfl brokenRead_alive rfl).symm.trans hexec)
  have hregs : (brokenRead.sealCrcEnd 0 []).regs = e.regs := by
    simpa only [State.ran, Dev.finish_regs] using congrArg (·.dev.regs) hran
  have hreg : e.reg (sealReg 0 16) = 6#32 := by rw [← brokenRead_result, Dev.reg, Dev.reg, hregs]
  change (e.reg (sealReg 0 16)).getLsbD 31 = true at hdone
  rw [hreg] at hdone
  exact absurd hdone (by decide)

end Sys2Proof.Machine
end

section
/-! SUPPORT. What an arriving sequence number comes to (11 R378, R379): new, stale, or one of the window's own. -/

namespace Sys2Proof.Machine

/-- A signed difference of sequence numbers lies within half of their range. -/
theorem rsnDiff_bounds (a b : Nat) : -(2 ^ 47 : Int) ≤ rsnDiff a b ∧ rsnDiff a b < 2 ^ 47 := by
  unfold rsnDiff
  dsimp only
  have hlt : (a + 2 ^ 48 - b % 2 ^ 48) % 2 ^ 48 < 2 ^ 48 := Nat.mod_lt _ (by decide)
  split <;> omega

/-- The device once an arriving request is counted. -/
def Dev.reqCounted (d : Dev) (p : Nat) (r : ReqHdr) : Dev :=
  if 1 ≤ r.pkt.toNat && r.pkt.toNat ≤ 4 then d.inc (cPort p (21 + r.pkt.toNat)) else d

/-- The window with a new request's entry. -/
def PortS.entered (x : PortS) (r : ReqHdr) : PortS :=
  { x with win := x.win ++ [{ rsn := r.rsn.toNat, hdr := { r with data := [] } }] }

/-- The window of a new request whose number is the highest: what lies 4,096 or more below it has left. -/
def PortS.advanced (x : PortS) (r : ReqHdr) : PortS :=
  { x with high := some r.rsn.toNat, win := x.win.filter (fun e => decide (-4096 < rsnDiff e.rsn r.rsn.toNat)) }

variable (d : Dev) (p : Nat) (r : ReqHdr)

@[simp] theorem Dev.inc_port (c q : Nat) : (d.inc c).port q = d.port q := rfl

@[simp] theorem Dev.reqCounted_port (q : Nat) : (d.reqCounted p r).port q = d.port q := by
  unfold Dev.reqCounted
  split <;> rfl

@[simp] theorem Dev.reqCounted_mem : (d.reqCounted p r).mem = d.mem := by
  unfold Dev.reqCounted
  split <;> rfl

@[simp] theorem Dev.reqCounted_regs : (d.reqCounted p r).regs = d.regs := by
  unfold Dev.reqCounted
  split <;> rfl

/-- Looking up a sequence number touches nothing but the port's window and the counters. -/
theorem Dev.arrive_frame :
    (∀ q, q ≠ p → (d.arrive p r).1.port q = d.port q) ∧ (d.arrive p r).1.mem = d.mem ∧
      (d.arrive p r).1.regs = d.regs := by
  have hset (x : PortS) : (∀ q, q ≠ p → ((d.reqCounted p r).setPort p x).port q = d.port q) ∧
      ((d.reqCounted p r).setPort p x).mem = d.mem ∧ ((d.reqCounted p r).setPort p x).regs = d.regs :=
    ⟨fun q hq => by rw [Dev.port_setPort, if_neg hq, Dev.reqCounted_port], d.reqCounted_mem p r, d.reqCounted_regs p r⟩
  have hinc (c : Nat) : (∀ q, q ≠ p → ((d.reqCounted p r).inc c).port q = d.port q) ∧
      ((d.reqCounted p r).inc c).mem = d.mem ∧ ((d.reqCounted p r).inc c).regs = d.regs :=
    ⟨fun q _ => d.reqCounted_port p r q, d.reqCounted_mem p r, d.reqCounted_regs p r⟩
  unfold Dev.arrive
  extract_lets e x n entry df
  split
  · exact hset _
  · split
    · exact hinc 30
    · split
      · exact hset _
      · split
        · exact hinc 28
        · exact hinc 29

variable {d p r}

/-- A first number, or one above the highest so far, is new and is the highest from then on. -/
theorem Dev.arrive_above (h : ∀ b, (d.port p).high = some b → 0 < rsnDiff r.rsn.toNat b) :
    d.arrive p r = ((d.reqCounted p r).setPort p (((d.port p).advanced r).entered r), .fresh) := by
  unfold Dev.arrive
  extract_lets e x n entry df
  have hx : x = d.port p := d.reqCounted_port p r p
  have hdf : 0 < df := by
    simp only [df, hx]
    cases hhigh : (d.port p).high with
    | none => exact Int.one_pos
    | some b => exact h b hhigh
  rw [if_pos hdf, ← d.reqCounted_port p r p]
  rfl

section
variable {b : Nat} (hhigh : (d.port p).high = some b)
include hhigh

theorem Dev.arrive_stale (h : rsnDiff r.rsn.toNat b ≤ -4096) :
    d.arrive p r = ((d.reqCounted p r).inc (cPort p 30), .stale) := by
  unfold Dev.arrive
  extract_lets e x n entry df
  have hx : x = d.port p := d.reqCounted_port p r p
  have hdf : df = rsnDiff r.rsn.toNat b := by simp only [df, hx, hhigh, n]
  rw [if_neg (by omega), if_pos (by omega)]
  rfl

variable (hle : rsnDiff r.rsn.toNat b ≤ 0) (hgt : -4096 < rsnDiff r.rsn.toNat b)
include hle hgt

theorem Dev.arrive_unlisted (hheld : (d.port p).win.find? (fun e => e.rsn == r.rsn.toNat) = none) :
    d.arrive p r = ((d.reqCounted p r).setPort p ((d.port p).entered r), .fresh) := by
  unfold Dev.arrive
  extract_lets e x n entry df
  have hx : x = d.port p := d.reqCounted_port p r p
  have hdf : df = rsnDiff r.rsn.toNat b := by simp only [df, hx, hhigh, n]
  rw [if_neg (by omega), if_neg (by omega), hx, hheld, ← d.reqCounted_port p r p]
  rfl

theorem Dev.arrive_listed {w : WinE} (hheld : (d.port p).win.find? (fun e => e.rsn == r.rsn.toNat) = some w) :
    d.arrive p r = if w.done = true then ((d.reqCounted p r).inc (cPort p 28), .done w)
      else ((d.reqCounted p r).inc (cPort p 29), .drop) := by
  unfold Dev.arrive
  extract_lets e x n entry df
  have hx : x = d.port p := d.reqCounted_port p r p
  have hdf : df = rsnDiff r.rsn.toNat b := by simp only [df, hx, hhigh, n]
  rw [if_neg (by omega), if_neg (by omega), hx, hheld]
  rfl

end

end Sys2Proof.Machine
end

section
/-! SUPPORT. Sequence numbers that arrive. -/

open Sys2Proof Sys2Proof.Machine

/-- Settles O41: each clause is one case of the look-up (`Dev.arrive_above`, `Dev.arrive_stale`, `Dev.arrive_unlisted`,
`Dev.arrive_listed`). -/
theorem arrivalsClassified : Obligations.ArrivalsClassified := by
  intro d p r x n a held
  refine ⟨rsnDiff_bounds n, fun hnone => ?_, fun h hhigh hpos => ?_, fun h hhigh hlow => ?_,
    fun h hhigh hle hgt => ⟨fun hheld => ?_, fun e hheld hdone => ?_, fun e hheld hdone => ?_⟩, d.arrive_frame p r⟩
  · have ha : a = _ := Dev.arrive_above fun b hb => absurd (hnone.symm.trans hb) (by simp)
    exact ha ▸ ⟨rfl, congrArg (·.high) (Dev.port_setPort_self _ _ _)⟩
  · have ha : a = _ := Dev.arrive_above fun b hb => Option.some.inj (hhigh.symm.trans hb) ▸ hpos
    exact ha ▸ ⟨rfl, congrArg (·.high) (Dev.port_setPort_self _ _ _)⟩
  · have ha : a = _ := Dev.arrive_stale hhigh hlow
    exact ha ▸ ⟨rfl, d.reqCounted_port p r p⟩
  · have ha : a = _ := Dev.arrive_unlisted hhigh hle hgt hheld
    exact ha ▸ ⟨rfl, (congrArg (·.high) (Dev.port_setPort_self _ p ((d.port p).entered r))).trans hhigh⟩
  · have ha : a = _ := Dev.arrive_listed hhigh hle hgt hheld
    rw [hdone] at ha
    exact ha ▸ ⟨rfl, d.reqCounted_port p r p⟩
  · have ha : a = _ := Dev.arrive_listed hhigh hle hgt hheld
    rw [hdone] at ha
    exact ha ▸ ⟨rfl, d.reqCounted_port p r p⟩
end

section
/-! SUPPORT. How a new request for this module begins: as a transfer of its words, or as an access to a control word (03 R82, R91,
11 R376). -/

namespace Sys2Proof.Machine

/-- The transfer of the 64-B words that a request of port p names. -/
def Dev.portXfer (d : Dev) (p : Nat) (r : ReqHdr) (kind : XKind) (data : SMap Gran) : Xfer :=
  let a := r.addr.toNat
  let np := (a % 64 + r.len.toNat + 63) / 64
  { id := d.nextX, mid := portMid p, kind := kind, base := a / 64 * 64, n := np, limit := np
    masks := (List.range np).map (fun i => (i, pieceMask a r.len.toNat i)), data := data, lu := r.lu
    aop := r.aop.toNat, afmt := r.afmt.toNat, ip := r.rsn.toNat, order := d.nextX, loc := r.tag.toNat
    wset := d.portSet p, host := if r.space = 1#2 then some d.swizzle else none }

/-- The device with a transfer begun, past the pieces that are not to be performed. -/
def Dev.begun (d : Dev) (x : Xfer) : Dev := { d with nextX := d.nextX + 1, xfers := d.xfers ++ [Xfer.skip x.n x] }

/-- The bytes of a request, by the words they lie in. -/
def reqWords (r : ReqHdr) : SMap Gran :=
  (List.range ((r.addr.toNat % 64 + r.len.toNat + 63) / 64)).map (fun i => (i, pieceBytes r.addr.toNat i r.data))

/-- A well-formed request names at least one byte (11 R374). -/
theorem len_pos_of_wellFormed {r : ReqHdr} (h : malformed r = false) : 0 < r.len.toNat := by
  simp only [malformed, Bool.or_eq_false_iff, beq_eq_false_iff_ne] at h
  omega

/-- A well-formed ATOMIC is for device memory (11 R374). -/
theorem space_of_wellFormed_atomic {r : ReqHdr} (h : malformed r = false) (hatomic : r.pkt = 3#4) : r.space ≠ 2#2 := by
  simp only [malformed, hatomic, Bool.or_eq_false_iff, Bool.and_eq_false_iff] at h
  intro hspace
  simp [hspace] at h

variable {d d1 : Dev} {fs : Fuses} {p t : Nat} {r : ReqHdr}

/-! ### Device memory -/

/-- A request none of whose lines the port's windows refuse begins whole. -/
theorem Dev.portMemory_whole {kind : XKind} {data : SMap Gran}
    (hkind : (if r.pkt == 1#4 then .portRead else if r.pkt == 2#4 then .portWrite else .portAtomic) = kind)
    (hdata : (if kind = .portRead then [] else reqWords r) = data) (hlen : 0 < r.len.toNat)
    (hwhole : d.refusedPieces (d.portXfer p r kind data) = ([], [])) :
    d.portMemory p r false = d.begun (d.portXfer p r kind data) := by
  have hsome : ¬ (0 == (d.portXfer p r kind data).n) = true := by
    simp only [Dev.portXfer, beq_iff_eq]
    omega
  have hmasks : (d.portXfer p r kind data).masks.map (fun e => if ([] : List Nat).contains e.1 = true then (e.1, 0#64) else e) =
      (d.portXfer p r kind data).masks := by simp
  unfold Dev.portMemory
  extract_lets a n np kind' x
  have hx : x = d.portXfer p r kind data := by
    have hk : kind' = kind := hkind
    simp only [x, hk, ← hdata, Bool.not_false, Bool.and_true, Bool.false_eq_true, if_false, beq_iff_eq]
    rfl
  rw [if_neg Bool.false_ne_true, hx, hwhole]
  simp only [hmasks, List.foldl_nil, List.length_nil, if_neg hsome]
  rfl

/-! ### Control words -/

/-- An aligned word lies in one 256-B line, whose page is the word's. -/
theorem Dev.controlLine_allowed {set a : Nat} {acc : AccK} (h4 : a % 4 = 0) (hw : d.allowed set 1 acc (a / 4096) = true) :
    ((List.range ((a % 256 + 4 + 255) / 256)).map (fun k => a / 256 * 256 + 256 * k)).find?
      (fun l => !d.allowed set 1 acc (l / 4096)) = none := by
  have hone : (a % 256 + 4 + 255) / 256 = 1 := by omega
  have hpage : (a / 256 * 256 + 256 * 0) / 4096 = a / 4096 := by omega
  simp only [hone, List.range_one, List.map_cons, List.map_nil, List.find?_singleton, hpage, hw, Bool.not_true,
    Bool.false_eq_true, if_false]

section
variable (hlen : r.len = 4#13) (h4 : r.addr.toNat % 4 = 0) (hb : blk r.addr.toNat < 0x11)
include hlen h4 hb

/-- A read of a control word that the port's windows grant answers the word. -/
theorem Dev.portControl_read (hpkt : r.pkt = 1#4) (hw : d.allowed (d.portSet p) 1 .read (r.addr.toNat / 4096) = true) :
    d.portControl fs p r false = (d.ctlRead fs p r.addr.toNat).1.reply p r.rsn.toNat 0 0 0
      (leBytes 4 (d.ctlRead fs p r.addr.toNat).2.toNat) 0#64 := by
  have hline := d.controlLine_allowed h4 hw
  simp [Dev.portControl, hpkt, hlen, hline, h4, Nat.not_le.2 hb, -List.find?_map]

/-- A write that the windows grant is performed, but for a register that only commands write. -/
theorem Dev.portControl_write (hpkt : r.pkt = 2#4) (hw : d.allowed (d.portSet p) 1 .write (r.addr.toNat / 4096) = true) :
    d.portControl fs p r false = if authOnly r.addr.toNat = true then (d.inc (cMod 7)).reply p r.rsn.toNat 8 0 0 [] 0#64
      else (d.writeReg (some p) r.addr.toNat 0xFFFFFFFF (leNat (r.data.take 4))).reply p r.rsn.toNat 0 0 0 [] 0#64 := by
  have hline := d.controlLine_allowed h4 hw
  simp [Dev.portControl, hpkt, hlen, hline, h4, Nat.not_le.2 hb, -List.find?_map]

end

/-! ### A request that arrives -/

/-- A well-formed READ, WRITE or ATOMIC for this module, new on its port, is answered FROZEN or begins. -/
theorem Dev.request_fresh (hcarries : d.carries p (reqBytes r) = true) (hown : r.dst.toNat = d.moduleId)
    (hformed : malformed r = false) (hfresh : ((d.upTo t).takePacket p (reqBytes r)).arrive p r = (d1, .fresh))
    (hpkt : r.pkt = 1#4 ∨ r.pkt = 2#4 ∨ r.pkt = 3#4) :
    d.request fs p r t = if d1.isFrozen (portMid p) && !secRead r then d1.reply p r.rsn.toNat 6 0 0 [] 0#64
      else if r.space = 2#2 then d1.portControl fs p r false else d1.portMemory p r false := by
  have hcmd : r.pkt ≠ 4#4 := fun h => by simp [h] at hpkt
  have hcpl : r.pkt ≠ 8#4 := fun h => by simp [h] at hpkt
  unfold Dev.request
  extract_lets e own fl taken n
  have hcarriesE : e.carries p (reqBytes r) = true := hcarries
  have hownE : own = true := beq_iff_eq.2 hown
  have hfreshE : taken.arrive p r = (d1, .fresh) := hfresh
  simp [hcarriesE, hownE, hfreshE, hformed, hcmd, hcpl, n]

section
variable {s : State} (h : s.dev.alive = true) (q : Fin 6)
include h

theorem exec_readRequest (hpkt : r.pkt = 1#4) : exec (.readRequest q r t) s = .next (s.ran (s.dev.request s.fuse q r t)) :=
  exec_devRow (act := fun d => if r.pkt == 2#4 || r.pkt == 3#4 then d else d.request s.fuse q r t) rfl h (if_neg (by simp [hpkt]))

theorem exec_writeRequest (hpkt : r.pkt = 2#4) : exec (.writeRequest q r t) s = .next (s.ran (s.dev.request s.fuse q r t)) :=
  exec_devRow (act := fun d => if r.pkt == 2#4 then d.request s.fuse q r t else d) rfl h (if_pos (by simp [hpkt]))

theorem exec_atomicRequest (hpkt : r.pkt = 3#4) : exec (.atomicRequest q r t) s = .next (s.ran (s.dev.request s.fuse q r t)) :=
  exec_devRow (act := fun d => if r.pkt == 3#4 then d.request s.fuse q r t else d) rfl h (if_pos (by simp [hpkt]))

end

end Sys2Proof.Machine
end

section
/-! SUPPORT. Requests for this module. -/

open Sys2Proof Sys2Proof.Machine

/-- Settles O42: each row is the request of its own packet type (`Dev.request_fresh`), which begins as its transfer or as the access
to its control word. -/
theorem requestsBegin : Obligations.RequestsBegin := by
  intro s p r t d1 halive hcarries hown hformed hfresh a np x bytes begun whole answer thawed
  have hlen := len_pos_of_wellFormed hformed
  have hgo (hpkt : r.pkt = 1#4 ∨ r.pkt = 2#4 ∨ r.pkt = 3#4) :=
    Dev.request_fresh (fs := s.fuse) hcarries hown hformed hfresh hpkt
  have hbegins (hthawed : thawed) (hpkt : r.pkt = 1#4 ∨ r.pkt = 2#4 ∨ r.pkt = 3#4) : s.dev.request s.fuse p r t =
      if r.space = 2#2 then d1.portControl s.fuse p r false else d1.portMemory p r false := by
    rw [hgo hpkt, show d1.isFrozen (portMid p) = false from hthawed, Bool.false_and, if_neg Bool.false_ne_true]
  refine ⟨fun hthawed hpkt hspace hwhole => ?_, fun hthawed hpkt hspace hwhole => ?_, fun hthawed hpkt hwhole => ?_,
    fun hthawed hpkt hspace hlen4 h4 hb hw => ?_, fun hthawed hpkt hspace hlen4 h4 hb hn hw => ?_,
    fun hthawed hpkt hspace hlen4 h4 hb hn hw => ?_, fun hfrozen hsec hpkt => ?_⟩
  · rw [exec_readRequest halive p hpkt, hbegins hthawed (by simp [hpkt]), if_neg hspace,
      Dev.portMemory_whole (kind := .portRead) (by simp [hpkt]) (if_pos rfl) hlen hwhole]
    rfl
  · rw [exec_writeRequest halive p hpkt, hbegins hthawed (by simp [hpkt]), if_neg hspace,
      Dev.portMemory_whole (kind := .portWrite) (by simp [hpkt]) (if_neg (by decide)) hlen hwhole]
    rfl
  · rw [exec_atomicRequest halive p hpkt, hbegins hthawed (by simp [hpkt]),
      if_neg (space_of_wellFormed_atomic hformed hpkt),
      Dev.portMemory_whole (kind := .portAtomic) (by simp [hpkt]) (if_neg (by decide)) hlen hwhole]
    rfl
  · rw [exec_readRequest halive p hpkt, hbegins hthawed (by simp [hpkt]), if_pos hspace, Dev.portControl_read hlen4 h4 hb hpkt hw]
  · rw [exec_writeRequest halive p hpkt, hbegins hthawed (by simp [hpkt]), if_pos hspace, Dev.portControl_write hlen4 h4 hb hpkt hw,
      if_neg (Bool.eq_false_iff.1 hn)]
  · rw [exec_writeRequest halive p hpkt, hbegins hthawed (by simp [hpkt]), if_pos hspace, Dev.portControl_write hlen4 h4 hb hpkt hw,
      if_pos hn]
  · rw [exec_readRequest halive p hpkt, hgo (by simp [hpkt]), if_pos (by simp [hfrozen, hsec])]
end

section
/-! SUPPORT. What sending leaves of a port: all but its transmit side and its window (11 R358-R365, R375). -/

namespace Sys2Proof.Machine

/-- The port without its transmit side and its window. -/
def PortS.unsent (x : PortS) : PortS :=
  { x with txSeq := 0, txBuf := [], reqQ := [], cplQ := [], midReq := false, midCpl := false, sentReq := 0, sentCpl := 0
           credReq := 0, credCpl := 0, attempts := 0, replayFirst := none, advAt := 0, rxNak := false, blk := 0, wire := [], win := [] }

section
variable {x y : PortS} (h : x.unsent = y.unsent)
include h

theorem PortS.st_of_unsent : x.st = y.st := congrArg (·.st) h
theorem PortS.entering_of_unsent : x.entering = y.entering := congrArg (·.entering) h
theorem PortS.psess_of_unsent : x.psess = y.psess := congrArg (·.psess) h
theorem PortS.outs_of_unsent : x.outs = y.outs := congrArg (·.outs) h

end

/-! ### The flit layer -/

theorem PortS.pump_unsent (now n : Nat) (x : PortS) : (x.pump now n).1.unsent = x.unsent := by
  induction n generalizing x with
  | zero => rfl
  | succ n ih =>
    unfold PortS.pump
    extract_lets cpl q out
    split
    · rfl
    · refine (ih _).trans ?_
      cases cpl <;> rfl

theorem PortS.putBlock_unsent (x : PortS) (fs : List (List Byte)) : (x.putBlock fs).unsent = x.unsent := by
  unfold PortS.putBlock
  dsimp only
  split <;> rfl

theorem PortS.sendItems_unsent (x : PortS) (hello : List Byte) (is : List TxItem) : (x.sendItems hello is).unsent = x.unsent := by
  unfold PortS.sendItems
  extract_lets is'
  have hflits : ∀ l : List TxItem, (l.foldl (fun (s : PortS × List (List Byte)) i =>
      let (x, b) := s.1.flit hello i
      (x, s.2 ++ [b])) (x, [])).1.unsent = x.unsent := fun l =>
    List.foldlRecOn (motive := fun s : PortS × List (List Byte) => s.1.unsent = x.unsent) l _ rfl (fun _ h _ _ => h)
  exact List.foldlRecOn (motive := fun y : PortS => y.unsent = x.unsent) _ _ (hflits is') (fun y h _ _ => (y.putBlock_unsent _).trans h)

/-! ### The module's ports -/

variable (d : Dev)

/-- Ports are as they were but for what sending changes. -/
def Dev.PortsUnsent (d e : Dev) : Prop := ∀ q, (e.port q).unsent = (d.port q).unsent

theorem Dev.PortsUnsent.trans {d e f : Dev} (h : d.PortsUnsent e) (h' : e.PortsUnsent f) : d.PortsUnsent f :=
  fun q => (h' q).trans (h q)

theorem Dev.PortsUnsent.of_ports {d e : Dev} (h : e.ports = d.ports) : d.PortsUnsent e := fun q => by
  rw [Dev.port, Dev.port, h]

theorem Dev.PortsUnsent.inc {d e : Dev} (h : d.PortsUnsent e) (c : Nat) : d.PortsUnsent (e.inc c) := h

theorem Dev.setPort_portsUnsent {p : Nat} {x : PortS} (h : x.unsent = (d.port p).unsent) : d.PortsUnsent (d.setPort p x) := by
  intro q
  rw [Dev.port_setPort]
  split
  next hq => rw [hq, h]
  · rfl

theorem Dev.modPort_portsUnsent {p : Nat} {f : PortS → PortS} (h : (f (d.port p)).unsent = (d.port p).unsent) :
    d.PortsUnsent (d.modPort p f) := d.setPort_portsUnsent h

theorem Dev.sendFlits_portsUnsent (p : Nat) (is : List TxItem) : d.PortsUnsent (d.sendFlits p is) := by
  unfold Dev.sendFlits
  split
  · exact .of_ports rfl
  · exact d.setPort_portsUnsent (PortS.sendItems_unsent _ _ _)

theorem Dev.pumpPort_portsUnsent (p : Nat) : d.PortsUnsent (d.pumpPort p) := by
  unfold Dev.pumpPort
  dsimp only
  split
  · exact .of_ports rfl
  · exact (d.setPort_portsUnsent (PortS.pump_unsent _ _ _)).trans (Dev.sendFlits_portsUnsent _ _ _)

theorem Dev.sendCpl_portsUnsent (p : Nat) (c : CplHdr) : d.PortsUnsent (d.sendCpl p c) := by
  unfold Dev.sendCpl
  split
  · refine .trans ?_ (Dev.pumpPort_portsUnsent _ p)
    exact .inc (d.modPort_portsUnsent rfl) _
  · exact .of_ports rfl

theorem Dev.reply_portsUnsent (p rsn st seals result : Nat) (data : List Byte) (pm : BitVec 64) :
    d.PortsUnsent (d.reply p rsn st seals result data pm) := by
  unfold Dev.reply
  split
  · exact .of_ports rfl
  · exact .trans (d.modPort_portsUnsent (p := p) rfl) (Dev.sendCpl_portsUnsent _ p _)

theorem Dev.finishPieces_ports (o : OutReq) (st : Nat) (data : List Byte) (pm : BitVec 64) :
    (d.finishPieces o st data pm).ports = d.ports := by
  unfold Dev.finishPieces
  split
  · rfl
  · exact List.foldlRecOn (motive := fun e : Dev => e.ports = d.ports) _ _ rfl (fun _ h _ _ => h)

/-! ### Outstanding requests -/

/-- An outstanding request that ends leaves the list of its port; its completion is sent, or its pieces complete. -/
theorem Dev.outEnd_portsUnsent (p : Nat) (o : OutReq) (st seals result : Nat) (data : List Byte) (pm : BitVec 64) :
    (d.modPort p (fun x => { x with outs := x.outs.filter (fun y => y.rsn != o.rsn) })).PortsUnsent
      (d.outEnd p o st seals result data pm) := by
  unfold Dev.outEnd
  dsimp only
  split
  · exact Dev.reply_portsUnsent _ _ _ _ _ _ _ _
  · exact .of_ports (Dev.finishPieces_ports _ _ _ _ _)

theorem Dev.outEnd_outs (p : Nat) (o : OutReq) (st seals result : Nat) (data : List Byte) (pm : BitVec 64) :
    ((d.outEnd p o st seals result data pm).port p).outs = (d.port p).outs.filter (fun y => y.rsn != o.rsn) := by
  rw [PortS.outs_of_unsent (d.outEnd_portsUnsent p o st seals result data pm p), Dev.modPort, Dev.port_setPort_self]

theorem Dev.outEnd_st (p : Nat) (o : OutReq) (st seals result : Nat) (data : List Byte) (pm : BitVec 64) (q : Nat) :
    ((d.outEnd p o st seals result data pm).port q).st = (d.port q).st := by
  rw [PortS.st_of_unsent (d.outEnd_portsUnsent p o st seals result data pm q), Dev.modPort, Dev.port_setPort]
  split
  next hq => rw [hq]
  · rfl

end Sys2Proof.Machine
end

section
/-! SUPPORT. Completions and timeouts (11 R382). -/

namespace Sys2Proof.Machine

variable {d : Dev} {p t : Nat}

/-! ### COMPLETION -/

section
variable {c : CplHdr} (hcarries : d.carries p (cplBytes c) = true)
include hcarries

theorem Dev.completion_unknown
    (h : ((((d.upTo t).takePacket p (cplBytes c)).inc (cPort p 27)).port p).outs.find? (fun o => o.rsn == c.rsn.toNat) = none) :
    d.completion p c t = (((d.upTo t).takePacket p (cplBytes c)).inc (cPort p 27)).inc (cPort p 32) := by
  unfold Dev.completion
  extract_lets e f
  rw [show e.carries p (cplBytes c) = true from hcarries, Bool.not_true, if_neg Bool.false_ne_true,
    show (f.port p).outs.find? _ = none from h]
  rfl

theorem Dev.completion_ends {o : OutReq} (h : ((((d.upTo t).takePacket p (cplBytes c)).inc (cPort p 27)).port p).outs.find?
      (fun o => o.rsn == c.rsn.toNat) = some o) :
    d.completion p c t = (((d.upTo t).takePacket p (cplBytes c)).inc (cPort p 27)).outEnd p o c.status.toNat c.sealRes.toNat
      c.result.toNat c.data c.pmask := by
  unfold Dev.completion
  extract_lets e f
  rw [show e.carries p (cplBytes c) = true from hcarries, Bool.not_true, if_neg Bool.false_ne_true,
    show (f.port p).outs.find? _ = some o from h]
  rfl

end

/-! ### TRANSACTION_TIMEOUT -/

/-- The port with one more request that expired in this frame. -/
def Dev.expire (d : Dev) (x : PortS) : PortS :=
  { x with expired := match x.expired with
      | some (n, f, s) => some (n + 1, f, s)
      | none => some (1, d.frame % 2 ^ 32, (d.now - d.lastTick) % 2 ^ 32) }

/-- A request that has waited its ACTIVE time expires, is counted and ends PORT_DOWN. -/
theorem Dev.timeout_expires {n : Nat} {o : OutReq} (ho : (d.port p).outs.find? (fun o => o.rsn == n) = some o)
    (hst : (d.port p).st = 3) (hwaited : o.queued + o.limit ≤ (d.port p).active (max d.now t)) :
    d.timeout p n t = (((d.upTo t).modPort p (d.upTo t).expire).inc (cPort p 31)).outEnd p o 10 0 0 [] 0#64 := by
  unfold Dev.timeout
  extract_lets e
  rw [show (e.port p).outs.find? _ = some o from ho]
  have hstE : (e.port p).st = 3 := hst
  have hwaitedE : o.queued + o.limit ≤ (e.port p).active e.now := hwaited
  exact if_neg (by simp [hstE, hwaitedE])

theorem Dev.expire_isSome (x : PortS) : (d.expire x).expired.isSome = true := by
  unfold Dev.expire
  cases x.expired <;> rfl

end Sys2Proof.Machine
end

section
/-! SUPPORT. Ends of outstanding requests. -/

open Sys2Proof Sys2Proof.Machine

/-- Settles O43: a completion and a timeout by the request that they find, which leaves the list of its port. -/
theorem requestsEnd : Obligations.RequestsEnd := by
  intro s p t halive d
  refine ⟨fun c hcarries => ⟨fun hnone => ?_, fun o ho => ?_⟩, fun n o ho hst hwaited => ?_,
    fun e q o st seals result data pm => e.outEnd_outs q o st seals result data pm⟩
  · exact exec_devRow (act := fun d => d.completion p c t) rfl halive (Dev.completion_unknown hcarries hnone)
  · exact exec_devRow (act := fun d => d.completion p c t) rfl halive (Dev.completion_ends hcarries ho)
  · refine ⟨((d.upTo t).modPort p (d.upTo t).expire).inc (cPort p 31),
      exec_devRow (act := fun d => d.timeout p n.toNat t) rfl halive (Dev.timeout_expires ho hst hwaited), ?_⟩
    have hport : (((d.upTo t).modPort p (d.upTo t).expire).inc (cPort p 31)).port p = (d.upTo t).expire (d.port p) :=
      Dev.port_setPort_self _ _ _
    rw [hport]
    exact ⟨Dev.expire_isSome _, rfl, rfl, rfl⟩
end

section
/-! SUPPORT. How a port leaves TRAIN, QUALIFY, RETRAIN and DOWN (11 R366-R369). -/

namespace Sys2Proof.Machine

theorem Dev.ports_of_bare {d e : Dev} (h : e.bare = d.bare) : e.ports = d.ports := congrArg (·.ports) h

theorem Dev.bup_of_bare {d e : Dev} (h : e.bare = d.bare) : e.bup = d.bup := congrArg (·.bup) h

@[simp] theorem Dev.raise_port (d : Dev) (s : Nat) (r : ErrRec) (p : Nat) : (d.raise s r).port p = d.port p :=
  congrArg (·.get p {}) (Dev.ports_of_bare (d.raise_bare s r))

/-- The ends of the outstanding requests leave a port that goes down DOWN. -/
theorem Dev.portDown_st (d : Dev) (p : Nat) : ((d.portDown p).port p).st = 5 := by
  unfold Dev.portDown
  extract_lets x y e f
  split
  next hdown => exact beq_iff_eq.1 hdown
  · refine List.foldlRecOn (motive := fun g : Dev => (g.port p).st = 5) _ _ ?_ (fun g h o _ => (g.outEnd_st p o _ _ _ _ _ p).trans h)
    have hf : f.port p = e.port p := Dev.raise_port _ _ _ p
    rw [hf, Dev.port_setPort_self]

variable {d : Dev} {p t w g : Nat} {lanes : BitVec 8} {set : List Word}

/-! ### TRAIN -/

/-- Whether training was a fast start: some lane has settings to start from (11 R367). -/
def Dev.fastStart (d : Dev) (p : Nat) (fast : Bool) : Bool := fast && d.fastLanes p != 0#8

/-- The lanes that training found: of a fast start those that had settings. -/
def Dev.trainedLanes (d : Dev) (p : Nat) (fast : Bool) (lanes : BitVec 8) : BitVec 8 :=
  if d.fastStart p fast = true then lanes &&& d.fastLanes p else lanes

section
variable {fast : Bool} (hst : ((d.upTo t).port p).st = 1)
include hst

theorem Dev.trainingEnd_group (hpick : (d.upTo t).pickGroup ((d.upTo t).trainedLanes p fast lanes) = some (w, g)) :
    d.trainingEnd p lanes fast set t = ((d.upTo t).modPort p (fun x =>
      { x with st := 2, stAt := (d.upTo t).now, width := w, group := g, fast := (d.upTo t).fastStart p fast
               laneOk := if (d.upTo t).fastStart p fast = true then (d.upTo t).trainedLanes p fast lanes else x.laneOk
               laneBad := if (d.upTo t).fastStart p fast = true then x.laneBad ||| ~~~ (d.upTo t).trainedLanes p fast lanes
                 else x.laneBad })).setEq p ((d.upTo t).savedEq p) set := by
  unfold Dev.trainingEnd
  extract_lets e f ls
  rw [show (e.port p).st = 1 from hst, if_neg (by decide), show e.pickGroup ls = some (w, g) from hpick]
  rfl

theorem Dev.trainingEnd_narrow (hpick : (d.upTo t).pickGroup ((d.upTo t).trainedLanes p fast lanes) = none) :
    d.trainingEnd p lanes fast set t = if (d.upTo t).fastStart p fast = true then
      (d.upTo t).modPort p (fun x => { x with fast := false, laneOk := (d.upTo t).trainedLanes p fast lanes })
      else (d.upTo t).portDown p := by
  unfold Dev.trainingEnd
  extract_lets e f ls
  rw [show (e.port p).st = 1 from hst, if_neg (by decide), show e.pickGroup ls = none from hpick]
  rfl

end

/-! ### QUALIFY and RETRAIN -/

/-- The lanes out of use after a check that these lanes passed (11 R369). -/
def Dev.lanesBad (d : Dev) (p : Nat) (lanes : BitVec 8) : BitVec 8 := (d.port p).laneBad ||| ~~~ lanes

/-- The device with the outcome of a check at its port. -/
def Dev.lanesChecked (d : Dev) (p : Nat) (lanes : BitVec 8) : Dev :=
  d.modPort p (fun y => { y with laneBad := d.lanesBad p lanes, laneOk := lanes })

theorem Dev.widthErr_bup (d : Dev) (p old new : Nat) : (d.widthErr p old new).bup = d.bup := by
  unfold Dev.widthErr
  split
  · exact Dev.bup_of_bare (d.raise_bare _ _)
  · rfl

section
variable (hst : ((d.upTo t).port p).st = 2) (hready : ((d.upTo t).port p).ready = false)
include hst hready

theorem Dev.qualifyEnd_group (hpick : (d.upTo t).pickGroup (~~~ (d.upTo t).lanesBad p lanes) = some (w, g)) :
    let e := (((d.upTo t).lanesChecked p lanes).modPort p (fun y => { y with width := w, group := g, ready := true })).widthErr p
      ((d.upTo t).port p).width w
    d.qualifyEnd p lanes t = if (d.upTo t).bup.stage = 7 then e.portEnter p else e := by
  intro e
  have hstage : e.bup.stage = (d.upTo t).bup.stage := congrArg (·.stage) (Dev.widthErr_bup _ _ _ _)
  unfold Dev.qualifyEnd
  extract_lets f x bad checked
  rw [show x.st = 2 from hst, show x.ready = false from hready, if_neg (by decide),
    show checked.pickGroup (~~~ bad) = some (w, g) from hpick, ← hstage]
  exact if_congr beq_iff_eq rfl rfl

theorem Dev.qualifyEnd_narrow (hpick : (d.upTo t).pickGroup (~~~ (d.upTo t).lanesBad p lanes) = none) :
    d.qualifyEnd p lanes t = ((d.upTo t).lanesChecked p lanes).portDown p := by
  unfold Dev.qualifyEnd
  extract_lets f x bad checked
  rw [show x.st = 2 from hst, show x.ready = false from hready, if_neg (by decide),
    show checked.pickGroup (~~~ bad) = none from hpick]
  rfl

end

section
variable (hst : ((d.upTo t).port p).st = 4) (hwaiting : ((d.upTo t).port p).entering = false)
include hst hwaiting

theorem Dev.retrainEnd_group (hpick : (d.upTo t).pickGroup (~~~ (d.upTo t).lanesBad p lanes) = some (w, g))
    (hintime : (d.upTo t).now ≤ ((d.upTo t).port p).stAt + 300000000) :
    d.retrainEnd p lanes set t = (((((d.upTo t).lanesChecked p lanes).modPort p (fun y => { y with width := w, group := g })).setEq p
      ((d.upTo t).savedEq p) set).widthErr p ((d.upTo t).port p).width w).portEnter p := by
  unfold Dev.retrainEnd
  extract_lets f x bad checked
  rw [show x.st = 4 from hst, show x.entering = false from hwaiting, if_neg (by decide),
    show checked.pickGroup (~~~ bad) = some (w, g) from hpick]
  exact if_neg (Nat.not_lt.2 hintime)

theorem Dev.retrainEnd_narrow (hpick : (d.upTo t).pickGroup (~~~ (d.upTo t).lanesBad p lanes) = none) :
    d.retrainEnd p lanes set t = ((d.upTo t).lanesChecked p lanes).portDown p := by
  unfold Dev.retrainEnd
  extract_lets f x bad checked
  rw [show x.st = 4 from hst, show x.entering = false from hwaiting, if_neg (by decide),
    show checked.pickGroup (~~~ bad) = none from hpick]
  rfl

end

theorem Dev.retrainTimeout_late (hst : ((d.upTo t).port p).st = 4) (hlate : ((d.upTo t).port p).stAt + 300000000 ≤ t) :
    d.retrainTimeout p t = (d.upTo t).portDown p := by
  unfold Dev.retrainTimeout
  extract_lets e
  have hlateE : (e.port p).stAt + 300000000 ≤ t := hlate
  rw [show (e.port p).st = 4 from hst]
  exact if_pos (by simp [hlateE])

/-! ### DOWN -/

theorem Dev.downTimeout_trains (hst : ((d.upTo t).port p).st = 5) (hlate : ((d.upTo t).port p).stAt + 100000000 ≤ t)
    (hen : d.portEn p = true) (hfree : d.portStopped p = false) (hclk : d.pin.refclk = true) (hresets : d.bup.resets = []) :
    d.downTimeout p t = (d.upTo t).modPort p (fun x => { x with st := 1, stAt := (d.upTo t).now, laneBad := 0#8 }) := by
  unfold Dev.downTimeout
  extract_lets e
  have hlateE : (e.port p).stAt + 100000000 ≤ t := hlate
  rw [show (e.port p).st = 5 from hst, show e.portEn p = true from hen, show e.portStopped p = false from hfree,
    show e.pin.refclk = true from hclk, show e.bup.resets = [] from hresets]
  exact if_pos (by simp [hlateE])

end Sys2Proof.Machine
end

section
/-! SUPPORT. The peer's HELLO makes a port that waits for it ACTIVE (11 R366, R371). -/

namespace Sys2Proof.Machine

variable {d : Dev} {p : Nat} {bs : List Byte}

/-- The lowest byte of a number is the first of its bytes. -/
theorem atBytes_mod (bs : List Byte) (n : Nat) : atBytes bs 0 (n + 1) % 256 = atBytes bs 0 1 := by
  cases bs with
  | nil => rfl
  | cons b l =>
    simp only [atBytes, leNat, List.drop_zero, List.take_succ_cons, List.foldr_cons, List.take_zero, List.foldr_nil]
    have := b.isLt
    omega

/-- On a port that is not ACTIVE an acknowledgement changes the transmit side alone. -/
theorem Dev.takeAck_portsUnsent (w0 w1 : Nat) (hst : (d.port p).st ≠ 3) : d.PortsUnsent (d.takeAck p w0 w1) := by
  unfold Dev.takeAck
  extract_lets x0 ty ack x n hit passed x1 x2 d1 d2
  split
  · exact .trans (d.setPort_portsUnsent (p := p) (x := x) rfl) (Dev.pumpPort_portsUnsent _ p)
  · have h1 : x1.unsent = (d.port p).unsent := by
      unfold x1
      split <;> rfl
    have h2 : x2.unsent = (d.port p).unsent := by
      unfold x2
      split
      · exact h1
      · exact h1
    have hd2 : d2 = d1 := if_neg (by simp [PortS.st_of_unsent h2, hst])
    rw [hd2]
    exact .trans (d.setPort_portsUnsent h2) (Dev.pumpPort_portsUnsent _ p)

/-- A port that enters ACTIVE sends, and stays ACTIVE. -/
theorem Dev.portActive_st (d : Dev) (p : Nat) : ((d.portActive p).port p).st = 3 ∧ ((d.portActive p).port p).entering = false := by
  unfold Dev.portActive
  generalize hf : d.modPort p _ = f
  have hport : (f.port p).st = 3 ∧ (f.port p).entering = false := by
    rw [← hf, Dev.modPort, Dev.port_setPort_self]
    exact ⟨rfl, rfl⟩
  have hsent : f.PortsUnsent ((f.resend p).pumpPort p) := (f.sendFlits_portsUnsent p _).trans (Dev.pumpPort_portsUnsent _ p)
  rw [PortS.st_of_unsent (hsent p), PortS.entering_of_unsent (hsent p)]
  exact hport

section
variable {sess : Word} {id : Nat} (gone : Dev → Dev) (hkind : id / 2 ^ 15 % 2 = 1 ↔ p = 0)
  (hsess : (d.port p).psess = none ∨ (d.port p).psess = some sess) (hwaits : (d.port p).entering = true)
include hkind hsess hwaits

/-- The HELLO of a peer of the right kind, in the session known so far, makes a port that waits for it ACTIVE. -/
theorem Dev.helloGo_activates :
    ((d.helloGo p sess id gone).port p).st = 3 ∧ ((d.helloGo p sess id gone).port p).entering = false := by
  have hsame : ((d.port p).psess.isSome && (d.port p).psess != some sess) = false := by
    rcases hsess with h | h <;> simp [h]
  have hpeer : ¬ ((id / 2 ^ 15 % 2 == 1) != (p == 0)) = true := by
    rw [show (id / 2 ^ 15 % 2 == 1) = (p == 0) from Bool.eq_iff_iff.2 (by rw [beq_iff_eq, beq_iff_eq, hkind]), bne_self_eq_false]
    exact Bool.false_ne_true
  unfold Dev.helloGo
  extract_lets x host peer changed e f
  have hf : f = e.portActive p := by
    unfold f
    rw [if_neg hpeer, show changed = false from hsame, if_neg Bool.false_ne_true]
    exact if_pos hwaits
  rw [show changed = false from hsame, if_neg Bool.false_ne_true, hf]
  exact e.portActive_st p

end

/-- A whole flit of the right type is received by its own row. -/
theorem Dev.flitRow_own {own : Nat → Bool} (hown : own (atBytes bs 0 4 % 16) = true) :
    d.flitRow p bs own = d.rxFlit p bs (fun d => d.endSession p) := by
  unfold Dev.flitRow
  extract_lets bad
  exact if_pos (by simp [hown])

/-- The device once a flit has left the port's list of flits. -/
def Dev.flitTaken (d : Dev) (p : Nat) (bs : List Byte) : Dev := d.modPort p (fun x => { x with flits := x.flits.erase bs })

theorem Dev.flitTaken_keeps (d : Dev) (p : Nat) (bs : List Byte) : ((d.flitTaken p bs).port p).st = (d.port p).st ∧
    ((d.flitTaken p bs).port p).entering = (d.port p).entering ∧ ((d.flitTaken p bs).port p).psess = (d.port p).psess := by
  rw [Dev.flitTaken, Dev.modPort, Dev.port_setPort_self]
  exact ⟨rfl, rfl, rfl⟩

section
variable (gone : Dev → Dev) (hlen : bs.length = 256) (hcrc : (crc64 (bs.take 248)).toNat = atBytes bs 248 8)
  (hty : atBytes bs 0 4 % 16 = 2) (hmsg : atBytes bs 8 1 = 1) (hwaits : (d.port p).entering = true)
include hlen hcrc hty hmsg hwaits

/-- A good HELLO acknowledges, and its payload is taken. -/
theorem Dev.rxFlit_hello : d.rxFlit p bs gone = ((d.flitTaken p bs).takeAck p (atBytes bs 0 4) (atBytes bs 4 4)).helloGo p
    (BitVec.ofNat 32 (atBytes bs 16 4)) (atBytes bs 20 2) gone := by
  have hlow : atBytes bs 0 1 % 16 = 2 := by
    have hmod : atBytes bs 0 4 % 256 = atBytes bs 0 1 := atBytes_mod bs 3
    omega
  obtain ⟨-, hentering, -⟩ := d.flitTaken_keeps p bs
  unfold Dev.rxFlit
  extract_lets e w0 w1 ty
  have hwaitsE : (e.port p).entering = true := hentering.trans hwaits
  have htyE : ty = 2 := hty
  rw [if_neg (by simp [hwaitsE, hlow]), if_neg (by simp [hlen, hcrc]), if_neg (by simp [htyE, hmsg]), if_pos (by simp [htyE])]
  rfl

/-- A port that waits to be ACTIVE is so once it has received the peer's HELLO. -/
theorem Dev.rxFlit_activates (hkind : atBytes bs 20 2 / 2 ^ 15 % 2 = 1 ↔ p = 0) (hst : (d.port p).st ≠ 3)
    (hsess : (d.port p).psess = none ∨ (d.port p).psess = some (BitVec.ofNat 32 (atBytes bs 16 4))) :
    ((d.rxFlit p bs gone).port p).st = 3 ∧ ((d.rxFlit p bs gone).port p).entering = false := by
  obtain ⟨hstE, hentering, hpsess⟩ := d.flitTaken_keeps p bs
  have hack := Dev.takeAck_portsUnsent (d := d.flitTaken p bs) (p := p) (atBytes bs 0 4) (atBytes bs 4 4) (hstE ▸ hst) p
  rw [Dev.rxFlit_hello gone hlen hcrc hty hmsg hwaits]
  refine Dev.helloGo_activates gone hkind ?_ (((PortS.entering_of_unsent hack).trans hentering).trans hwaits)
  rw [PortS.psess_of_unsent hack, hpsess]
  exact hsess

end

end Sys2Proof.Machine
end

section
/-! SUPPORT. The states of a link port. -/

open Sys2Proof Sys2Proof.Machine

/-- Settles O45: each clause is one case of the row's own function; HELLO by `Dev.rxFlit_activates`. -/
theorem linkStates : Obligations.LinkStates := by
  intro s p lanes set t halive d x bad checked
  refine ⟨fun fast hst => ⟨fun w g hpick => ?_, fun hpick => ?_⟩, fun hst hready => ⟨fun w g hpick => ?_, fun hpick => ?_⟩,
    fun hst hwaiting => ⟨fun w g hpick hintime => ?_, fun hpick => ?_⟩, fun flit hlen hcrc hty hmsg hkind hwaits hst hsess => ?_,
    fun hst hlate => ?_, fun hst hlate hen hfree hclk hresets => ?_, d.portDown_st p⟩
  · exact exec_devRow (act := fun d => d.trainingEnd p lanes fast set t) rfl halive (Dev.trainingEnd_group hst hpick)
  · exact exec_devRow (act := fun d => d.trainingEnd p lanes fast set t) rfl halive (Dev.trainingEnd_narrow hst hpick)
  · exact exec_devRow (act := fun d => d.qualifyEnd p lanes t) rfl halive (Dev.qualifyEnd_group hst hready hpick)
  · exact exec_devRow (act := fun d => d.qualifyEnd p lanes t) rfl halive (Dev.qualifyEnd_narrow hst hready hpick)
  · exact exec_devRow (act := fun d => d.retrainEnd p lanes set t) rfl halive (Dev.retrainEnd_group hst hwaiting hpick hintime)
  · exact exec_devRow (act := fun d => d.retrainEnd p lanes set t) rfl halive (Dev.retrainEnd_narrow hst hwaiting hpick)
  · exact ⟨_, exec_devRow (act := fun d => (d.upTo t).flitRow p flit (fun t => t == 2)) rfl halive
      (Dev.flitRow_own (by simp [hty])), Dev.rxFlit_activates _ hlen hcrc hty hmsg hwaits hkind hst hsess⟩
  · exact exec_devRow (act := fun d => d.retrainTimeout p t) rfl halive (Dev.retrainTimeout_late hst hlate)
  · exact exec_devRow (act := fun d => d.downTimeout p t) rfl halive (Dev.downTimeout_trains hst hlate hen hfree hclk hresets)
end

section
/-! SUPPORT. What programs the one-time memory (12 R397, R399, R406): three commands over the links, and the end of a firmware update,
which raises minimum versions alone (12 R412). -/

namespace Sys2Proof.Machine

/-! ### Programming -/

section
variable (fs : Fuses)

theorem OneWay.refl : OneWay fs fs := ⟨rfl, rfl, rfl, fun _ h => h, fun _ => rfl, fun _ h => h, rfl⟩

theorem OneWay.of_eq {fs fs' : Fuses} (h : fs' = fs) : OneWay fs fs' := h ▸ .refl fs

theorem OneWay.minVer (l : List Nat) : OneWay fs { fs with minVer := l } :=
  ⟨rfl, rfl, rfl, fun _ h => h, fun _ => rfl, fun _ h => h, rfl⟩

/-- An empty owner slot may come to hold anything. -/
theorem OneWay.owner_of_none (o : Option (BitVec 256)) (h : fs.owner.isSome = false) : OneWay fs { fs with owner := o } :=
  ⟨rfl, rfl, rfl, fun _ h => h, fun hsome => absurd hsome (by simp [h]), fun _ h => h, rfl⟩

theorem OneWay.revoke (m : BitVec 4) : OneWay fs { fs with revoked := fs.revoked ||| m } :=
  ⟨rfl, rfl, rfl, fun i h => by simp [h], fun _ => rfl, fun _ h => h, rfl⟩

theorem OneWay.retire (u : Nat × Nat) : OneWay fs { fs with retired := (fs.retired ++ [u]).eraseDups } :=
  ⟨rfl, rfl, rfl, fun _ h => h, fun _ => rfl, fun _ h => by simp [h], rfl⟩

end

/-! ### Commands over the links -/

section
variable (d : Dev) (fs : Fuses) (c : CmdPkt)

/-- The fuses after a command are those before it, or those that its type's action leaves. -/
theorem Dev.cmdGo_fuses (ty : Nat) (act : Dev → Dev × Fuses × Nat) :
    (d.cmdGo fs c ty act).2.1 = fs ∨ ∃ e, (d.cmdGo fs c ty act).2.1 = (act e).2.1 := by
  unfold Dev.cmdGo
  dsimp only
  repeat' split
  any_goals exact .inl rfl
  all_goals exact .inr ⟨_, rfl⟩

/-- A command whose type's action is one-way is so as a whole. -/
theorem Dev.cmdRow_oneWay (ty : Nat) {act : Dev → Dev × Fuses × Nat} (h : ∀ e, OneWay fs (act e).2.1) :
    OneWay fs (d.cmdRow fs c ty act).2 := by
  obtain hfs | ⟨e, hfs⟩ := d.cmdGo_fuses fs c ty act
  · exact .of_eq hfs
  · rw [Dev.cmdRow, hfs]
    exact h e

theorem Dev.initGo_fuses : (d.initGo fs c).2.1 = fs := by
  unfold Dev.initGo
  dsimp only
  split <;> rfl

theorem Dev.attestGo_fuses : (d.attestGo fs c).2.1 = fs := by
  unfold Dev.attestGo
  dsimp only
  split
  · rfl
  · split_ifs <;> rfl

theorem Dev.updateGo_fuses : (d.updateGo fs c).2.1 = fs := by
  unfold Dev.updateGo
  dsimp only
  split
  · rfl
  · split_ifs <;> rfl

theorem Dev.cfgGo_fuses : (d.cfgGo fs c).2.1 = fs := by
  unfold Dev.cfgGo
  split <;> rfl

theorem Dev.capGo_fuses : (d.capGo fs c).2.1 = fs := by
  unfold Dev.capGo
  dsimp only
  split_ifs <;> rfl

theorem Dev.unfreezeGo_fuses : (d.unfreezeGo fs c).2.1 = fs := by
  unfold Dev.unfreezeGo
  dsimp only
  split_ifs <;> rfl

theorem Dev.editGo_fuses : (d.editGo fs c).2.1 = fs := by
  unfold Dev.editGo
  dsimp only
  split_ifs <;> rfl

theorem Dev.windowGo_fuses : (d.windowGo fs c).2.1 = fs := by
  unfold Dev.windowGo
  dsimp only
  split_ifs <;> rfl

theorem Dev.bindGo_fuses : (d.bindGo fs c).2.1 = fs := by
  unfold Dev.bindGo
  dsimp only
  split_ifs <;> rfl

theorem Dev.resetGo_fuses : (d.resetGo fs c).2.1 = fs := by
  unfold Dev.resetGo
  dsimp only
  split_ifs <;> rfl

theorem Dev.unlockGo_fuses : (d.unlockGo fs c).2.1 = fs := by
  unfold Dev.unlockGo
  dsimp only
  split_ifs <;> rfl

/-- KEY_OWNER_SET programs an empty slot only (12 R405). -/
theorem Dev.ownerGo_oneWay (blown : Bool) : OneWay fs (d.ownerGo fs c blown).2.1 := by
  unfold Dev.ownerGo
  dsimp only
  split_ifs with hslot howner hcode
  · exact .refl fs
  · exact .refl fs
  · exact .refl fs
  all_goals exact .owner_of_none fs _ (Bool.eq_false_iff.2 howner)

theorem Dev.revokeGo_oneWay (blown : Bool) : OneWay fs (d.revokeGo fs c blown).2.1 := by
  unfold Dev.revokeGo
  dsimp only
  split_ifs
  · exact .refl fs
  · exact .refl fs
  · exact .revoke fs _
  · exact .refl fs

theorem Dev.retireGo_oneWay (blown : Bool) : OneWay fs (d.retireGo fs c blown).2.1 := by
  unfold Dev.retireGo
  dsimp only
  split_ifs
  · exact .refl fs
  · exact .refl fs
  · exact .retire fs _
  · exact .refl fs

theorem Dev.resetCmd_oneWay : OneWay fs (d.resetCmd fs c).2 := by
  have hcmd := d.cmdRow_oneWay fs c 0x70 (act := fun e => e.resetGo fs c) fun e => .of_eq (e.resetGo_fuses fs c)
  unfold Dev.resetCmd
  dsimp only
  split <;> exact hcmd

end

/-! ### Ticks -/

section
variable (d : Dev) (fs : Fuses) (t : Nat) (env : TickEnv)

/-- The fuses at a boundary change by the end of a firmware update alone (12 R412). -/
theorem Dev.fwBoundary_oneWay : OneWay fs (d.fwBoundary fs).2 := by
  unfold Dev.fwBoundary
  extract_lets live f
  split
  · exact .refl fs
  · split
    · exact .refl fs
    · split
      · exact .minVer fs _
      · exact .refl fs

theorem Dev.boundary_oneWay (ran : List Nat) (planned : Bool) (role phase : Nat) :
    OneWay fs (d.boundary fs ran planned role phase env).2 := by
  unfold Dev.boundary
  extract_lets
  split
  next heq => exact (congrArg (OneWay fs ·.2) heq).mp (Dev.fwBoundary_oneWay _ fs)

theorem Dev.tickGo_oneWay (internal fallback : Bool) : OneWay fs (d.tickGo fs t internal fallback env).2 := by
  unfold Dev.tickGo
  extract_lets
  split
  next heq => exact (congrArg (OneWay fs ·.2) heq).mp (Dev.boundary_oneWay _ fs env _ _ _ _)

theorem Dev.tickEdge_oneWay (high : Nat) : OneWay fs (d.tickEdge fs t high env).2 := by
  unfold Dev.tickEdge
  extract_lets
  split_ifs
  · exact .refl fs
  · exact .refl fs
  · exact .refl fs
  · exact .refl fs
  · exact Dev.tickGo_oneWay _ fs t env false false

theorem Dev.internalTick_oneWay : OneWay fs (d.internalTick fs t env).2 := by
  unfold Dev.internalTick
  extract_lets f due src
  split
  · exact .refl fs
  · split
    · exact Dev.tickGo_oneWay _ fs t env true false
    · exact Dev.tickGo_oneWay _ fs t env true false

theorem Dev.fallbackTick_oneWay : OneWay fs (d.fallbackTick fs t env).2 := by
  unfold Dev.fallbackTick
  extract_lets
  split
  · exact .refl fs
  · split
    next heq => exact (congrArg (OneWay fs ·.2) heq).mp (Dev.tickGo_oneWay _ fs t env true true)

end

/-! ### Steps -/

/-- The ways in which a command acts on a state: on the device of a running module, on its device and its fuses, and there one-way, or
on the device in every state. -/
inductive Acts (s : State) : Out → Prop
  | device (f : Dev → Dev) : Acts s (onDev f s)
  | pins (f : Dev → Dev) : Acts s (onPin f s)
  | fuses (f : Dev → Fuses → Dev × Fuses) (h : ∀ d fs, OneWay fs (f d fs).2) : Acts s (onFuse f s)

/-- However a command acts, its fuses go one way. -/
theorem Acts.oneWay {s t : State} {o : Out} (h : Acts s o) (ht : o = .next t) : OneWay s.fuse t.fuse := by
  cases h with
  | device f =>
    obtain ⟨u, hu, -, -, hfs⟩ := onDev_answers f s
    obtain rfl : u = t := Host.Outcome.next.inj (hu.symm.trans ht)
    exact .of_eq hfs
  | pins f =>
    obtain ⟨u, hu, -, -, hfs⟩ := onPin_answers f s
    obtain rfl : u = t := Host.Outcome.next.inj (hu.symm.trans ht)
    exact .of_eq hfs
  | fuses f hone =>
    obtain ⟨u, hu, -, -, hfs⟩ := onFuse_answers f s
    obtain rfl : u = t := Host.Outcome.next.inj (hu.symm.trans ht)
    rcases hfs with hfs | hfs
    · exact .of_eq hfs
    · exact hfs ▸ hone s.dev s.fuse

/-- Every command acts in one of these ways: the ticks and the commands over the links on the fuses too. -/
theorem exec_acts (i : Instr) (s : State) : Acts s (exec i s) := by
  unfold exec
  cases i with
  | frameTickEdge t high env => exact .fuses _ fun d fs => d.tickEdge_oneWay fs t env high
  | internalTick t env => exact .fuses _ fun d fs => d.internalTick_oneWay fs t env
  | fallbackTick t env => exact .fuses _ fun d fs => d.fallbackTick_oneWay fs t env
  | sessionInit c => exact .fuses _ fun d fs => d.cmdRow_oneWay fs c _ fun e => .of_eq (e.initGo_fuses fs c)
  | attest c => exact .fuses _ fun d fs => d.cmdRow_oneWay fs c _ fun e => .of_eq (e.attestGo_fuses fs c)
  | fwUpdate c => exact .fuses _ fun d fs => d.cmdRow_oneWay fs c _ fun e => .of_eq (e.updateGo_fuses fs c)
  | cfgWrite c => exact .fuses _ fun d fs => d.cmdRow_oneWay fs c _ fun e => .of_eq (e.cfgGo_fuses fs c)
  | powerCap c => exact .fuses _ fun d fs => d.cmdRow_oneWay fs c _ fun e => .of_eq (e.capGo_fuses fs c)
  | keyOwnerSet c blown => exact .fuses _ fun d fs => d.cmdRow_oneWay fs c _ fun e => e.ownerGo_oneWay fs c blown
  | keyVendorRevoke c blown => exact .fuses _ fun d fs => d.cmdRow_oneWay fs c _ fun e => e.revokeGo_oneWay fs c blown
  | unfreeze c => exact .fuses _ fun d fs => d.cmdRow_oneWay fs c _ fun e => .of_eq (e.unfreezeGo_fuses fs c)
  | rtmapEdit c => exact .fuses _ fun d fs => d.cmdRow_oneWay fs c _ fun e => .of_eq (e.editGo_fuses fs c)
  | fuseRetire c blown => exact .fuses _ fun d fs => d.cmdRow_oneWay fs c _ fun e => e.retireGo_oneWay fs c blown
  | windowSet c => exact .fuses _ fun d fs => d.cmdRow_oneWay fs c _ fun e => .of_eq (e.windowGo_fuses fs c)
  | portBind c => exact .fuses _ fun d fs => d.cmdRow_oneWay fs c _ fun e => .of_eq (e.bindGo_fuses fs c)
  | halfLayerReset c => exact .fuses _ fun d fs => d.resetCmd_oneWay fs c
  | stackReset c => exact .fuses _ fun d fs => d.resetCmd_oneWay fs c
  | moduleReset c => exact .fuses _ fun d fs => d.resetCmd_oneWay fs c
  | debugUnlock c => exact .fuses _ fun d fs => d.cmdRow_oneWay fs c _ fun e => .of_eq (e.unlockGo_fuses fs c)
  | unlistedCmdType ty c =>
    refine .fuses _ fun d fs => ?_
    split
    · exact .refl fs
    · exact d.cmdRow_oneWay fs c _ fun _ => .refl fs
  | _ => dsimp only; constructor

/-- Every step of the queue goes one way. -/
theorem step_oneWay {s t : State} (h : step s = .next t) : OneWay s.fuse t.fuse := by
  unfold step at h
  split at h
  · exact .of_eq (congrArg State.fuse (Host.Outcome.next.inj h)).symm
  · have hone := (exec_acts _ _).oneWay h
    exact hone

end Sys2Proof.Machine
end

section
/-! SUPPORT. The one-time memory. -/

open Sys2Proof Sys2Proof.Machine

/-- Settles O6: what programs the fuses adds to them, command by command, and a frame boundary raises minimum versions alone. -/
theorem oneTimeMemoryOneWay : Obligations.OneTimeMemoryOneWay := fun _ _ h => step_oneWay h
end

section
/-! SUPPORT. The test port of a powered module, command by command (12 R414, 17 R535, R545). -/

namespace Sys2Proof.Machine

section
variable {d : Dev} (h : d.bup.powered = true)
include h

/-- In a powered module a command of the test port is performed from its level on. -/
theorem Dev.testUp_eq (n : Nat) : d.testUp n = decide (n ≤ d.sec.level) := by rw [Dev.testUp, h, Bool.true_and]

theorem Dev.jtagBypass_eq : d.jtagBypass = d.setPin (fun p => { p with extest := false, tdo := 0#32 }) := if_pos h

theorem Dev.jtagId_eq : d.jtagId = d.setPin (fun p => { p with
    extest := false, tdo := pack [(Config.idCode.toNat, 0), (0x7730, 12), (1, 28)] }) := if_pos h

theorem Dev.jtagExtest_eq (drive : BitVec 40) : d.jtagExtest drive =
    if 1 ≤ d.sec.level then d.setPin (fun p => { p with extest := true, drive := drive }) else d := by
  simp only [Dev.jtagExtest, Dev.testUp_eq h, decide_eq_true_eq]

theorem Dev.jtagControl_read (fs : Fuses) (a : Word) : d.jtagControl fs a .read = if 1 ≤ d.sec.level then
    (d.ctlRead fs 6 (a.toNat / 4 * 4)).1.setPin (fun p => { p with tdo := (d.ctlRead fs 6 (a.toNat / 4 * 4)).2 }) else d := by
  simp only [Dev.jtagControl, Dev.testUp_eq h, decide_eq_true_eq]

theorem Dev.jtagControl_write (fs : Fuses) (a v : Word) : d.jtagControl fs a (.write v) =
    if 2 ≤ d.sec.level then d.writeReg none (a.toNat / 4 * 4) 0xFFFFFFFF v.toNat else d := by
  simp only [Dev.jtagControl, Dev.testUp_eq h, decide_eq_true_eq]

theorem Dev.jtagMemory_below (a : Nat) (op : JtagOp) (hlevel : d.sec.level < 2) : d.jtagMemory a op = d := by
  simp [Dev.jtagMemory, Dev.testUp_eq h, hlevel]

section
variable (hlevel : 2 ≤ d.sec.level) {a st : Nat} {d1 : Dev} {g : Gran}
include hlevel

/-- A read of memory at FULL shows the word that a stipe reads. -/
theorem Dev.jtagMemory_read (hread : d.stipeRead (a / 64) = (d1, st, g)) (hst : st ≠ 1) :
    d.jtagMemory a .read = d1.setPin (fun p => { p with tdo := gWord g (a % 64 / 4) }) := by
  simp [Dev.jtagMemory, Dev.testUp_eq h, hlevel, hread, hst]

/-- The data of a poisoned word is nothing's. -/
theorem Dev.jtagMemory_poisoned (hread : d.stipeRead (a / 64) = (d1, 1, g)) : d.jtagMemory a .read =
    Dev.setPin { d1 with free := d1.free + 1 } (fun p => { p with tdo := (Config.freeValue d1.free).setWidth 32 }) := by
  simp [Dev.jtagMemory, Dev.testUp_eq h, hlevel, hread, Dev.draw]

end

theorem Dev.jtagMemory_write (a : Nat) (v : Word) : d.jtagMemory a (.write v) =
    if 2 ≤ d.sec.level then d.stipeWords (a / 4 * 4) [v] else d := by
  by_cases hlevel : 2 ≤ d.sec.level <;> simp [Dev.jtagMemory, Dev.testUp_eq h, hlevel]

theorem Dev.jtagHalt_eq (k : Nat) : d.jtagHalt k =
    if 2 ≤ d.sec.level then d.setPin (fun p => { p with halted := (p.halted ++ [k]).eraseDups }) else d := by
  simp only [Dev.jtagHalt, Dev.testUp_eq h, decide_eq_true_eq]

end

/-- The row of a pin, of the management bus or of the test port acts on the device by a function. -/
theorem exec_pinRow {s : State} {i : Instr} {e : Dev} {act : Dev → Dev} (hrow : exec i s = onPin act s) (he : act s.dev = e) :
    exec i s = .next (s.ran e) := by rw [hrow, onPin, he]

end Sys2Proof.Machine
end

section
/-! SUPPORT. The test port. -/

open Sys2Proof Sys2Proof.Machine

/-- Settles O60: each row by its command's own equation in a powered module. -/
theorem testPort : Obligations.TestPort := by
  intro s a m v k drive hon d
  refine ⟨?_, ?_, ?_, ?_, ?_, fun hlevel => ?_, fun hlevel => ?_, ?_, ?_, fun low => rfl⟩
  · exact exec_pinRow rfl (Dev.jtagBypass_eq hon)
  · exact exec_pinRow rfl (Dev.jtagId_eq hon)
  · exact exec_pinRow (act := fun d => d.jtagExtest drive) rfl (Dev.jtagExtest_eq hon drive)
  · exact exec_pinRow (act := fun d => d.jtagControl s.fuse a .read) rfl (Dev.jtagControl_read hon s.fuse a)
  · exact exec_pinRow (act := fun d => d.jtagControl s.fuse a (.write v)) rfl (Dev.jtagControl_write hon s.fuse a v)
  · exact exec_pinRow (act := fun d => d.jtagMemory m.toNat .read) rfl (Dev.jtagMemory_below hon m.toNat .read hlevel)
  · split
    next d1 st g hread =>
      refine ⟨fun hst => ?_, fun hst => ?_⟩
      · exact exec_pinRow (act := fun d => d.jtagMemory m.toNat .read) rfl (Dev.jtagMemory_read hon hlevel hread hst)
      · exact exec_pinRow (act := fun d => d.jtagMemory m.toNat .read) rfl (Dev.jtagMemory_poisoned hon hlevel (hst ▸ hread))
  · exact exec_pinRow (act := fun d => d.jtagMemory m.toNat (.write v)) rfl (Dev.jtagMemory_write hon m.toNat v)
  · exact exec_pinRow (act := fun d => d.jtagHalt k) rfl (Dev.jtagHalt_eq hon k)
end

section
/-! SUPPORT. What a command that fails a shared check comes to (12 R403): it leaves the one-time memory as it is, and is answered with
the check's result. -/

namespace Sys2Proof.Machine

section
variable {d d1 : Dev} {fs : Fuses} {c : CmdPkt} {ty : Nat} (act : Dev → Dev × Fuses × Nat) (h : CmdNew d c ty d1)
include h

/-- A malformed command is rejected at step 1. -/
theorem Dev.cmdGo_of_malformed (hformat : d1.cmdFormat c ty = false) :
    d.cmdGo fs c ty act = ((d1.cmdReject c.port).cmdAnswer c 1, fs, false) := by
  rw [Dev.cmdGo]
  refine (if_neg (Bool.eq_false_iff.1 h.not_ignored)).trans ?_
  extract_lets taken hdr n
  rw [show taken.arrive c.port hdr = (d1, .fresh) from h.fresh]
  simp only [h.not_frozen, h.not_malformed, hformat, Bool.not_false, Bool.false_eq_true, if_false, if_true]
  rfl

section
variable (hformat : d1.cmdFormat c ty = true)
include hformat

/-- A command that fails steps 2 to 4 is rejected. -/
theorem Dev.cmdGo_of_rejected {n : Nat} (hauth : d1.cmdAuth c ty = (n, false)) (hn : n ≠ 0) (h5 : n ≠ 5) :
    d.cmdGo fs c ty act = ((d1.cmdReject c.port).cmdAnswer c n, fs, false) := by
  rw [Dev.cmdGo]
  refine (if_neg (Bool.eq_false_iff.1 h.not_ignored)).trans ?_
  extract_lets taken hdr rsn
  rw [show taken.arrive c.port hdr = (d1, .fresh) from h.fresh]
  simp only [h.not_frozen, h.not_malformed, hformat, hauth, Bool.not_true, Bool.false_eq_true, if_false, bne_iff_ne, beq_iff_eq,
    ne_eq, hn, h5, not_false_eq_true, if_true]
  rfl

/-- A command whose key lacks ADMIN fails step 5, and uses its counter. -/
theorem Dev.cmdGo_of_notAdmin (hauth : d1.cmdAuth c ty = (5, true)) : d.cmdGo fs c ty act =
    ((d1.setSess c.port { d1.sess c.port with last := c.counter }).cmdAnswer c 5, fs, false) := by
  rw [Dev.cmdGo]
  refine (if_neg (Bool.eq_false_iff.1 h.not_ignored)).trans ?_
  extract_lets taken hdr rsn
  rw [show taken.arrive c.port hdr = (d1, .fresh) from h.fresh]
  simp only [h.not_frozen, h.not_malformed, hformat, hauth, Bool.not_true, Bool.false_eq_true, if_false]
  rfl

end

end

/-! ### Rows -/

/-- The rows of the commands over the links, each with its type (12 R405). -/
def cmdRows (c : CmdPkt) (blown : Bool) : List (Nat × Instr) :=
  [(0x01, .sessionInit c), (0x02, .attest c), (0x10, .fwUpdate c), (0x20, .cfgWrite c), (0x21, .powerCap c),
    (0x30, .keyOwnerSet c blown), (0x31, .keyVendorRevoke c blown), (0x40, .unfreeze c), (0x50, .rtmapEdit c),
    (0x51, .fuseRetire c blown), (0x60, .windowSet c), (0x61, .portBind c), (0x70, .halfLayerReset c), (0x70, .stackReset c),
    (0x70, .moduleReset c), (0x80, .debugUnlock c)]

section
variable {s : State} {c : CmdPkt} {e : Dev} (halive : s.dev.alive = true)
include halive

/-- A command of one type that the shared checks refuse leaves the fuses, and the device as they leave it. -/
theorem exec_of_cmdRow {i : Instr} {ty : Nat} {act : Fuses → Dev → Dev × Fuses × Nat}
    (hrow : exec i s = onFuse (fun d fs => d.cmdRow fs c ty (act fs)) s)
    (hgo : ∀ act, s.dev.cmdGo s.fuse c ty act = (e, s.fuse, false)) : exec i s = .next (s.ran e) := by
  rw [hrow, onFuse_alive halive, Dev.cmdRow, hgo]
  rfl

/-- No reset follows a RESET command that the shared checks refuse. -/
theorem exec_of_resetRow {i : Instr} (hrow : exec i s = onFuse (fun d fs => d.resetCmd fs c) s)
    (hgo : ∀ act, s.dev.cmdGo s.fuse c 0x70 act = (e, s.fuse, false)) : exec i s = .next (s.ran e) := by
  rw [hrow, onFuse_alive halive, Dev.resetCmd, hgo]
  rfl

theorem exec_cmdRows {blown : Bool} : ∀ r ∈ cmdRows c blown, (∀ act, s.dev.cmdGo s.fuse c r.1 act = (e, s.fuse, false)) →
    exec r.2 s = .next (s.ran e) := by
  simp only [cmdRows, List.forall_mem_cons, List.not_mem_nil, false_implies, implies_true, and_true]
  refine ⟨exec_of_cmdRow (act := fun fs d => d.initGo fs c) halive rfl,
    exec_of_cmdRow (act := fun fs d => d.attestGo fs c) halive rfl,
    exec_of_cmdRow (act := fun fs d => d.updateGo fs c) halive rfl,
    exec_of_cmdRow (act := fun fs d => d.cfgGo fs c) halive rfl,
    exec_of_cmdRow (act := fun fs d => d.capGo fs c) halive rfl,
    exec_of_cmdRow (act := fun fs d => d.ownerGo fs c blown) halive rfl,
    exec_of_cmdRow (act := fun fs d => d.revokeGo fs c blown) halive rfl,
    exec_of_cmdRow (act := fun fs d => d.unfreezeGo fs c) halive rfl,
    exec_of_cmdRow (act := fun fs d => d.editGo fs c) halive rfl,
    exec_of_cmdRow (act := fun fs d => d.retireGo fs c blown) halive rfl,
    exec_of_cmdRow (act := fun fs d => d.windowGo fs c) halive rfl,
    exec_of_cmdRow (act := fun fs d => d.bindGo fs c) halive rfl,
    exec_of_resetRow halive rfl, exec_of_resetRow halive rfl, exec_of_resetRow halive rfl,
    exec_of_cmdRow (act := fun fs d => d.unlockGo fs c) halive rfl⟩

/-- The row of the types that no command has, with such a type. -/
theorem exec_unlistedCmdType {ty : BitVec 16} (hty : ty.toNat ∉ cmdTypes)
    (hgo : ∀ act, s.dev.cmdGo s.fuse c ty.toNat act = (e, s.fuse, false)) :
    exec (.unlistedCmdType ty c) s = .next (s.ran e) := by
  rw [show exec (.unlistedCmdType ty c) s = onFuse (fun d fs => if cmdTypes.contains ty.toNat then (d, fs) else
    d.cmdRow fs c ty.toNat (fun d => (d, fs, 0))) s from rfl, onFuse_alive halive, if_neg (by simpa using hty), Dev.cmdRow, hgo]
  rfl

end

end Sys2Proof.Machine
end

section
/-! SUPPORT. The shared checks of a command. -/

open Sys2Proof Sys2Proof.Machine

/-- Settles O46: each check by what a command that fails it comes to, in every row; a type that no command has is malformed. -/
theorem commandChecks : Obligations.CommandChecks := by
  intro s c d1 blown other halive rows
  refine ⟨fun r hr hnew => ⟨fun hformat => ?_, fun n hformat hauth hn h5 => ?_, fun hformat hauth => ?_⟩, fun hnew hty => ?_⟩
  · exact exec_cmdRows halive r hr fun act => Dev.cmdGo_of_malformed act hnew hformat
  · exact exec_cmdRows halive r hr fun act => Dev.cmdGo_of_rejected act hnew hformat hauth hn h5
  · exact exec_cmdRows halive r hr fun act => Dev.cmdGo_of_notAdmin act hnew hformat hauth
  · have hformat : d1.cmdFormat c other.toNat = false := by simp [Dev.cmdFormat, hty]
    exact exec_unlistedCmdType halive hty fun act => Dev.cmdGo_of_malformed act hnew hformat
end

section
/-! SUPPORT. The actions of the commands on keys, fuses, debug and resets (12 R405, R406, R414, 15 R495). -/

namespace Sys2Proof.Machine

section
variable {d : Dev} {fs : Fuses} {c : CmdPkt}

/-- KEY_OWNER_SET signed by a vendor slot programs an empty owner slot with its digest. -/
theorem Dev.ownerGo_programs (hslot : (c.word 8).toNat < 4) (hempty : fs.owner = none)
    (hsigned : vendorCode fs (bf (c.word 8) 1 0) ((c.bytes.drop 36).take 1793) (digestBytes (d.idDigest fs) ++ c.bytes.take 32)
      (c.bytes.drop 1832) = 0) :
    d.ownerGo fs c true = (d, { fs with owner := some (BitVec.ofNat 256 (leNat (c.bytes.take 32))) }, 0) := by
  simp [Dev.ownerGo, Nat.not_le.2 hslot, hempty, hsigned]

/-- KEY_VENDOR_REVOKE signed by another slot revokes a slot that is not the last that stands. -/
theorem Dev.revokeGo_programs (hother : bf (c.word 0) 1 0 ≠ bf (c.word 0) 9 8)
    (hleft : fs.live.filter (fun k => k != bf (c.word 0) 1 0) ≠ [])
    (hsigned : vendorCode fs (bf (c.word 0) 9 8) ((c.bytes.drop 4).take 1793)
      (digestBytes (d.idDigest fs) ++ strBytes "REVOKE" ++ leBytes 1 (bf (c.word 0) 1 0)) (c.bytes.drop 1800) = 0) :
    d.revokeGo fs c true = (d, { fs with revoked := fs.revoked ||| BitVec.ofNat 4 (2 ^ bf (c.word 0) 1 0) }, 0) := by
  have hstands : (fs.live.filter (fun k => k != bf (c.word 0) 1 0)).isEmpty = false := by simpa using hleft
  simp only [Dev.revokeGo, beq_false_of_ne hother, hstands, hsigned, Bool.or_self, bne_self_eq_false, Bool.false_eq_true, if_false,
    if_true]

/-- FUSE_RETIRE of a unit that the module has. -/
theorem Dev.retireGo_programs (hkind : bf (c.word 0) 1 0 ≠ 3)
    (hunit : bf (c.word 0) 23 8 < [256, 2048, 8192].getD (bf (c.word 0) 1 0) 0) : d.retireGo fs c true =
      (d, { fs with retired := (fs.retired ++ [(bf (c.word 0) 1 0, bf (c.word 0) 23 8)]).eraseDups }, 0) := by
  simp only [Dev.retireGo, beq_false_of_ne hkind, if_neg (Nat.not_le.2 hunit), Bool.false_eq_true, if_false, if_true]

/-- DEBUG_UNLOCK of OBSERVE, whose word names nothing else. -/
theorem Dev.unlockGo_observe (hobserve : c.word 0 = 1#32) :
    d.unlockGo fs c = ({ d with sec := { d.sec with level := max d.sec.level 1 } }, fs, 0) := by
  have hlevel : bf (c.word 0) 1 0 = 1 := by rw [hobserve]; rfl
  have hword : (c.word 0).toNat = 1 := by rw [hobserve]; rfl
  simp [Dev.unlockGo, hlevel, hword]

/-- RESET of a half layer or of a stack above the first requests it. -/
theorem Dev.resetGo_requests {level unit : Nat} (hlevel : bf (c.word 0) 1 0 = level) (hunit : bf (c.word 0) 15 8 = unit)
    (hone : level = 1 ∧ unit ≤ 31 ∨ level = 2 ∧ 1 ≤ unit ∧ unit ≤ 3) : d.resetGo fs c = (d.rstRequest level unit, fs, 0) := by
  simp only [Dev.resetGo, hlevel, hunit]
  rcases hone with ⟨rfl, hmax⟩ | ⟨rfl, hmin, hmax⟩
  · simp [hmax]
  · simp [hmax, Nat.ne_zero_of_lt hmin]

/-- RESET of the module does nothing before it is answered. -/
theorem Dev.resetGo_module (hlevel : bf (c.word 0) 1 0 = 3) : d.resetGo fs c = (d, fs, 0) := by simp [Dev.resetGo, hlevel]

end

/-! ### The rows of RESET -/

section
variable {s : State} {i : Instr} {d2 : Dev} {c : CmdPkt} (hrow : exec i s = onFuse (fun d fs => d.resetCmd fs c) s)
  (halive : s.dev.alive = true) (hpass : CmdPasses s.dev c 0x70 d2)
include hrow halive hpass

/-- An accepted RESET of a unit is answered once the reset is requested. -/
theorem exec_reset_unit {level unit : Nat} (hlevel : bf (c.word 0) 1 0 = level) (hunit : bf (c.word 0) 15 8 = unit)
    (hone : level = 1 ∧ unit ≤ 31 ∨ level = 2 ∧ 1 ≤ unit ∧ unit ≤ 3) :
    exec i s = .next (s.ran ((d2.rstRequest level unit).cmdDone c 0x70)) := by
  have hbelow : ¬(level = 3 ∨ level = 2 ∧ unit = 0) := by omega
  rw [hrow, onFuse_alive halive, Dev.resetCmd, Dev.cmdGo_of_passes (fun d => d.resetGo s.fuse c) hpass]
  simp only [Dev.resetGo_requests hlevel hunit hone, BEq.rfl, hlevel, hunit, Bool.true_and, Bool.or_eq_true, beq_iff_eq,
    Bool.and_eq_true, hbelow, if_true, if_false]
  rfl

/-- The module's own reset follows the answer. -/
theorem exec_reset_module (hlevel : bf (c.word 0) 1 0 = 3) : exec i s = .next (s.ran (d2.cmdDone c 0x70).moduleReset) := by
  rw [hrow, onFuse_alive halive, Dev.resetCmd, Dev.cmdGo_of_passes (fun d => d.resetGo s.fuse c) hpass]
  simp only [Dev.resetGo_module hlevel, BEq.rfl, hlevel, Bool.true_or, Bool.and_self, if_true]
  rfl

end

end Sys2Proof.Machine
end

section
/-! SUPPORT. Commands on keys, fuses, debug and resets. -/

open Sys2Proof Sys2Proof.Machine

/-- Settles O50: a command that passes the shared checks comes to what its type's own action makes of the fuses and of the device. -/
theorem keyAndDebugCommands : Obligations.KeyAndDebugCommands := by
  intro s c d2 halive w bs slot by' id burnt
  refine ⟨fun hp hslot hempty hsigned => ?_, fun hp hother hleft hsigned => ?_, fun hp hkind hunit => ?_, fun hp hw => ?_,
    fun hp hlevel hmax => ?_, fun hp hlevel hmin hmax => ?_, fun hp hlevel => ?_⟩
  · exact exec_cmd_accepted (act := fun fs d => d.ownerGo fs c true) rfl halive hp (Dev.ownerGo_programs hslot hempty hsigned)
  · exact exec_cmd_accepted (act := fun fs d => d.revokeGo fs c true) rfl halive hp (Dev.revokeGo_programs hother hleft hsigned)
  · exact exec_cmd_accepted (act := fun fs d => d.retireGo fs c true) rfl halive hp (Dev.retireGo_programs hkind hunit)
  · exact exec_cmd_accepted (act := fun fs d => d.unlockGo fs c) rfl halive hp (Dev.unlockGo_observe hw)
  · exact exec_reset_unit rfl halive hp hlevel rfl (.inl ⟨rfl, hmax⟩)
  · exact exec_reset_unit rfl halive hp hlevel rfl (.inr ⟨rfl, hmin, hmax⟩)
  · exact exec_reset_module rfl halive hp hlevel
end

section
/-! SUPPORT. What an access to memory leaves of the module: all but memory and the books of banks, rhizoids and halves, the transfers
and the units, freezes, seals, what is drawn, asked domains and failed bridges, records and counters (08 R260-R273, 09 R290-R305). -/

namespace Sys2Proof.Machine

/-- The device apart from what an access to memory may change. -/
def Dev.apart (d : Dev) : Dev :=
  { d.bare with mem := {}, halves := [], xfers := [], nextX := 0, win := {}, seals := [], free := 0, pwr := {}, bridgeFail := [] }

theorem Dev.apart_of_bare {d e : Dev} (h : e.bare = d.bare) : e.apart = d.apart := by
  change e.bare.apart = d.bare.apart
  rw [h]

theorem Dev.sec_of_apart {d e : Dev} (h : e.apart = d.apart) : e.sec = d.sec := congrArg (·.sec) h

variable (d : Dev)

/-! ### Updates, records, freezes and banks -/

@[simp] theorem Dev.setHalf_apart (h : Nat) (x : Half) : (d.setHalf h x).apart = d.apart := rfl
@[simp] theorem Dev.modXfer_apart (k : Nat) (f : Xfer → Xfer) : (d.modXfer k f).apart = d.apart := rfl
@[simp] theorem Dev.endXfer_apart (k : Nat) : (d.endXfer k).apart = d.apart := rfl
@[simp] theorem Dev.finishGr_apart (x i st : Nat) (g : Gran) : (d.finishGr x i st g).apart = d.apart := rfl
@[simp] theorem Dev.bump_apart (c n : Nat) : (d.bump c n).apart = d.apart := rfl
@[simp] theorem Dev.inc_apart (c : Nat) : (d.inc c).apart = d.apart := rfl
@[simp] theorem Dev.anyRead_apart : d.anyRead.1.apart = d.apart := rfl
@[simp] theorem Dev.anyWrite_apart : d.anyWrite.1.apart = d.apart := rfl
@[simp] theorem Dev.anyFault_apart : d.anyFault.1.apart = d.apart := rfl
@[simp] theorem Dev.markPoison_apart (k a : Nat) : (d.markPoison k a).apart = d.apart := rfl

@[simp] theorem Dev.raise_apart (s : Nat) (r : ErrRec) : (d.raise s r).apart = d.apart := Dev.apart_of_bare (d.raise_bare s r)

@[simp] theorem Dev.openRow_apart (a : Nat) (rhz : Option Nat) : (d.openRow a rhz).apart = d.apart :=
  Dev.apart_of_bare (d.openRow_bare a rhz)

@[simp] theorem Dev.readWord_apart (w : Nat) (port : RdPort) (tr : ReadTry) : (d.readWord w port tr).1.apart = d.apart :=
  Dev.apart_of_bare (d.readWord_bare w port tr)

@[simp] theorem Dev.writeWord_apart (w : Nat) (g : Gran) (mask : BitVec 64) (pois : Bool) (tr : WriteTry) (k : Nat)
    (cc : Option Bool) : (d.writeWord w g mask pois tr k cc).apart = d.apart := by
  rw [Dev.apart_of_bare (d.writeWord_bare w g mask pois tr k cc)]
  obtain h | h | h := Dev.written_cases (d := d) w g mask pois tr cc
  · rw [h]
  · rw [h]
    rfl
  · rw [h]
    rfl

@[simp] theorem Dev.freeze_apart (m kind wset addr ctx : Nat) (dead : Bool) :
    (d.freeze m kind wset addr ctx dead).apart = d.apart := by
  unfold Dev.freeze Dev.stopUnit
  dsimp only
  repeat' split
  all_goals rfl

/-- Steps that each leave the rest of the device leave it together. -/
theorem Dev.foldl_apart {α : Type} {f : Dev → α → Dev} (hf : ∀ e a, (f e a).apart = e.apart) (l : List α) (d : Dev) :
    (l.foldl f d).apart = d.apart :=
  List.foldlRecOn (motive := fun e : Dev => e.apart = d.apart) l f rfl (fun e h a _ => (hf e a).trans h)

/-- A step that is taken or not, each way leaving the rest of the device. -/
@[simp] theorem Dev.ite_apart (p : Prop) [Decidable p] (a b : Dev) :
    (if p then a else b).apart = if p then a.apart else b.apart := apply_ite Dev.apart p a b

/-! ### Paths, domains and seals -/

@[simp] theorem Dev.pathFault_apart (path : List Nat) (f : CacheFault) : (d.pathFault path f).apart = d.apart := by
  unfold Dev.pathFault Dev.bridgeFails
  split
  · rw [Dev.ite_apart, Dev.ite_apart, Dev.raise_apart]
    simp only [Dev.apart, Dev.bare, ite_self]
  · rfl

@[simp] theorem Dev.askDom_apart (i : Nat) : (d.askDom i).apart = d.apart := by
  unfold Dev.askDom
  split <;> rfl

@[simp] theorem Dev.countAbsorb_apart (st a : Nat) : (d.countAbsorb st a).apart = d.apart := by simp [Dev.countAbsorb]

@[simp] theorem Dev.breakSeal_apart (a m : Nat) : (d.breakSeal a m).apart = d.apart := by
  obtain ⟨_, _, h⟩ := d.breakSeal_cases a m
  rw [h]
  rfl

@[simp] theorem Dev.noteSeal_apart (x w : Nat) : (d.noteSeal x w).apart = d.apart := by simp [Dev.noteSeal]

/-! ### A half's lines -/

@[simp] theorem Dev.luDrop_apart (h l : Nat) : (d.luDrop h l).apart = d.apart := by
  unfold Dev.luDrop
  dsimp only
  split <;> simp

@[simp] theorem Dev.ghostHit_apart (h l : Nat) : (d.ghostHit h l).apart = d.apart := by
  unfold Dev.ghostHit
  split <;> simp

@[simp] theorem Dev.poisonMerge_apart (w k : Nat) : (d.poisonMerge w k).apart = d.apart := by simp [Dev.poisonMerge]

@[simp] theorem Dev.finishRead_apart (a : HAcc) (st : Nat) (g : Gran) (dead : Bool) :
    (d.finishRead a st g dead).apart = d.apart := by
  unfold Dev.finishRead
  dsimp only
  split <;> simp

@[simp] theorem Dev.serveRead_apart (a : HAcc) (pois unst dead : Bool) (g : Gran) :
    (d.serveRead a pois unst dead g).apart = d.apart := by simp [Dev.serveRead]

@[simp] theorem Dev.landed_apart (a : HAcc) (pois disc : Bool) : (d.landed a pois disc).apart = d.apart := by simp [Dev.landed]

@[simp] theorem Dev.applyHit_apart (h : Nat) (a : HAcc) (dead : Bool) : (d.applyHit h a dead).apart = d.apart := by
  unfold Dev.applyHit
  dsimp only
  split <;> simp

@[simp] theorem Dev.arrayFault_apart (h l j : Nat) (bytes : BitVec 64) : (d.arrayFault h l j bytes).apart = d.apart := by
  unfold Dev.arrayFault
  dsimp only
  split <;> simp

@[simp] theorem Dev.cacheFault_apart (h l : Nat) (f : CacheFault) : (d.cacheFault h l f).apart = d.apart := by
  unfold Dev.cacheFault Dev.tagLost
  split <;> simp

@[simp] theorem Dev.victimFault_apart (h l : Nat) : (d.victimFault h l).apart = d.apart := by
  unfold Dev.victimFault
  dsimp only
  repeat' split
  all_goals simp

/-! ### Accesses at their home half -/

@[simp] theorem Dev.countAt_apart (h : Nat) (a : HAcc) (n : Nat) : (d.countAt h a n).apart = d.apart := by simp [Dev.countAt]

@[simp] theorem Dev.openFill_apart (h : Nat) (a : HAcc) (dead : Bool) : (d.openFill h a dead).apart = d.apart := by
  unfold Dev.openFill
  dsimp only
  split
  · rfl
  · split <;> simp

@[simp] theorem Dev.atEvict_apart (h : Nat) (a : HAcc) (e : Evict) : (d.atEvict h a e).apart = d.apart := by
  simp [Dev.atEvict, apply_ite Prod.fst]

@[simp] theorem Dev.homeAccess_apart (h : Nat) (a : HAcc) : (d.homeAccess h a).apart = d.apart := by
  unfold Dev.homeAccess
  dsimp only
  repeat' split
  all_goals simp

@[simp] theorem Dev.rearrive_apart (h : Nat) (a : HAcc) : (d.rearrive h a).apart = d.apart := by simp [Dev.rearrive]

@[simp] theorem Dev.rearrives_apart (h : Nat) (l : List HAcc) (d : Dev) : (l.foldl (fun d a => d.rearrive h a) d).apart = d.apart :=
  Dev.foldl_apart (fun e a => e.rearrive_apart h a) l d

@[simp] theorem Dev.unblock_apart (h : Nat) : (d.unblock h).apart = d.apart := by simp [Dev.unblock]

/-! ### Fills and write-backs -/

@[simp] theorem Dev.fillWord_apart (h k j : Nat) (need : Bool) (tr : ReadTry) : (d.fillWord h k j need tr).apart = d.apart := by
  unfold Dev.fillWord
  split <;> simp

@[simp] theorem Dev.holdLine_apart (h l : Nat) : (d.holdLine h l).apart = d.apart := by simp [Dev.holdLine]

@[simp] theorem Dev.fillGo_apart (h l : Nat) (tries : List ReadTry) (flt : CacheFault) :
    (d.fillGo h l tries flt).apart = d.apart := by
  unfold Dev.fillGo
  extract_lets d0 hf0
  have h0 : d0.apart = d.apart := by simp [d0]
  split
  · exact h0
  · split
    · rw [Dev.unblock_apart, Dev.rearrives_apart]
      exact h0
    · extract_lets d1 d2 hf1 d3 reads rest d4 d5 d6 d7
      have h1 : d1.apart = d0.apart := Dev.foldl_apart (fun e j => e.fillWord_apart _ _ _ _ _) _ d0
      have h3 : d3.apart = d1.apart := (Dev.setHalf_apart _ _ _).trans (Dev.bump_apart _ _ _)
      have h4 : d4.apart = d3.apart := Dev.foldl_apart (fun e a => e.applyHit_apart _ _ _) _ d3
      have h6 : d6.apart = d4.apart := by simp [d6, d5]
      have h7 : d7.apart = d6.apart := by
        refine Dev.foldl_apart (fun e a => ?_) _ d6
        split <;> simp
      rw [Dev.unblock_apart, h7, h6, h4, h3, h1, h0]

theorem Dev.writeBack_apart (c : CLine) (tries : List WriteTry) : (d.writeBack c tries).apart = d.apart :=
  Dev.foldl_apart (fun e j => by simp) _ d

@[simp] theorem Dev.evictGo_apart (h l : Nat) (tries : List WriteTry) : (d.evictGo h l tries).apart = d.apart := by
  unfold Dev.evictGo
  split <;> simp [Dev.writeBack_apart]

@[simp] theorem Dev.anyReads_apart (n : Nat) (d : Dev) : (d.anyReads n).1.apart = d.apart := by
  induction n generalizing d with
  | zero => rfl
  | succ n ih => exact ih _

@[simp] theorem Dev.anyWrites_apart (n : Nat) (d : Dev) : (d.anyWrites n).1.apart = d.apart := by
  induction n generalizing d with
  | zero => rfl
  | succ n ih => exact ih _

@[simp] theorem Dev.fillNow_apart (h l : Nat) : (d.fillNow h l).apart = d.apart := by simp [Dev.fillNow]

@[simp] theorem Dev.evictNow_apart (h l : Nat) : (d.evictNow h l).apart = d.apart := by simp [Dev.evictNow, Dev.evictIssue]

@[simp] theorem Dev.settle_apart (h l n : Nat) (d : Dev) : (d.settle h l n).apart = d.apart := by
  induction n generalizing d with
  | zero => rfl
  | succ n ih =>
    unfold Dev.settle
    dsimp only
    repeat' split
    all_goals simp [ih]

/-! ### The stipes' accesses -/

@[simp] theorem Dev.homeWhole_apart (a : HAcc) : (d.homeWhole a).apart = d.apart := by simp [Dev.homeWhole, Dev.settleFor]

@[simp] theorem Dev.stipeAcc_apart (a : HAcc) : (d.stipeAcc a).1.apart = d.apart := Dev.homeWhole_apart _ _

@[simp] theorem Dev.stipeRead_apart (w : Nat) : (d.stipeRead w).1.apart = d.apart := d.stipeAcc_apart _

@[simp] theorem Dev.stipeWrite_apart (w : Nat) (g : Gran) (m : BitVec 64) : (d.stipeWrite w g m).1.apart = d.apart :=
  d.stipeAcc_apart _

/-- A stipe that writes an area changes memory alone. -/
theorem Dev.stipeArea_apart (a : Nat) (bs : List Byte) : (d.stipeArea a bs).apart = d.apart :=
  Dev.foldl_apart (fun e _ => e.stipeWrite_apart _ _ _) _ d

/-- A stipe that reads bytes changes nothing else either. -/
theorem Dev.stipeBytes_apart (a n : Nat) : (d.stipeBytes a n).1.apart = d.apart :=
  List.foldlRecOn (motive := fun s : Dev × Bool × List Byte => s.1.apart = d.apart) _ _ rfl
    fun s h _ _ => (s.1.stipeRead_apart _).trans h

end Sys2Proof.Machine
end

section
/-! SUPPORT. Sessions and attestation (12 R407, R409): what an accepted command leaves to be written, and what its write leaves. -/

namespace Sys2Proof.Machine

variable {d : Dev} {fs : Fuses} {c : CmdPkt}

theorem length_signed (fs : Fuses) (msg : List Byte) : (signed fs msg).length = 1280 := by simp [signed]

/-! ### Commands -/

/-- An accepted SESSION_INIT: one response more waits on the port, with the session that it will open. -/
theorem Dev.initGo_accepted (h : d.initCheck c = 0) : ∃ (e : Dev) (key : BitVec 256) (adm : Bool) (bs : List Byte),
    d.initGo fs c = (e, fs, 0) ∧ e.sec.draws = d.sec.draws + 1 ∧ bs.length = 2880 ∧
    (e.sess c.port).next = (d.sess c.port).next ++ [(key, bf (c.word 0) 3 0, adm, (c.addr 9).getD 0, bs)] ∧
    (e.sess c.port).active = (d.sess c.port).active ∧ e.mem = d.mem ∧ e.regs = d.regs := by
  unfold Dev.initGo
  extract_lets res p body ek ct shared transcript key sig i adm next old d1 sec
  have hlen : (ct ++ sig ++ List.replicate 32 0#8).length = 2880 := by
    simp [ct, sig, length_signed]
  have hsess : d1.sess p = { d.sess p with next := (d.sess p).next ++ [next] } := d.sess_setSess_self _ _
  refine ⟨{ d1 with sec := { d1.sec with draws := d1.sec.draws + 1 } }, key, adm, _, if_neg (by simp [res, h]), rfl, hlen,
    (congrArg Sess.next hsess :), (congrArg Sess.active hsess :), rfl, rfl⟩

theorem Dev.initGo_refused {n : Nat} (h : d.initCheck c = n) (hn : n ≠ 0) : d.initGo fs c = (d, fs, n) := by
  simp [Dev.initGo, h, hn]

/-- An accepted ATTEST leaves a report to be written. -/
theorem Dev.attestGo_accepted {a : Nat} (haddr : c.addr 8 = some a) (halign : a % 64 = 0) (hkey : d.sec.keyGone = false)
    (hgrant : d.cmdGrants c.port .write a 1664 = true) : d.attestGo fs c =
    ({ d with sec := { d.sec with reports := d.sec.reports ++ [(c.port.val, a, c.bytes.take 32)] } }, fs, 0) := by
  simp [Dev.attestGo, haddr, halign, hkey, hgrant]

/-! ### Writes -/

/-- The write of the oldest response opens its session. -/
theorem Dev.responseWrite_sess {p i a : Nat} {key : BitVec 256} {adm : Bool} {bs : List Byte}
    {rest : List (BitVec 256 × Nat × Bool × Nat × List Byte)} (h : (d.sess p).next = (key, i, adm, a, bs) :: rest) :
    (d.responseWrite p).sess p =
      { d.sess p with active := true, key := key, index := i, admin := adm, last := 0#64, next := rest } := by
  simp only [Dev.responseWrite, h]
  exact Dev.sess_setSess_self _ p _

/-- The write of a report ends it. -/
theorem Dev.reportWrite_sec {p : Nat} {r : Nat × Nat × List Byte} (h : d.sec.reports.find? (fun r => r.1 == p) = some r) :
    (d.reportWrite fs p).sec = { d.sec with reports := d.sec.reports.erase r } := by
  have hsec (a b : Nat) (bs bs' : List Byte) : ((d.stipeArea a bs).stipeArea b bs').sec = d.sec :=
    Dev.sec_of_apart ((Dev.stipeArea_apart _ b bs').trans (d.stipeArea_apart a bs))
  simp only [Dev.reportWrite, h]
  exact congrArg (fun x : SecS => { x with reports := x.reports.erase r }) (hsec _ _ _ _)

end Sys2Proof.Machine
end

section
/-! SUPPORT. Sessions and attestation. -/

open Sys2Proof Sys2Proof.Machine

/-- Settles O47: each command by its own action, each write by what it leaves of the security state, which no access to memory
changes. -/
theorem sessionCommands : Obligations.SessionCommands := by
  intro s c d2 halive
  refine ⟨fun hp hcheck => ?_, fun n hp hcheck hn => ?_, fun p key i adm a bs rest hnext => ?_,
    fun a hp haddr halign hkey hgrant => ?_, fun p r hr => ?_⟩
  · obtain ⟨e, key, adm, bs, hgo, hleft⟩ := Dev.initGo_accepted (fs := s.fuse) hcheck
    exact ⟨e, key, adm, bs, exec_cmd_accepted (act := fun fs d => d.initGo fs c) rfl halive hp hgo, hleft⟩
  · exact exec_cmd_refused (act := fun fs d => d.initGo fs c) rfl halive hp (Dev.initGo_refused hcheck hn) hn
  · exact ⟨_, exec_devRow (act := fun d => d.responseWrite p) rfl halive rfl, Dev.responseWrite_sess hnext⟩
  · exact exec_cmd_accepted (act := fun fs d => d.attestGo fs c) rfl halive hp (Dev.attestGo_accepted haddr halign hkey hgrant)
  · have hsec := Dev.reportWrite_sec (fs := s.fuse) hr
    exact ⟨_, exec_devRow (act := fun d => d.reportWrite s.fuse p) rfl halive rfl, by rw [hsec], by rw [Dev.sess, hsec, Dev.sess]⟩
end

section
/-! SUPPORT. The steps of a firmware update (12 R411): a broadcast and its repairs change nothing of the update but the blocks at hand,
and what the steps themselves set. -/

namespace Sys2Proof.Machine

variable {d : Dev} {fs : Fuses}

/-! ### FW_UPDATE -/

/-- An accepted FW_UPDATE begins VERIFY. -/
theorem Dev.updateGo_begins {c : CmdPkt} {a : Nat} (haddr : c.addr 0 = some a) (hmask : (c.word 2).toNat < 8)
    (hidle : d.sec.fw.st = 0 ∨ 6 ≤ d.sec.fw.st) (hgrant : d.cmdGrants c.port .read a 4096 = true) :
    d.updateGo fs c = (d.setFw { st := 1, mask := (c.word 2).toNat, base := a }, fs, 0) := by
  have hfree : ¬(1 ≤ d.sec.fw.st ∧ d.sec.fw.st ≤ 5) := by omega
  simp [Dev.updateGo, haddr, Nat.not_le.2 hmask, hfree, hgrant, Dev.setFw]

/-! ### VERIFY -/

/-- An update with what its manifest says of it. -/
def FwS.told (f : FwS) (m : List Byte) : FwS := { f with blocks := fwBlocks m, versions := [0, 1, 2].map (fwVersion m) }

/-- No class has more blocks than an image may have of it. -/
theorem fwBlocks_fit {m : List Byte} (h0 : (fwBlocks m).getD 0 0 ≤ 256) (h1 : (fwBlocks m).getD 1 0 ≤ 64)
    (h2 : (fwBlocks m).getD 2 0 ≤ 4096) : (decide (256 < (fwBlocks m).getD 0 0) || decide (64 < (fwBlocks m).getD 1 0) ||
      decide (4096 < (fwBlocks m).getD 2 0)) = false := by
  simp only [Nat.not_lt.2, h0, h1, h2, decide_false, Bool.or_self]

section
variable (hst : d.sec.fw.st = 1)
include hst

/-- A manifest that cannot be read fails the update. -/
theorem Dev.verifyEnd_unread {d1 : Dev} (hread : d.stipeBytes d.sec.fw.base 4096 = (d1, none)) :
    d.verifyEnd fs = d1.fwFail 5 := by
  simp [Dev.verifyEnd, hst, hread]

section
variable {d1 d2 : Dev} {m : List Byte} (hread : d.stipeBytes d.sec.fw.base 4096 = (d1, some m))
  (h0 : (fwBlocks m).getD 0 0 ≤ 256) (h1 : (fwBlocks m).getD 1 0 ≤ 64) (h2 : (fwBlocks m).getD 2 0 ≤ 4096)
include hread h0 h1 h2

/-- A hash list that cannot be read fails it too. -/
theorem Dev.verifyEnd_unhashed (hhash : d1.stipeBytes (d.sec.fw.base + 4096) (32 * (d.sec.fw.told m).count) = (d2, none)) :
    d.verifyEnd fs = d2.fwFail 5 := by
  rw [FwS.told] at hhash
  simp only [Dev.verifyEnd, bne_eq_false_iff_eq.2 hst, hread, fwBlocks_fit h0 h1 h2, hhash, Bool.false_eq_true, if_false]

/-- A manifest that a vendor slot has signed, whose hash list it names and whose versions no minimum forbids, begins the broadcast. -/
theorem Dev.verifyEnd_accepts {hs : List Byte}
    (hhash : d1.stipeBytes (d.sec.fw.base + 4096) (32 * (d.sec.fw.told m).count) = (d2, some hs))
    (hsigned : vendorCode fs (fwSlot m) (fwKey m) (m.take 1844) ((m.drop 1844).take 1280) = 0)
    (hdigest : digestBytes (Config.digest 0 hs) = (m.drop 16).take 32) (hver : ∀ k < 3, fs.minVer.getD k 0 ≤ fwVersion m k) :
    d.verifyEnd fs = d2.setFw { d.sec.fw.told m with st := 2, hashes := hs } := by
  have hnew : [0, 1, 2].any (fun c => decide (fwVersion m c < fs.minVer.getD c 0)) = false := by
    refine List.any_eq_false.2 fun k hk => ?_
    simpa using hver k (by fin_cases hk <;> decide)
  rw [FwS.told] at hhash
  simp only [Dev.verifyEnd, bne_eq_false_iff_eq.2 hst, hread, fwBlocks_fit h0 h1 h2, hhash, hsigned, hdigest, hnew,
    bne_self_eq_false, Bool.false_eq_true, if_false]
  rfl

end

end

/-! ### Blocks -/

/-- A block that is read changes the blocks at hand alone. -/
theorem Dev.fetchBlock_fw (d : Dev) (n : Nat) : ∃ data, (d.fetchBlock n).1.sec.fw = { d.sec.fw with data := data } := by
  have hsec (a k : Nat) : (d.stipeBytes a k).1.sec = d.sec := Dev.sec_of_apart (d.stipeBytes_apart a k)
  unfold Dev.fetchBlock
  dsimp only
  split
  next e hread => exact ⟨d.sec.fw.data, congrArg SecS.fw (congrArg (·.1.sec) hread ▸ hsec _ _)⟩
  next e bs hread =>
    have hfw : e.sec.fw = d.sec.fw := congrArg SecS.fw (congrArg (·.1.sec) hread ▸ hsec _ _)
    split
    · exact ⟨d.sec.fw.data, hfw⟩
    · exact ⟨e.sec.fw.data.put n bs, by rw [Dev.setFw_sec, hfw]⟩

theorem Dev.fetchBlocks_fw (d : Dev) (ns : List Nat) : ∃ data, (d.fetchBlocks ns).1.sec.fw = { d.sec.fw with data := data } := by
  refine List.foldlRecOn (motive := fun s : Dev × List Nat => ∃ data, s.1.sec.fw = { d.sec.fw with data := data }) ns _
    ⟨d.sec.fw.data, rfl⟩ fun s hs n _ => ?_
  obtain ⟨data, hdata⟩ := hs
  obtain ⟨data', hdata'⟩ := s.1.fetchBlock_fw n
  exact ⟨data', by rw [hdata', hdata]⟩

/-! ### Rounds -/

/-- The end of the broadcast begins the first repair round. -/
theorem Dev.broadcastEnd_fw (missing : List (Nat × Nat)) (hst : d.sec.fw.st = 2) : ∃ data lost,
    (d.broadcastEnd missing).sec.fw = { d.sec.fw with st := 3, round := 1, data := data, missing := lost } := by
  unfold Dev.broadcastEnd
  extract_lets f ns
  rw [if_neg (by simp [f, hst])]
  obtain ⟨data, hdata⟩ := d.fetchBlocks_fw ns
  exact ⟨data, _, by rw [Dev.setFw_sec, hdata]⟩

/-- The end of a repair round begins the next, until the third, which is the last; some of the blocks missing are so no more. -/
theorem Dev.repairRound_fw (missing : List (Nat × Nat)) (hst : d.sec.fw.st = 3) (hlast : d.sec.fw.last = false) :
    ∃ data left code, (d.repairRound missing).sec.fw = { d.sec.fw with
      round := if d.sec.fw.round < 3 then d.sec.fw.round + 1 else d.sec.fw.round, last := decide (3 ≤ d.sec.fw.round)
      code := code, missing := d.sec.fw.missing.filter left, data := data } := by
  unfold Dev.repairRound
  extract_lets f
  rw [if_neg (by simp [f, hst, hlast])]
  obtain ⟨data, hdata⟩ := d.fetchBlocks_fw (f.missing.map (·.2)).eraseDups
  dsimp only
  by_cases hround : d.sec.fw.round < 3
  · exact ⟨data, _, _, by
      rw [if_pos hround, if_pos hround, decide_eq_false (Nat.not_le.2 hround), Dev.setFw_sec, hdata, ← hlast]⟩
  · exact ⟨data, _, _, by rw [if_neg hround, if_neg hround, decide_eq_true (Nat.not_lt.1 hround), Dev.setFw_sec, hdata]⟩

end Sys2Proof.Machine
end

section
/-! SUPPORT. Firmware updates. -/

open Sys2Proof Sys2Proof.Machine

/-- Settles O48: each step by what it sets of the update; the blocks that it reads change nothing else of it. -/
theorem firmwareUpdates : Obligations.FirmwareUpdates := by
  intro s missing halive f
  refine ⟨fun c d2 a hp haddr hmask hidle hgrant => ?_, fun hst => ?_, fun hst => ?_, fun hst hlast => ?_⟩
  · exact exec_cmd_accepted (act := fun fs d => d.updateGo fs c) rfl halive hp (Dev.updateGo_begins haddr hmask hidle hgrant)
  · refine ⟨_, exec_devRow (act := fun d => d.verifyEnd s.fuse) rfl halive rfl, ?_⟩
    split
    next d1 hread => exact Dev.verifyEnd_unread hst hread
    next d1 m hread =>
      intro g h0 h1 h2
      split
      next d2 hhash => exact Dev.verifyEnd_unhashed hst hread h0 h1 h2 hhash
      next d2 hs hhash =>
        intro hsigned hdigest hver
        exact Dev.verifyEnd_accepts hst hread h0 h1 h2 hhash hsigned hdigest hver
  · obtain ⟨data, lost, hfw⟩ := Dev.broadcastEnd_fw missing hst
    refine ⟨_, exec_devRow (act := fun d => d.broadcastEnd missing) rfl halive rfl, ?_⟩
    rw [hfw]
    exact ⟨rfl, rfl, rfl, rfl⟩
  · obtain ⟨data, left, code, hfw⟩ := Dev.repairRound_fw missing hst hlast
    refine ⟨_, exec_devRow (act := fun d => d.repairRound missing) rfl halive rfl, ?_⟩
    rw [hfw]
    exact ⟨hst, rfl, rfl, fun e he => List.mem_of_mem_filter he⟩
end

section
/-! SUPPORT. Every command but those of the pins, the management bus and the test port acts through the gate of a running module
(13 R422, 14 R465, 15 R495, 16 R513). -/

namespace Sys2Proof.Machine

/-- The ways in which a command acts on a running module alone: on its device, or on its device and its fuses. -/
inductive Gated (s : State) : Out → Prop
  | device (f : Dev → Dev) : Gated s (onDev f s)
  | fuses (f : Dev → Fuses → Dev × Fuses) : Gated s (onFuse f s)

theorem Gated.of_stopped {s : State} {o : Out} (h : Gated s o) (hstopped : s.dev.alive = false) : o = .next s := by
  cases h with
  | device f => exact onDev_stopped hstopped
  | fuses f => exact onFuse_stopped hstopped

theorem exec_gated {c : Instr} (hpins : ofPins c = false) (s : State) : Gated s (exec c s) := by
  cases c with
  | stopActionReset | pwrEnRise | pwrEnFall | pwrEnHonoured | resetNAssert | resetNRelease | vinUndervoltage | vinOvervoltage
  | vinRise | refclkLoss | refclkReturn | flashSelChange | i3cPrivateWrite | i3cPrivateRead | setdasa | entdaa | rstdaa | getpid
  | getbcr | getdcr | getstatus | getmxds | enec | disec | ibiRetry | jtagBypass | jtagIdcode | jtagExtest | jtagControlAccess
  | jtagMemoryAccess | jtagHaltStipe | trstNAssert => exact nomatch hpins
  | _ =>
    unfold exec
    dsimp only
    constructor

end Sys2Proof.Machine
end

section
/-! SUPPORT. A stopped module. -/

open Sys2Proof Sys2Proof.Machine

/-- Settles O4: the gate of a running module leaves a stopped one as it is. -/
theorem stoppedModuleKeeps : Obligations.StoppedModuleKeeps := fun _ s hstopped hpins => (exec_gated hpins s).of_stopped hstopped
end

section
/-! SUPPORT. Runs over a list: what every step keeps, and what the step at one entry brings about. -/

namespace Sys2Proof.Machine

/-- What every step of a run keeps, the run keeps. -/
theorem foldl_keeps {α β γ : Type} (g : β → γ) {f : β → α → β} (hf : ∀ b a, g (f b a) = g b) (l : List α) (b : β) :
    g (l.foldl f b) = g b :=
  List.foldlRecOn (motive := fun c => g c = g b) l f rfl fun c h a _ => (hf c a).trans h

/-- Up to entry a a run keeps P; there P makes Q, which the rest keeps. -/
theorem foldl_visits {α β : Type} {f : β → α → β} {a : α} {P Q : β → Prop} (hP : ∀ b x, x ≠ a → P b → P (f b x))
    (hat : ∀ b, P b → Q (f b a)) (hQ : ∀ b x, Q b → Q (f b x)) {l : List α} (ha : a ∈ l) {b : β} (hb : P b) :
    Q (l.foldl f b) := by
  induction l generalizing b with
  | nil => exact absurd ha List.not_mem_nil
  | cons x l ih =>
    rw [List.foldl_cons]
    by_cases hx : x = a
    · subst hx
      exact List.foldlRecOn (motive := Q) l f (hat b hb) fun c hc y _ => hQ c y hc
    · exact ih ((List.mem_cons.1 ha).resolve_left (Ne.symm hx)) (hP b x hx hb)

end Sys2Proof.Machine
end

section
/-! SUPPORT. What power control leaves of the module: memory, the fronds and the gemmas (13 R431-R437). -/

namespace Sys2Proof.Machine

/-- What the module's programs work on. -/
def Dev.work (d : Dev) : MemS × SMap Frond × SMap Gemma := (d.mem, d.fronds, d.gemmas)

theorem Dev.work_of_bare {d e : Dev} (h : e.bare = d.bare) (hm : e.mem = d.mem) : e.work = d.work := by
  rw [Dev.work, Dev.fronds_of_bare h, Dev.gemmas_of_bare h, hm, Dev.work]

variable (d : Dev)

@[simp] theorem Dev.setReg_work (a : Nat) (w : Word) : (d.setReg a w).work = d.work := rfl
@[simp] theorem Dev.modDom_work (i : Nat) (f : Dom → Dom) : (d.modDom i f).work = d.work := rfl
@[simp] theorem Dev.draw_work : d.draw.1.work = d.work := rfl

/-- Power's own books are no part of the work. -/
@[simp] theorem Dev.withPwr_work (p : PwrS) : ({ d with pwr := p } : Dev).work = d.work := rfl

/-- A record changes nothing of memory or of power. -/
@[simp] theorem Dev.raise_mem (s : Nat) (r : ErrRec) : (d.raise s r).mem = d.mem := by
  obtain ⟨_, _, _, h⟩ := d.raise_recorded r s
  rw [h]

@[simp] theorem Dev.raise_pwr (s : Nat) (r : ErrRec) : (d.raise s r).pwr = d.pwr := congrArg (·.pwr) (d.raise_bare s r)

@[simp] theorem Dev.raise_work (s : Nat) (r : ErrRec) : (d.raise s r).work = d.work :=
  Dev.work_of_bare (d.raise_bare s r) (d.raise_mem s r)

/-- Rounding draws at most a free value. -/
theorem Dev.round_eq (q : Rat) : ∃ n, (d.round q).1 = { d with free := n } := by
  unfold Dev.round
  split
  · exact ⟨d.free, rfl⟩
  · exact ⟨_, rfl⟩

@[simp] theorem Dev.round_work (q : Rat) : (d.round q).1.work = d.work := by
  obtain ⟨_, h⟩ := d.round_eq q
  rw [h]
  rfl

@[simp] theorem Dev.round_regs (q : Rat) : (d.round q).1.regs = d.regs := by
  obtain ⟨_, h⟩ := d.round_eq q
  rw [h]

@[simp] theorem Dev.round_pwr (q : Rat) : (d.round q).1.pwr = d.pwr := by
  obtain ⟨_, h⟩ := d.round_eq q
  rw [h]

/-- A value between two numbers that the rounding can give is rounded to one between them. -/
theorem Dev.round_bounds {q : Rat} {lo hi : Nat} (hlo : (lo : Rat) ≤ q) (hhi : q ≤ (hi : Rat)) :
    (lo : Int) ≤ (d.round q).2 ∧ (d.round q).2 ≤ (hi : Int) := by
  have hfloor : (lo : Int) ≤ ⌊q⌋ := Int.le_floor.2 (by exact_mod_cast hlo)
  unfold Dev.round
  split
  next hden =>
    have hq : ((q.num : Int) : Rat) = q := Rat.coe_int_num_of_den_eq_one (by simpa using hden)
    rw [← hq] at hlo hhi
    exact ⟨by exact_mod_cast hlo, by exact_mod_cast hhi⟩
  next hden =>
    have hlt : q < (hi : Rat) := by
      refine lt_of_le_of_ne hhi fun h => hden ?_
      rw [h]
      rfl
    have hfl : ⌊q⌋ < (hi : Int) := Int.floor_lt.2 (by exact_mod_cast hlt)
    have hf : q.floor = ⌊q⌋ := rfl
    dsimp only
    rw [hf]
    split <;> omega

/-! ### Telemetry (R431) -/

/-- What the checks of a sample leave: the work, and the input's current and moment. -/
def Dev.inputTaken (d : Dev) : (MemS × SMap Frond × SMap Gemma) × Nat × Nat := (d.work, d.pwr.iin, d.pwr.sampleAt)

@[simp] theorem Dev.raise_inputTaken (s : Nat) (r : ErrRec) : (d.raise s r).inputTaken = d.inputTaken := by
  rw [Dev.inputTaken, Dev.raise_work, Dev.raise_pwr, Dev.inputTaken]

theorem Dev.publish_work : d.publish.work = d.work := by
  unfold Dev.publish
  extract_lets n d1
  have h1 : d1.work = d.work := foldl_keeps Dev.work (fun e i => by simp) _ d
  split
  · rfl
  · simp only [Dev.withPwr_work, Dev.setReg_work, Dev.round_work, h1]

theorem Dev.vinErrors_inputTaken (vin : Nat) : (d.vinErrors vin).inputTaken = d.inputTaken := by
  unfold Dev.vinErrors
  dsimp only
  split
  · exact Dev.raise_inputTaken _ _ _
  · split
    · exact Dev.raise_inputTaken _ _ _
    · rfl

theorem Dev.vinErrors_vin (vin : Nat) : (d.vinErrors vin).pwr.vin = vin := by
  unfold Dev.vinErrors
  dsimp only
  split
  · rw [Dev.raise_pwr]
  · split
    · rw [Dev.raise_pwr]
    · rfl

theorem Dev.telemetry_inputTaken (t : Nat) (cs c2s : List Int) (vin iin : Nat) :
    (d.telemetry t cs c2s vin iin).inputTaken = (d.work, iin, t) := by
  have hmeans : (if t / 1000000 != d.pwr.ms then { d.publish with pwr := { d.publish.pwr with ms := t / 1000000 } } else d).work =
      d.work := by
    split
    · exact d.publish_work
    · rfl
  unfold Dev.telemetry
  rw [Dev.vinErrors_inputTaken]
  refine (foldl_keeps Dev.inputTaken (fun e i => ?_) _ _).trans (congrArg (·, iin, t) hmeans)
  extract_lets c c2 ok ok2 first e1 w e2
  have h2 : e2.inputTaken = e.inputTaken := by
    unfold e2
    split <;> rfl
  split
  · exact (Dev.raise_inputTaken _ _ _).trans h2
  · exact h2

theorem Dev.telemetry_vin (t : Nat) (cs c2s : List Int) (vin iin : Nat) : (d.telemetry t cs c2s vin iin).pwr.vin = vin := by
  unfold Dev.telemetry
  rw [Dev.vinErrors_vin]

/-! ### Gains (R432) -/

theorem gainReg_inj {i j : Nat} : gainReg i = gainReg j ↔ i = j := by
  unfold gainReg
  omega

/-- One domain of GAIN_CALIBRATION. -/
def Dev.calibrateDom (raw meas : List Nat) (d : Dev) (i : Nat) : Dev :=
  let x := d.dom i
  let r : Rat := (raw.getD i 0 : Nat)
  let g := d.gain i
  let e := r * g
  let m : Rat := if x.implausible then e * 5 / 4 else (meas.getD i 0 : Nat)
  let d := d.modDom i (fun y => { y with meas := m, budget := max 0 (y.budget + (e - m)) })
  if x.implausible || r < 1000 then d
  else
    let v := d.round (max (1 / 2) (min 2 (g + (m / r - g) / 8)) * 16384)
    v.1.setReg (gainReg i) (BitVec.ofNat 32 v.2.toNat)

theorem Dev.calibrate_eq (raw meas : List Nat) : d.calibrate raw meas = (List.range 56).foldl (Dev.calibrateDom raw meas) d := rfl

/-- The register of a domain's gain holds one half to two. -/
def Dev.GainBounded (d : Dev) (i : Nat) : Prop := 0x2000 ≤ (d.reg (gainReg i)).toNat ∧ (d.reg (gainReg i)).toNat ≤ 0x8000

/-- A gain is held between one half and two before it is rounded to its register. -/
theorem Dev.gainBounded_setReg (g : Rat) (i : Nat) : ((d.round (max (1 / 2) (min 2 g) * 16384)).1.setReg (gainReg i)
    (BitVec.ofNat 32 (d.round (max (1 / 2) (min 2 g) * 16384)).2.toNat)).GainBounded i := by
  obtain ⟨hlo, hhi⟩ : (1 / 2 : Rat) ≤ max (1 / 2) (min 2 g) ∧ max (1 / 2) (min 2 g) ≤ 2 :=
    ⟨le_max_left _ _, max_le (by norm_num) (min_le_left _ _)⟩
  obtain ⟨hlo, hhi⟩ := d.round_bounds (q := max (1 / 2) (min 2 g) * 16384) (lo := 0x2000) (hi := 0x8000)
    (by push_cast; linarith) (by push_cast; linarith)
  rw [Dev.GainBounded, Dev.reg_setReg_self, BitVec.toNat_ofNat]
  omega

section
variable (raw meas : List Nat)

theorem Dev.calibrateDom_work (i : Nat) : (d.calibrateDom raw meas i).work = d.work := by
  unfold Dev.calibrateDom
  extract_lets
  split
  · rfl
  · rw [Dev.setReg_work]
    exact Dev.round_work _ _

theorem Dev.calibrateDom_implausible (i j : Nat) : ((d.calibrateDom raw meas i).dom j).implausible = (d.dom j).implausible := by
  have hmod (f : Dom → Dom) (hf : ∀ x, (f x).implausible = x.implausible) :
      ((d.modDom i f).dom j).implausible = (d.dom j).implausible := by
    rw [Dev.dom_modDom]
    split
    next h => rw [hf, h]
    · rfl
  unfold Dev.calibrateDom
  extract_lets x r g e m d1 v
  have h1 : (d1.dom j).implausible = (d.dom j).implausible := hmod _ fun _ => rfl
  split
  · exact h1
  · simp only [Dev.dom, Dev.setReg_pwr, v, Dev.round_pwr]
    exact h1

/-- The step of another domain leaves this one's gain. -/
theorem Dev.calibrateDom_gainBounded_of_ne {i j : Nat} (hne : i ≠ j) (h : d.GainBounded j) :
    (d.calibrateDom raw meas i).GainBounded j := by
  unfold Dev.calibrateDom
  extract_lets x r g e m d1 v
  split
  · exact h
  · rw [Dev.GainBounded, Dev.reg_setReg, if_neg (fun h => hne (gainReg_inj.1 h).symm), Dev.reg, Dev.round_regs]
    exact h

theorem Dev.calibrateDom_gainBounded {i : Nat} (hok : (d.dom i).implausible = false) (hraw : 1000 ≤ raw.getD i 0) :
    (d.calibrateDom raw meas i).GainBounded i := by
  unfold Dev.calibrateDom
  extract_lets x r g e m d1 v
  rw [if_neg (by simpa [x, hok, r] using hraw)]
  exact Dev.gainBounded_setReg _ _ _

theorem Dev.calibrate_work : (d.calibrate raw meas).work = d.work := by
  rw [Dev.calibrate_eq, foldl_keeps Dev.work fun e i => e.calibrateDom_work raw meas i]

theorem Dev.calibrate_gainBounded {i : Nat} (hi : i < 56) (hok : (d.dom i).implausible = false) (hraw : 1000 ≤ raw.getD i 0) :
    (d.calibrate raw meas).GainBounded i := by
  rw [Dev.calibrate_eq]
  have hkeep (e : Dev) (j : Nat) (h : (e.dom i).implausible = false) : ((e.calibrateDom raw meas j).dom i).implausible = false :=
    (e.calibrateDom_implausible raw meas j i).trans h
  refine (foldl_visits (a := i) (P := fun e : Dev => (e.dom i).implausible = false)
    (Q := fun e : Dev => (e.dom i).implausible = false ∧ e.GainBounded i) (fun e j _ h => hkeep e j h)
    (fun e h => ⟨hkeep e i h, e.calibrateDom_gainBounded raw meas h hraw⟩) (fun e j h => ⟨hkeep e j h.1, ?_⟩)
    (List.mem_range.2 hi) hok).2
  by_cases hj : j = i
  · rw [hj]
    exact e.calibrateDom_gainBounded raw meas h.1 hraw
  · exact e.calibrateDom_gainBounded_of_ne raw meas hj h.2

end

/-! ### The control step (R432, R434, R437) -/

/-- What the estimates leave: the work, the registers and the length of the frame. -/
def Dev.ruled (d : Dev) : (MemS × SMap Frond × SMap Gemma) × SMap Word × Nat := (d.work, d.regs, d.pwr.frameUs)

/-- What the control of the domains leaves: their estimates as well. -/
def Dev.steered (d : Dev) : ((MemS × SMap Frond × SMap Gemma) × SMap Word × Nat) × (Nat → Rat) :=
  (d.ruled, fun i => (d.dom i).est)

theorem Dev.modDom_steered (i : Nat) {f : Dom → Dom} (hf : (f (d.dom i)).est = (d.dom i).est) :
    (d.modDom i f).steered = d.steered := by
  have hest : (fun j => ((d.modDom i f).dom j).est) = fun j => (d.dom j).est := by
    funext j
    rw [Dev.dom_modDom]
    split
    next h => rw [hf, h]
    · rfl
  rw [Dev.steered, hest]
  rfl

/-- Power's other books are not steered by. -/
theorem Dev.withPwr_steered {p : PwrS} (hdom : p.dom = d.pwr.dom) (hus : p.frameUs = d.pwr.frameUs) :
    ({ d with pwr := p } : Dev).steered = d.steered := by
  simp only [Dev.steered, Dev.ruled, Dev.dom, hdom, hus, Dev.withPwr_work]

theorem Dev.stackBudget_steered (s : Nat) (amount : Rat) (limited : Bool) (src : Nat) :
    (d.stackBudget s amount limited src).steered = d.steered :=
  foldl_keeps Dev.steered (fun e _ => e.modDom_steered _ rfl) _ d

theorem Dev.allocate_steered (measured : List Nat) : (d.allocate measured).steered = d.steered := by
  unfold Dev.allocate
  extract_lets m fixed dem d1
  split
  extract_lets avail shares d2 p
  have h2 : d2.steered = d1.steered := foldl_keeps Dev.steered (fun e s => e.stackBudget_steered s _ _ _) _ d1
  clear_value d2
  exact (d2.withPwr_steered (by rfl) (by rfl)).trans h2

theorem Dev.followCap_steered : d.followCap.steered = d.steered := by
  unfold Dev.followCap
  split
  · exact d.allocate_steered _
  · rfl

theorem Dev.followCap_ruled : d.followCap.ruled = d.ruled := congrArg Prod.fst d.followCap_steered

theorem Dev.budgetStep_steered (i : Nat) (mayRise : Bool) : (d.budgetStep i mayRise).steered = d.steered := by
  unfold Dev.budgetStep
  extract_lets x down rise steps
  have hmod (f : Dom → Dom) (hf : ∀ x, (f x).est = x.est) : (d.modDom i f).steered = d.steered := d.modDom_steered i (hf _)
  split
  · split
    · exact hmod _ fun _ => rfl
    · split
      · split <;> exact hmod _ fun _ => rfl
      · rfl
  · split
    · exact hmod _ fun _ => rfl
    · split
      · exact hmod _ fun _ => rfl
      · rfl

theorem Dev.settleDom_steered (fs : Fuses) (i : Nat) : (d.settleDom fs i).steered = d.steered := by
  unfold Dev.settleDom
  dsimp only
  split
  · exact Dev.modDom_steered d.draw.1 i rfl
  · split
    · exact d.modDom_steered i rfl
    · rfl

theorem Dev.poolStep_steered (s : Nat) : (d.poolStep s).steered = d.steered := by
  refine foldl_keeps Dev.steered (fun e j => ?_) _ d
  dsimp only
  split
  · refine (Dev.withPwr_steered _ (by rfl) (by rfl)).trans ?_
    exact e.modDom_steered _ rfl
  · split
    · refine (Dev.withPwr_steered _ (by rfl) (by rfl)).trans ?_
      exact e.modDom_steered _ rfl
    · rfl

/-- One domain's estimate in POWER_CONTROL_STEP, with its energy and its count. -/
def Dev.estimateDom (raw : List Nat) (d : Dev) (i : Nat) : Dev :=
  let e := ((raw.getD i 0 : Nat) : Rat) * d.gain i
  let en := (d.dom i).energy + e / 100
  (d.modDom i (fun y => { y with est := e, energy := en })).bump (cDom i 8) (en.floor - (d.dom i).energy.floor).toNat

theorem Dev.estimateDom_dom (raw : List Nat) (i j : Nat) : (d.estimateDom raw i).dom j = (d.modDom i (fun y => { y with
    est := ((raw.getD i 0 : Nat) : Rat) * d.gain i
    energy := (d.dom i).energy + ((raw.getD i 0 : Nat) : Rat) * d.gain i / 100 })).dom j := rfl

theorem Dev.estimateDom_est {d e : Dev} (raw : List Nat) (h : e.regs = d.regs) (i : Nat) :
    ((e.estimateDom raw i).dom i).est = ((raw.getD i 0 : Nat) : Rat) * d.gain i := by
  rw [Dev.estimateDom_dom, Dev.dom_modDom, if_pos rfl, Dev.gain, Dev.reg, h]
  rfl

theorem Dev.estimateDom_of_ne (raw : List Nat) {i j : Nat} (h : j ≠ i) : (d.estimateDom raw i).dom j = d.dom j := by
  rw [Dev.estimateDom_dom, Dev.dom_modDom, if_neg h]

/-- One domain's control in POWER_CONTROL_STEP: its budget, its grant or gate, its reasons and their counts. -/
def Dev.controlDom (fs : Fuses) (guard : Bool) (d : Dev) (i : Nat) : Dev :=
  let hold := guard && decide ((d.dom i).est < (d.dom i).budget * 95 / 100)
  let d := (d.budgetStep i (!guard)).settleDom fs i
  let d := if hold then d.modDom i (fun y => { y with thr := y.thr ||| 0x80#8 }) else d
  let th := (d.dom i).thr
  let d := (List.range 8).foldl (fun d b => if th.getLsbD b then d.bump (cDom i b) 10 else d) d
  if th.getLsbD 1 || th.getLsbD 2 then d.modDom i (fun y => { y with heldUs := y.heldUs + 10 }) else d

theorem Dev.controlDom_steered (fs : Fuses) (guard : Bool) (i : Nat) : (d.controlDom fs guard i).steered = d.steered := by
  unfold Dev.controlDom
  extract_lets hold d1 d2 th d3
  have h1 : d1.steered = d.steered := (Dev.settleDom_steered _ fs i).trans (d.budgetStep_steered i _)
  have h2 : d2.steered = d1.steered := by
    unfold d2
    split
    · exact d1.modDom_steered i rfl
    · rfl
  have h3 : d3.steered = d2.steered := foldl_keeps Dev.steered (fun e b => by split <;> rfl) _ d2
  rw [← h1, ← h2, ← h3]
  split
  · exact d3.modDom_steered i rfl
  · rfl

/-- The module's estimate is noted, and the frame is 10 µs longer. -/
theorem Dev.longerFrame_steered (total : Rat) :
    ({ d with pwr := { d.pwr with power := total, frameUs := d.pwr.frameUs + 10 } } : Dev).steered =
      ((d.work, d.regs, d.pwr.frameUs + 10), fun i => (d.dom i).est) := rfl

/-- The estimates of all domains, each from its raw power and gain. -/
theorem Dev.estimates (raw : List Nat) : ((List.range 56).foldl (Dev.estimateDom raw) d).ruled = d.ruled ∧
    ∀ i < 56, (((List.range 56).foldl (Dev.estimateDom raw) d).dom i).est = ((raw.getD i 0 : Nat) : Rat) * d.gain i := by
  refine ⟨foldl_keeps Dev.ruled (fun _ _ => by rfl) _ d, fun i hi => ?_⟩
  refine (foldl_visits (f := Dev.estimateDom raw) (a := i) (P := fun e : Dev => e.regs = d.regs)
    (Q := fun e : Dev => e.regs = d.regs ∧ (e.dom i).est = ((raw.getD i 0 : Nat) : Rat) * d.gain i)
    (fun e j _ h => h) (fun e h => ⟨h, Dev.estimateDom_est raw h i⟩) (fun e j h => ⟨h.1, ?_⟩) (List.mem_range.2 hi) rfl).2
  by_cases hj : i = j
  · subst hj
    exact Dev.estimateDom_est raw h.1 i
  · rw [e.estimateDom_of_ne raw hj]
    exact h.2

/-- A control step leaves the work and the registers, and the estimates that it makes. -/
theorem Dev.powerStep_steered (fs : Fuses) (t : Nat) (raw : List Nat) : ∃ est : Nat → Rat,
    (d.powerStep fs t raw).steered = ((d.work, d.regs, d.pwr.frameUs + 10), est) ∧
      ∀ i < 56, est i = ((raw.getD i 0 : Nat) : Rat) * d.gain i := by
  unfold Dev.powerStep
  extract_lets d1 e total guard p e1 ctl e2
  have hcap : d1.ruled = d.ruled := (d.upTo t).followCap_ruled
  have hsame : d1.regs = d.regs := congrArg (·.2.1) hcap
  obtain ⟨hruled, hest⟩ : e.ruled = d1.ruled ∧ ∀ i < 56, (e.dom i).est = ((raw.getD i 0 : Nat) : Rat) * d1.gain i :=
    d1.estimates raw
  rw [hcap] at hruled
  simp only [Dev.ruled, Prod.mk.injEq] at hruled
  obtain ⟨hwork, hregs, hus⟩ := hruled
  have h2 : e2.steered = e1.steered := foldl_keeps Dev.steered (fun e i => e.controlDom_steered fs guard i) ctl e1
  refine ⟨fun i => (e.dom i).est, ?_, fun i hi => (hest i hi).trans ?_⟩
  · refine (foldl_keeps Dev.steered (fun e s => e.poolStep_steered s) _ e2).trans (h2.trans ?_)
    rw [← hwork, ← hregs, ← hus]
    exact e.longerFrame_steered total
  · rw [Dev.gain, Dev.reg, hsame]
    rfl

/-! ### Pools between the stacks (R437) -/

/-- A stack's demand that its domains' budgets leave unmet. -/
def Dev.unmet (d : Dev) (s : Nat) : Rat := (List.range 12).foldl (fun a j =>
  a + max 0 ((d.dom (14 * s + j)).est - (d.dom (14 * s + j)).budget)) 0

theorem Dev.rebalance_eq (h : d.unmet 0 + d.unmet 1 + d.unmet 2 + d.unmet 3 ≠ 0) : d.rebalance =
    { d with pwr := { d.pwr with pools := (List.range 4).map (fun s => (s,
      (d.pwr.pools.get 0 0 + d.pwr.pools.get 1 0 + d.pwr.pools.get 2 0 + d.pwr.pools.get 3 0) * d.unmet s /
        (d.unmet 0 + d.unmet 1 + d.unmet 2 + d.unmet 3))) } } := if_neg fun hu => h (eq_of_beq hu)

end Sys2Proof.Machine
end

section
/-! SUPPORT. Telemetry and power control. -/

open Sys2Proof Sys2Proof.Machine

/-- Settles O55: a sample and a calibration by what they leave and set, a control step by the estimates that it makes and then keeps,
and the pools by the unmet demand. -/
theorem powerControl : Obligations.PowerControl := by
  intro s t raw meas cs c2s vin iin halive d pool unmet u
  refine ⟨⟨_, exec_devRow (act := fun d => d.telemetry t cs c2s vin iin) rfl halive rfl, ?_⟩,
    ⟨_, exec_devRow (act := fun d => d.powerStep s.fuse t raw) rfl halive rfl, ?_⟩,
    fun hu => exec_devRow (act := fun d => d.rebalance) rfl halive (d.rebalance_eq hu),
    ⟨_, exec_devRow (act := fun d => d.calibrate raw meas) rfl halive rfl, ?_⟩⟩
  · have h := s.dev.telemetry_inputTaken t cs c2s vin iin
    simp only [Dev.inputTaken, Dev.work, Prod.mk.injEq] at h
    obtain ⟨⟨hmem, hfronds, hgemmas⟩, hiin, hat⟩ := h
    exact ⟨s.dev.telemetry_vin t cs c2s vin iin, hiin, hat, hmem, hfronds, hgemmas⟩
  · obtain ⟨est, h, hest⟩ := s.dev.powerStep_steered s.fuse t raw
    simp only [Dev.steered, Dev.ruled, Dev.work, Prod.mk.injEq] at h
    obtain ⟨⟨⟨hmem, hfronds, -⟩, hregs, hus⟩, hdoms⟩ := h
    exact ⟨hus, fun i hi => (congrFun hdoms i).trans (hest i hi), hmem, hfronds, hregs⟩
  · have h := s.dev.calibrate_work raw meas
    simp only [Dev.work, Prod.mk.injEq] at h
    obtain ⟨hmem, hfronds, -⟩ := h
    exact ⟨hmem, hfronds, fun i hi hok hraw => s.dev.calibrate_gainBounded raw meas hi hok hraw⟩
end

section
/-! SUPPORT. What the end of units and the loss of what a domain holds leave of power (02 R64, 13 R442). -/

namespace Sys2Proof.Machine

variable (d : Dev)

@[simp] theorem Dev.touchInFlight_pwr (k : Nat) : (d.touchInFlight k).pwr = d.pwr :=
  foldl_keeps Dev.pwr (fun e _ => foldl_keeps Dev.pwr (fun _ _ => by rfl) _ e) _ d

@[simp] theorem Dev.endGemmas_pwr (u : WUnit) : (d.endGemmas u).pwr = d.pwr := foldl_keeps Dev.pwr (fun _ _ => by rfl) _ d

@[simp] theorem Dev.truncCopy_pwr (k : Nat) : (d.truncCopy k).pwr = d.pwr := rfl

@[simp] theorem Dev.endUnitAs_pwr (k st cause aux : Nat) : (d.endUnitAs k st cause aux).pwr = d.pwr := by
  unfold Dev.endUnitAs
  split
  · rfl
  · dsimp only
    repeat' split
    all_goals simp [Dev.modFrond_eq]

theorem Dev.depFail_pwr (n : Nat) (d : Dev) : (d.depFail n).pwr = d.pwr := by
  induction n generalizing d with
  | zero => rfl
  | succ n ih =>
    unfold Dev.depFail
    extract_lets bad
    split
    · rfl
    · exact (ih _).trans (foldl_keeps Dev.pwr (fun e _ => e.endUnitAs_pwr _ 2 4 0) _ d)

@[simp] theorem Dev.killUnits_pwr (p : WUnit → Bool) (cause : Nat) : (d.killUnits p cause).pwr = d.pwr :=
  (Dev.depFail_pwr _ _).trans (foldl_keeps Dev.pwr (fun e _ => e.endUnitAs_pwr _ _ cause 0) _ d)

@[simp] theorem Dev.loseHalf_pwr (h : Nat) : (d.loseHalf h).pwr = d.pwr := foldl_keeps Dev.pwr (fun _ _ => by rfl) _ d

/-- What a domain holds is cleared, and nothing of power changes. -/
@[simp] theorem Dev.domLost_pwr (i : Nat) : (d.domLost i).pwr = d.pwr := by
  unfold Dev.domLost
  extract_lets j
  split
  · exact (Dev.loseHalf_pwr _ _).trans (foldl_keeps Dev.pwr (fun _ _ => by rfl) _ d)
  · split
    · exact (foldl_keeps Dev.pwr (fun e _ => foldl_keeps Dev.pwr (fun _ _ => by rfl) _ e) _ _).trans
        (foldl_keeps Dev.pwr (fun _ _ => by rfl) _ d)
    · rfl

end Sys2Proof.Machine
end

section
/-! SUPPORT. How a domain is switched on, stops and is held back (13 R425, R428, R430, R441, R442). -/

namespace Sys2Proof.Machine

section
variable {d : Dev} {i t : Nat}

/-! ### Switching on (R425, R441) -/

theorem Dev.switchTest_passes (fs : Fuses) {load : List Nat} (hst : (d.dom i).st = 1)
    (hload : load.all (fun l => decide (l ≤ 900)) = true)
    (hturn : ((List.range 56).filter (fun k => k != i && sameConv i k)).any
      (fun k => (d.dom k).st == 2 || ((d.dom k).st == 1 && decide (k < i))) = false) :
    d.switchTest fs i load t = ((d.upTo t).modDom i (fun y => { y with st := 2, asked := 0 })).inc (cDom i 9) := by
  unfold Dev.switchTest
  extract_lets d1 mates turn
  have hst : (d1.dom i).st = 1 := hst
  have hturn : turn = false := hturn
  rw [if_neg (by simp [hst]), if_pos (by rw [hload, hturn]; rfl)]
  rfl

theorem Dev.rampEnd_of_ramping (hst : (d.dom i).st = 2) : d.rampEnd i t = (d.upTo t).modDom i (fun y => { y with st := 3 }) :=
  if_neg (by simpa [Dev.dom] using hst)

/-- A domain whose initialisation ends: ON, at the lowest grant (log 40). -/
def Dom.on (x : Dom) : Dom := { x with st := 4, waited := false, grant := 0, next := 0, bl := 0, idle := 0 }

/-- What the clearing of stores leaves: power, memory and the registers. -/
def Dev.supplied (d : Dev) : PwrS × MemS × SMap Word := (d.pwr, d.mem, d.regs)

/-- The end of INIT clears the domain's stores, and changes of power only the domain. -/
theorem Dev.initEnd_of_init (hst : (d.dom i).st = 3) :
    ∃ e : Dev, d.initEnd i t = e.modDom i Dom.on ∧ e.pwr = d.pwr ∧ e.mem = d.mem ∧ e.regs = d.regs := by
  unfold Dev.initEnd
  extract_lets d1 j d2
  refine ⟨d2, if_neg (by simpa [Dev.dom, d1] using hst), ?_⟩
  have h2 : d2.supplied = d.supplied := by
    unfold d2
    split
    · exact foldl_keeps Dev.supplied (fun _ _ => by rfl) _ d1
    · split
      · exact foldl_keeps Dev.supplied (fun e _ => foldl_keeps Dev.supplied (fun _ _ => by rfl) _ e) _ d1
      · rfl
  simpa only [Dev.supplied, Prod.mk.injEq] using h2

/-! ### Clamps (R441) -/

/-- A domain that no clamp holds. -/
def Dom.released (x : Dom) : Dom := { x with clamp := none, rl := 42, rgate := 0 }

/-- The clamp of a domain that serves domain i is released. -/
def Dev.releaseDom (i : Nat) (d : Dev) (k : Nat) : Dev := if (d.dom k).clamp == some i then d.modDom k Dom.released else d

theorem Dev.releaseDom_dom (d : Dev) (i k j : Nat) : (d.releaseDom i k).dom j =
    if j = k ∧ (d.dom j).clamp = some i then (d.dom j).released else d.dom j := by
  unfold Dev.releaseDom
  by_cases hj : j = k
  · subst hj
    by_cases hc : (d.dom j).clamp = some i <;> simp [hc, Dev.dom_modDom]
  · have hne : ¬(j = k ∧ (d.dom j).clamp = some i) := fun h => hj h.1
    rw [if_neg hne]
    split
    · rw [Dev.dom_modDom, if_neg hj]
    · rfl

theorem Dev.releases_dom_of_clamped {k : Nat} (hk : k < 56) (hc : (d.dom k).clamp = some i) :
    ((List.range 56).foldl (Dev.releaseDom i) d).dom k = (d.dom k).released := by
  refine foldl_visits (a := k) (P := fun e : Dev => e.dom k = d.dom k) (Q := fun e : Dev => e.dom k = (d.dom k).released)
    (fun e j hj h => ?_) (fun e h => ?_) (fun e j h => ?_) (List.mem_range.2 hk) rfl
  · rw [e.releaseDom_dom, if_neg fun hjk => hj hjk.1.symm, h]
  · rw [e.releaseDom_dom, if_pos ⟨rfl, h ▸ hc⟩, h]
  · rw [e.releaseDom_dom, if_neg (by simp [h, Dom.released]), h]

theorem Dev.releases_dom_of_free {k : Nat} (hc : (d.dom k).clamp ≠ some i) (l : List Nat) :
    (l.foldl (Dev.releaseDom i) d).dom k = d.dom k :=
  List.foldlRecOn (motive := fun e : Dev => e.dom k = d.dom k) l _ rfl fun e h j _ => by
    rw [e.releaseDom_dom, if_neg fun hjk => hc (h ▸ hjk.2), h]

theorem Dev.releases_mem (l : List Nat) : (l.foldl (Dev.releaseDom i) d).mem = d.mem :=
  foldl_keeps Dev.mem (fun e j => by unfold Dev.releaseDom; split <;> rfl) l d

/-- Once its own domain no longer waits or ramps, every clamp that serves it is released, and no other domain changes. -/
theorem Dev.clampRelease_releases (h1 : (d.dom i).st ≠ 1) (h2 : (d.dom i).st ≠ 2) :
    (∀ k < 56, (d.dom k).clamp = some i → (d.clampRelease i t).dom k = (d.dom k).released) ∧
      (∀ k, (d.dom k).clamp ≠ some i → (d.clampRelease i t).dom k = d.dom k) ∧ (d.clampRelease i t).mem = d.mem := by
  have heq : d.clampRelease i t = (List.range 56).foldl (Dev.releaseDom i) (d.upTo t) :=
    if_neg (by simpa [Dev.dom] using And.intro h1 h2)
  rw [heq]
  exact ⟨fun k hk hc => Dev.releases_dom_of_clamped (d := d.upTo t) hk hc,
    fun k hc => Dev.releases_dom_of_free (d := d.upTo t) hc _, Dev.releases_mem _⟩

/-! ### Faults (R442) -/

/-- A domain that a fault of its converter stopped; a second fault within a second leaves it off. -/
def Dom.faulted (x : Dom) (t : Nat) (again : Bool) : Dom :=
  { x.off with st := 5, faultAt := some t, dead := x.dead || again, fall := x.fall || again }

/-- A fault of a second stage stops its own domain alone. -/
theorem Dev.convFault_dom (hi : i % 14 < 12) : ∃ again, ∀ k, (d.convFault i false t).dom k =
    if k = i then (d.dom i).faulted t again else d.dom k := by
  unfold Dev.convFault
  extract_lets d1 s e1 x again e2 e3
  have h2 (k : Nat) : e2.dom k = d.dom k := by
    rw [Dev.dom, Dev.domLost_pwr, Dev.killUnits_pwr]
    rfl
  refine ⟨again, fun k => ?_⟩
  rw [if_neg (by simp; omega), Dev.dom, Dev.raise_pwr]
  change e3.dom k = _
  rw [Dev.dom_modDom, h2, h2]
  rfl

/-! ### Droop (R428) -/

theorem Dev.droop_stretches {h : Nat} (hst : (d.dom (halfDom h)).st = 4) (hd : (d.dom (halfDom h)).droop = false) :
    d.droop h = (d.modDom (halfDom h) (fun y => { y with droop := true, thr := y.thr ||| 8#8 })).inc (cHl h 0) :=
  if_neg (by simp [hst, hd])

/-! ### Derates (R430) -/

/-- In operation a derate waits for the boundary, and never falls. -/
theorem Dev.ageing_frond {k f : Nat} (n : Nat) (h7 : d.bup.stage = 7) (hk : d.stk f = k) (hf : f < 256) : d.ageing k [(f, n)] =
    d.modFrond f (fun y => { y with pendDerate := some (max (y.pendDerate.getD y.derate) (min 15 n)) }) := by
  simp [Dev.ageing, hk, hf, h7, Dev.modFrond_eq]

end

end Sys2Proof.Machine
end

section
/-! SUPPORT. Power domains. -/

open Sys2Proof Sys2Proof.Machine

/-- Settles O56: each row by its own function's equation, in the state that the clause gives. -/
theorem powerDomains : Obligations.PowerDomains := by
  intro s i h t halive d x mates turn
  refine ⟨fun load hst hload hturn => ?_, fun hst => ?_, fun hst => ?_, fun h1 h2 => ?_, fun hi => ?_, fun hst hdroop => ?_, ?_,
    fun h7 k f n hk hf => ?_⟩
  · exact exec_devRow (act := fun d => d.switchTest s.fuse i load t) rfl halive (Dev.switchTest_passes s.fuse hst hload hturn)
  · exact exec_devRow (act := fun d => d.rampEnd i t) rfl halive (Dev.rampEnd_of_ramping hst)
  · obtain ⟨e, he, hpwr, hmem, hregs⟩ := Dev.initEnd_of_init (t := t) hst
    have hdom (k : Nat) : (e.modDom i Dom.on).dom k = if k = i then (d.dom i).on else d.dom k := by
      rw [Dev.dom_modDom, Dev.dom, Dev.dom, hpwr]
      rfl
    refine ⟨_, exec_devRow (act := fun d => d.initEnd i t) rfl halive he, ?_, ?_, fun k hk => ?_, hmem, hregs⟩
    · rw [hdom, if_pos rfl, Dom.on]
    · rw [hdom, if_pos rfl, Dom.on]
    · rw [hdom, if_neg hk]
  · obtain ⟨hclamped, hfree, hmem⟩ := Dev.clampRelease_releases (d := s.dev) (t := t) h1 h2
    refine ⟨_, exec_devRow (act := fun d => d.clampRelease i t) rfl halive rfl, fun k hk hc => ?_, fun k _ hc => hfree k hc, hmem⟩
    rw [hclamped k hk hc]
    exact ⟨rfl, rfl, rfl⟩
  · obtain ⟨again, hdom⟩ := Dev.convFault_dom (d := s.dev) (t := t) hi
    refine ⟨_, exec_devRow (act := fun d => d.convFault i false t) rfl halive rfl, ?_, ?_, ?_, fun k hk => ?_⟩
    · rw [hdom, if_pos rfl, Dom.faulted]
    · rw [hdom, if_pos rfl, Dom.faulted]
    · rw [hdom, if_pos rfl]
      rfl
    · rw [hdom, if_neg hk]
  · exact exec_devRow (act := fun d => d.droop h) rfl halive (Dev.droop_stretches hst hdroop)
  · exact exec_devRow (act := fun d => d.droopEnd h) rfl halive rfl
  · exact exec_devRow (act := fun d => d.ageing k [(f, n)]) rfl halive (Dev.ageing_frond n h7 hk hf)
end

section
/-! SUPPORT. What the end of a link's requests leaves of the module: all but the ports, the transfers, what is drawn, the records, the
counters and the units (11 R366-R370, R382). -/

namespace Sys2Proof.Machine

/-- The device apart from what a link port that stops may change. -/
def Dev.offLink (d : Dev) : Dev := { d.bare with ports := [], xfers := [], free := 0 }

theorem Dev.offLink_of_bare {d e : Dev} (h : e.bare = d.bare) : e.offLink = d.offLink := by
  change e.bare.offLink = d.bare.offLink
  rw [h]

variable (d : Dev)

@[simp] theorem Dev.setPort_offLink (p : Nat) (x : PortS) : (d.setPort p x).offLink = d.offLink := rfl
@[simp] theorem Dev.modPort_offLink (p : Nat) (f : PortS → PortS) : (d.modPort p f).offLink = d.offLink := rfl
@[simp] theorem Dev.inc_offLink (c : Nat) : (d.inc c).offLink = d.offLink := rfl
@[simp] theorem Dev.raise_offLink (s : Nat) (r : ErrRec) : (d.raise s r).offLink = d.offLink := Dev.offLink_of_bare (d.raise_bare s r)

@[simp] theorem Dev.sendFlits_offLink (p : Nat) (is : List TxItem) : (d.sendFlits p is).offLink = d.offLink := by
  unfold Dev.sendFlits
  split <;> rfl

@[simp] theorem Dev.pumpPort_offLink (p : Nat) : (d.pumpPort p).offLink = d.offLink := by
  unfold Dev.pumpPort
  dsimp only
  split <;> simp

@[simp] theorem Dev.sendCpl_offLink (p : Nat) (c : CplHdr) : (d.sendCpl p c).offLink = d.offLink := by
  unfold Dev.sendCpl
  split <;> simp

@[simp] theorem Dev.reply_offLink (p rsn st seals result : Nat) (data : List Byte) (pm : BitVec 64) :
    (d.reply p rsn st seals result data pm).offLink = d.offLink := by
  unfold Dev.reply
  split <;> simp

@[simp] theorem Dev.finishPieces_offLink (o : OutReq) (st : Nat) (data : List Byte) (pm : BitVec 64) :
    (d.finishPieces o st data pm).offLink = d.offLink := by
  unfold Dev.finishPieces
  split
  · rfl
  · exact foldl_keeps Dev.offLink (fun _ _ => by rfl) _ _

@[simp] theorem Dev.outEnd_offLink (p : Nat) (o : OutReq) (st seals result : Nat) (data : List Byte) (pm : BitVec 64) :
    (d.outEnd p o st seals result data pm).offLink = d.offLink := by
  unfold Dev.outEnd
  dsimp only
  split <;> simp

@[simp] theorem Dev.portDown_offLink (p : Nat) : (d.portDown p).offLink = d.offLink := by
  unfold Dev.portDown
  dsimp only
  split
  · rfl
  · refine (foldl_keeps Dev.offLink (fun e o => e.outEnd_offLink p o 10 0 0 [] 0#64) _ _).trans ?_
    exact Dev.raise_offLink _ _ _

/-- A port that retrains, or goes down for it, changes nothing else of the module. -/
@[simp] theorem Dev.portRetrain_offLink (p : Nat) : (d.portRetrain p).offLink = d.offLink := by
  unfold Dev.portRetrain
  extract_lets x recent e f
  have hf : f.offLink = d.offLink := Dev.raise_offLink _ _ _
  split
  · rfl
  · split
    · exact (f.portDown_offLink p).trans hf
    · exact hf

end Sys2Proof.Machine
end

section
/-! SUPPORT. Power, reset, the input voltage and the clock at the pins (13 R422, 15 R495, 17 R533-R535, R540). -/

namespace Sys2Proof.Machine

section
variable {d : Dev} {t : Nat}

/-- Stage 0 whose self-checks pass, with REFCLK locked. -/
def Dev.booted (d : Dev) : Dev := { d.freshBoot with pin := { d.freshBoot.pin with refclk := true } }

theorem Dev.boot_passes (d : Dev) : d.boot 0xF#4 true = d.booted := rfl

/-- A strap is sampled as the power comes up. -/
def Dev.strapped (d : Dev) (strap : BitVec 3) : Dev := { d with pin := { d.pin with strap := strap, refclk := true } }

theorem Dev.powerOn_passes (h : d.pin.resetLow = false) (strap : BitVec 3) :
    d.powerOn strap 0xF#4 true = (d.strapped strap).booted := if_neg (by simp [h])

/-- The device as PWR_EN rises. -/
def Dev.enabled (d : Dev) : Dev := { d with pin := { d.pin with pwrEn := true } }

theorem Dev.enRise_powers (hen : d.pin.pwrEn = false) (hfell : d.pin.fellAt = none) (hvin : d.pin.vinBad = false)
    (hreset : d.pin.resetLow = false) (strap : BitVec 3) :
    d.enRise t strap 0xF#4 true = ((d.upTo t).enabled.strapped strap).booted := by
  have hok : (d.mayRise t && !d.pin.vinBad) = true := by simp [Dev.mayRise, hfell, hvin]
  unfold Dev.enRise
  rw [if_neg (by simp [hen])]
  dsimp only
  rw [if_pos hok]
  exact Dev.powerOn_passes (d := (d.upTo t).enabled) hreset strap

/-- A rise that came too early is honoured 100 ms after the fall. -/
theorem Dev.enHonoured_powers {n : Nat} (hen : d.pin.pwrEn = true) (hoff : d.bup.powered = false) (hfell : d.pin.fellAt = some n)
    (hn : n + 100000000 ≤ t) (hvin : d.pin.vinBad = false) (hreset : d.pin.resetLow = false) (strap : BitVec 3) :
    d.enHonoured t strap 0xF#4 true = ((d.upTo t).strapped strap).booted := by
  unfold Dev.enHonoured
  rw [if_pos (by simp [hen, hoff, hfell, Dev.mayRise, hn, hvin])]
  exact Dev.powerOn_passes (d := d.upTo t) hreset strap

theorem Dev.enFall_powersOff (hen : d.pin.pwrEn = true) : d.enFall t =
    Dev.powerOff { d with now := max d.now t, pin := { d.pin with pwrEn := false, fellAt := some t } } := if_neg (by simp [hen])

theorem Dev.resetLow_resets {low : Nat} (hlow : 10000 ≤ low) (hon : d.bup.powered = true) :
    d.resetLow low t = Dev.freshBoot { d.upTo t with pin := { d.pin with resetLow := true } } := by
  unfold Dev.resetLow
  simp [show ¬ low < 1000 by omega, show ¬ low < 10000 by omega, hon, Dev.upTo]

theorem Dev.resetHigh_boots (hlow : d.pin.resetLow = true) (hon : d.bup.powered = true) :
    d.resetHigh t 0xF#4 true = Dev.booted { d.upTo t with pin := { d.pin with resetLow := false } } := by
  simp [Dev.resetHigh, hlow, hon, Dev.boot_passes, Dev.upTo]

theorem Dev.vinLow_powersOff {mv held : Nat} (hmv : mv < 42000) (hheld : 100000 ≤ held) :
    d.vinLow mv held = Dev.powerOff { d with pin := { d.pin with vinBad := true } } := if_pos (by simp [hmv, hheld])

theorem Dev.vinHigh_powersOff {mv held : Nat} (hmv : 58000 < mv) (hheld : 10000 ≤ held) :
    d.vinHigh mv held = Dev.powerOff { d with pin := { d.pin with vinBad := true } } := if_pos (by simp [hmv, hheld])

theorem Dev.powerOn_vinBad (d : Dev) (strap : BitVec 3) : (d.powerOn strap 0xF#4 true).pin.vinBad = d.pin.vinBad := by
  unfold Dev.powerOn
  dsimp only
  split <;> rfl

/-- The input in its range again, whichever way it had left it (log 57). -/
theorem Dev.vinRise_vinBad {mv : Nat} (hbad : d.pin.vinBad = true) (hlo : 44000 ≤ mv) (hhi : mv ≤ 56000) :
    (d.vinRise mv t 0xF#4 true).pin.vinBad = false := by
  unfold Dev.vinRise
  rw [if_neg (by simp [hbad]; omega)]
  extract_lets ok pin pwr e
  split
  · exact e.powerOn_vinBad _
  · rfl

theorem Dev.bupStop_pin (d : Dev) (code detail : Nat) : (d.bupStop code detail).pin = d.pin :=
  congrArg (·.pin) (Dev.raise_bare _ 0 _)

/-- A loss of REFCLK stops stage 0, or makes the ports retrain. -/
theorem Dev.clockLoss_refclk {held : Nat} (hheld : 10000 ≤ held) (hclk : d.pin.refclk = true) :
    (d.clockLoss held t).pin.refclk = false := by
  unfold Dev.clockLoss
  rw [if_neg (by simp [hclk]; omega)]
  extract_lets pin e
  have hports (l : List Nat) : (l.foldl (fun d p => d.portRetrain p) e).pin = e.pin :=
    congrArg (·.pin) (foldl_keeps Dev.offLink (fun e p => e.portRetrain_offLink p) l e)
  split
  · rw [Dev.bupStop_pin]
  · split
    · rw [hports]
    · rfl

theorem Dev.clockBack_locks {held : Nat} (hheld : 10000000 ≤ held) :
    d.clockBack held t = { d.upTo t with pin := { d.pin with refclk := true } } := if_neg (by omega)

/-! ### Sideband inputs (R536) -/

theorem Dev.throttleOn_asserts (h : d.pwr.throttle = false) : d.throttleOn t = { d.upTo t with
    pwr := { d.pwr with throttle := true, throttleUse := true }
    pin := { d.pin with throttleAt := some (d.upTo t).now, throttleErr := false } } := if_neg (by simp [h])

theorem Dev.throttleOff_releases (h : d.pwr.throttle = true) : d.throttleOff t = { d.upTo t with
    pwr := { d.pwr with throttle := false }, pin := { d.pin with throttleAt := none } } := if_neg (by simp [h])

theorem Dev.throttleHeld_raises {a : Nat} (ha : d.pin.throttleAt = some a) (herr : d.pin.throttleErr = false)
    (ht : a + 10000000000 ≤ t) : d.throttleHeld t =
      Dev.raise { d.upTo t with pin := { d.pin with throttleErr := true } } 0 { cls := 0, kind := 0, code := 0x0C07 } := by
  unfold Dev.throttleHeld
  rw [ha]
  exact if_neg (by simp [herr]; omega)

end

/-! ### The management bus (R542-R544) -/

section
variable {d : Dev} (hup : d.i3cUp = true)
include hup

theorem Dev.i3cWrite_sets {bs : List Byte} (hlen : bs.length = 4) :
    d.i3cWrite bs = d.setPin (fun p => { p with i3cAddr := leNat bs / 4 * 4 }) := if_pos (by simp [hup, hlen])

theorem Dev.i3cRead_answers (fs : Fuses) (n : Nat) : d.i3cRead fs n = d.setPin (fun p => { p with
    i3cOut := (List.range n).map (fun i => d.i3cWord fs ((p.i3cAddr + 4 * i) % 2 ^ 32))
    i3cAddr := (p.i3cAddr + 4 * n) % 2 ^ 32 }) := if_neg (by simp [hup])

theorem Dev.setdasa_sets {st : BitVec 7} (hst : st.toNat = 0x48 + d.pin.strap.toNat) (hdyn : d.pin.dyn = 0#7) (dy : BitVec 7) :
    d.setdasa st dy = d.setPin (fun p => { p with dyn := dy }) := if_pos (by simp [hup, hst, hdyn, Dev.staticAddr])

theorem Dev.entdaa_sets (hdyn : d.pin.dyn = 0#7) (fs : Fuses) (dy : BitVec 7) : d.entdaa fs dy = d.setPin (fun p => { p with
    dyn := dy, i3cReply := pid fs ++ [Config.i3cByte 2, Config.i3cByte 3] }) := if_pos (by simp [hup, hdyn])

theorem Dev.i3cAnswer_replies (hdyn : d.pin.dyn ≠ 0#7) (bs : List Byte) :
    d.i3cAnswer bs = d.setPin (fun p => { p with i3cReply := bs }) := if_pos (by simp [hup, hdyn])

theorem Dev.ibiRetry_raises {t : Nat} (hibi : d.pin.ibi = true) (halert : d.pin.alert = true) (hn : 0 < d.pin.ibis)
    (hat : d.pin.ibiAt + 1000000 ≤ t) : d.ibiRetry t = (d.upTo t).raiseIbi := if_pos (by simp [hup, hibi, halert, hn, hat])

end

end Sys2Proof.Machine
end

section
/-! SUPPORT. Pins and the management bus. -/

open Sys2Proof Sys2Proof.Machine

/-- Settles O59: each row by its own function's equation, in the state that the clause gives. -/
theorem pinsAndBus : Obligations.PinsAndBus := by
  intro s t d e
  refine ⟨?_, ?_, ?_, ?_, ?_, ?_, ?_, ?_, ?_, ?_, ?_, ?_, ?_, ?_, ?_⟩
  · intro strap hen hfell hvin hreset
    exact ⟨_, exec_pinRow (act := fun d => d.enRise t strap 0xF#4 true) rfl (Dev.enRise_powers hen hfell hvin hreset strap),
      rfl, rfl, rfl, rfl, rfl, rfl⟩
  · intro strap n hen hoff hfell hn hvin hreset
    exact ⟨_, exec_pinRow (act := fun d => d.enHonoured t strap 0xF#4 true) rfl
      (Dev.enHonoured_powers hen hoff hfell hn hvin hreset strap), rfl, rfl⟩
  · intro hen
    exact ⟨_, exec_pinRow (act := fun d => d.enFall t) rfl (Dev.enFall_powersOff hen), rfl, rfl, rfl, rfl, rfl⟩
  · intro low hlow hon
    exact ⟨_, exec_pinRow (act := fun d => d.resetLow low t) rfl (Dev.resetLow_resets hlow hon), rfl, rfl, rfl, rfl⟩
  · intro hlow hon
    exact ⟨_, exec_pinRow (act := fun d => d.resetHigh t 0xF#4 true) rfl (Dev.resetHigh_boots hlow hon), rfl, rfl, rfl⟩
  · intro mv held hmv hheld
    exact ⟨_, exec_pinRow (act := fun d => d.vinLow mv held) rfl (Dev.vinLow_powersOff hmv hheld), rfl, rfl⟩
  · intro mv held hmv hheld
    exact ⟨_, exec_pinRow (act := fun d => d.vinHigh mv held) rfl (Dev.vinHigh_powersOff hmv hheld), rfl, rfl⟩
  · intro mv hbad hlo hhi
    exact ⟨_, exec_pinRow (act := fun d => d.vinRise mv t 0xF#4 true) rfl rfl, Dev.vinRise_vinBad hbad hlo hhi⟩
  · intro held hheld hclk
    exact ⟨_, exec_pinRow (act := fun d => d.clockLoss held t) rfl rfl, Dev.clockLoss_refclk hheld hclk⟩
  · exact fun held hheld => exec_pinRow (act := fun d => d.clockBack held t) rfl (Dev.clockBack_locks hheld)
  · exact fun high => rfl
  · exact fun halive h => exec_devRow (act := fun d => d.throttleOn t) rfl halive (Dev.throttleOn_asserts h)
  · exact fun halive h => exec_devRow (act := fun d => d.throttleOff t) rfl halive (Dev.throttleOff_releases h)
  · exact fun a halive ha herr ht => exec_devRow (act := fun d => d.throttleHeld t) rfl halive (Dev.throttleHeld_raises ha herr ht)
  · intro hup
    refine ⟨fun bs hlen => ?_, fun n => ?_, fun st dy hst hdyn => ?_, fun dy hdyn => ?_, ?_, ?_, ?_,
      fun hdyn => ⟨?_, ?_, ?_, ?_, ?_⟩, fun hibi halert hn hat => ?_⟩
    · exact exec_pinRow (act := fun d => d.i3cWrite bs) rfl (Dev.i3cWrite_sets hup hlen)
    · exact exec_pinRow (act := fun d => d.i3cRead s.fuse n) rfl (Dev.i3cRead_answers hup s.fuse n)
    · exact exec_pinRow (act := fun d => d.setdasa st dy) rfl (Dev.setdasa_sets hup hst hdyn dy)
    · exact exec_pinRow (act := fun d => d.entdaa s.fuse dy) rfl (Dev.entdaa_sets hup hdyn s.fuse dy)
    · exact exec_pinRow rfl (if_pos hup)
    · exact exec_pinRow rfl (if_pos hup)
    · exact exec_pinRow rfl (if_pos hup)
    · exact exec_pinRow (act := fun d => d.i3cAnswer (pid s.fuse)) rfl (Dev.i3cAnswer_replies hup hdyn _)
    · exact exec_pinRow (act := fun d => d.i3cAnswer _) rfl (Dev.i3cAnswer_replies hup hdyn _)
    · exact exec_pinRow (act := fun d => d.i3cAnswer _) rfl (Dev.i3cAnswer_replies hup hdyn _)
    · exact exec_pinRow (act := fun d => d.i3cAnswer _) rfl (Dev.i3cAnswer_replies hup hdyn _)
    · exact exec_pinRow (act := fun d => d.draw.1.i3cAnswer (leBytes 2 d.draw.2.toNat)) rfl
        (Dev.i3cAnswer_replies (d := s.dev.draw.1) hup hdyn _)
    · exact ⟨_, exec_pinRow (act := fun d => d.ibiRetry t) rfl (Dev.ibiRetry_raises hup hibi halert hn hat), rfl, rfl, rfl⟩
end

section
/-! SUPPORT. A step of the queue, and that every command answers a state (logs 3, 20). -/

namespace Sys2Proof.Machine

/-- However a command acts, it answers a state that keeps the queue and the flash. -/
theorem Acts.answers {s : State} {o : Out} (h : Acts s o) : ∃ t, o = .next t ∧ t.pending = s.pending ∧ t.flash = s.flash := by
  cases h with
  | device f =>
    obtain ⟨t, ht, hpending, hflash, -⟩ := onDev_answers f s
    exact ⟨t, ht, hpending, hflash⟩
  | pins f =>
    obtain ⟨t, ht, hpending, hflash, -⟩ := onPin_answers f s
    exact ⟨t, ht, hpending, hflash⟩
  | fuses f _ =>
    obtain ⟨t, ht, hpending, hflash, -⟩ := onFuse_answers f s
    exact ⟨t, ht, hpending, hflash⟩

theorem step_cons (c : Instr) (rest : List Instr) (s : State) :
    step { s with pending := c :: rest } = exec c { s with pending := rest } := rfl

theorem step_nil {s : State} (h : s.pending = []) : step s = .next s := by
  unfold step
  rw [h]

end Sys2Proof.Machine
end

section
/-! SUPPORT. The queue. -/

open Sys2Proof Sys2Proof.Machine

/-- Settles O3: each of the ways in which a command acts answers a state. -/
theorem commandsAnswer : Obligations.CommandsAnswer := fun c s => (exec_acts c s).answers

/-- Settles O1: the queue is empty, or has a front. -/
theorem stepTakesFront : Obligations.StepTakesFront := ⟨step_cons, fun _ => step_nil⟩
end

section
/-! SUPPORT. What the tests of units and of memory leave of the module (15 R491, R493): power, the stage and the resets, and of each
frond all but whether it is retired. -/

namespace Sys2Proof.Machine

/-- A frond apart from its verdicts. -/
def Frond.unjudged (x : Frond) : Frond := { x with retired := false, pendRetire := false }

/-- What tests leave. -/
def Dev.untested (d : Dev) : PwrS × Nat × List Rst × (Nat → Frond) :=
  (d.pwr, d.bup.stage, d.bup.resets, fun f => (d.frond f).unjudged)

theorem Dev.untested_of_bare {d e : Dev} (h : e.bare = d.bare) : e.untested = d.untested := by
  have hpwr : e.pwr = d.pwr := congrArg (·.pwr) h
  simp only [Dev.untested, Dev.frond, Dev.fronds_of_bare h, Dev.bup_of_bare h, hpwr]

section
variable {d e : Dev} (h : e.untested = d.untested)
include h

theorem Dev.pwr_of_untested : e.pwr = d.pwr := congrArg (·.1) h
theorem Dev.stage_of_untested : e.bup.stage = d.bup.stage := congrArg (·.2.1) h
theorem Dev.resets_of_untested : e.bup.resets = d.bup.resets := congrArg (·.2.2.1) h
theorem Dev.unjudged_of_untested (f : Nat) : (e.frond f).unjudged = (d.frond f).unjudged := congrFun (congrArg (·.2.2.2) h) f

end

variable (d : Dev)

/-! ### Updates and verdicts -/

theorem Dev.modFrond_untested {g : Frond → Frond} (hg : ∀ x, (g x).unjudged = x.unjudged) (f : Nat) :
    (d.modFrond f g).untested = d.untested := by
  have hfrond (k : Nat) : ((d.modFrond f g).frond k).unjudged = (d.frond k).unjudged := by
    rw [Dev.modFrond_eq, Dev.frond_setFrond]
    split
    next hk => rw [hg, hk]
    · rfl
  simp only [Dev.untested, hfrond]
  rfl

@[simp] theorem Dev.modGemma_untested (g : Nat) (f : Gemma → Gemma) : (d.modGemma g f).untested = d.untested := rfl
@[simp] theorem Dev.setBank_untested (b : Nat) (x : Bank) : (d.setBank b x).untested = d.untested := rfl
@[simp] theorem Dev.setRhz_untested (f : Nat) (x : Rhz) : (d.setRhz f x).untested = d.untested := rfl
@[simp] theorem Dev.storePoison_untested (w : Nat) : (d.storePoison w).untested = d.untested := rfl
@[simp] theorem Dev.inc_untested (c : Nat) : (d.inc c).untested = d.untested := rfl
@[simp] theorem Dev.retireLog_untested (kind index reason : Nat) : (d.retireLog kind index reason).untested = d.untested := rfl
@[simp] theorem Dev.raise_untested (s : Nat) (r : ErrRec) : (d.raise s r).untested = d.untested :=
  Dev.untested_of_bare (d.raise_bare s r)
@[simp] theorem Dev.willRetire_untested (f : Nat) : (d.willRetire f).untested = d.untested :=
  d.modFrond_untested (g := fun x => { x with pendRetire := true }) (fun _ => rfl) f

@[simp] theorem Dev.verdict_untested (fs : Fuses) (kind index phys : Nat) (testBad : Bool) :
    (d.verdict fs kind index phys testBad).1.untested = d.untested := by
  unfold Dev.verdict
  extract_lets s
  split
  · rfl
  · exact Dev.raise_untested _ _ _
  · exact Dev.raise_untested (d.retireLog kind index 2) _ _
  · rfl

/-! ### Lanes, rows and banks -/

@[simp] theorem Dev.laneFail_untested (f : Nat) (cc : Bool) (lane : Nat) : (d.laneFail f cc lane).untested = d.untested :=
  Dev.untested_of_bare (d.laneFail_bare f cc lane)

@[simp] theorem Dev.groupFail_untested (f g : Nat) : (d.groupFail f g).untested = d.untested := by
  refine Dev.untested_of_bare ?_
  unfold Dev.groupFail
  dsimp only
  repeat' split
  all_goals simp

@[simp] theorem Dev.mapRow_untested (b r k : Nat) : (d.mapRow b r k).untested = d.untested :=
  Dev.untested_of_bare (d.mapRow_bare b r k)

@[simp] theorem Dev.copyRow_untested (b r : Nat) (bad : List Nat) : (d.copyRow b r bad).untested = d.untested := by
  refine foldl_keeps Dev.untested (fun e i => ?_) _ d
  dsimp only
  split_ifs <;> rfl

@[simp] theorem Dev.remapRow_untested (b r : Nat) (bad : List Nat) : (d.remapRow b r bad).untested = d.untested := by
  unfold Dev.remapRow
  dsimp only
  split
  · split
    · rfl
    · rw [Dev.raise_untested]
      rfl
  · rw [Dev.inc_untested, Dev.mapRow_untested]
    split <;> simp

/-- The memory test of a stack that resets. -/
@[simp] theorem Dev.rstMemTest_untested (s : Nat) (bad : List BadUnit) : (d.rstMemTest s bad).untested = d.untested := by
  refine foldl_keeps Dev.untested (fun e u => ?_) bad d
  dsimp only
  split_ifs <;> simp

end Sys2Proof.Machine
end

section
/-! SUPPORT. How a reset below module level goes on (15 R496), and what a module reset leaves (15 R495). -/

namespace Sys2Proof.Machine

section
variable {d e : Dev} {level unit st : Nat}

/-! ### The list of resets -/

theorem Dev.rstState_of_resets (h : e.bup.resets = d.bup.resets) : e.rstState level unit = d.rstState level unit := by
  rw [Dev.rstState, h, Dev.rstState]

theorem Dev.rstShow_resets (d : Dev) (level unit st : Nat) : (d.rstShow level unit st).bup.resets = d.bup.resets := by
  unfold Dev.rstShow
  dsimp only
  split <;> rfl

theorem Dev.rstShow_fronds (d : Dev) (level unit st : Nat) : (d.rstShow level unit st).fronds = d.fronds := by
  unfold Dev.rstShow
  dsimp only
  split <;> rfl

theorem Dev.rstShow_mem (d : Dev) (level unit st : Nat) : (d.rstShow level unit st).mem = d.mem := by
  unfold Dev.rstShow
  dsimp only
  split <;> rfl

/-- The step that a reset in progress comes to. -/
theorem Dev.rstSet_rstState (h : d.rstState level unit = some st) (n : Nat) :
    (d.rstSet level unit n).rstState level unit = some n := by
  obtain ⟨r, hr, -⟩ := Option.map_eq_some_iff.1 h
  have hmine := List.find?_some hr
  have hset : (d.rstSet level unit n).bup.resets.find? (fun r => r.level == level && r.unit == unit) = some { r with st := n } := by
    rw [Dev.rstSet, List.find?_map, Function.comp_def]
    have hkey : (fun x : Rst => (if (x.level == level && x.unit == unit) = true then { x with st := n } else x).level == level &&
        (if (x.level == level && x.unit == unit) = true then { x with st := n } else x).unit == unit) =
        fun x => x.level == level && x.unit == unit := by
      funext x
      split <;> rfl
    rw [hkey, hr, Option.map_some, if_pos hmine]
  rw [Dev.rstState, hset, Option.map_some]

theorem Dev.rstShow_rstSet_rstState (h : d.rstState level unit = some st) (n m : Nat) :
    ((d.rstSet level unit n).rstShow level unit m).rstState level unit = some n :=
  (Dev.rstState_of_resets (Dev.rstShow_resets _ _ _ _)).trans (Dev.rstSet_rstState h n)

/-! ### The drain and the write-back -/

/-- Once nothing inside it is in flight, a frond is reinitialised, and a larger unit writes back. -/
theorem Dev.rstDrainEnd_proceeds (h : d.rstState level unit = some 1) (hdrained : d.rstDraining level unit = false) :
    (d.rstDrainEnd level unit).rstState level unit = some (if level = 0 then 3 else 2) ∧
      (d.rstDrainEnd level unit).mem = d.mem ∧ (d.rstDrainEnd level unit).fronds = d.fronds := by
  unfold Dev.rstDrainEnd
  rw [if_neg (by simp [h, hdrained])]
  by_cases hlevel : level = 0
  · rw [if_pos (by simpa using hlevel), if_pos hlevel]
    exact ⟨Dev.rstShow_rstSet_rstState h 3 2, Dev.rstShow_mem _ _ _ _, Dev.rstShow_fronds _ _ _ _⟩
  · rw [if_neg (by simpa using hlevel), if_neg hlevel]
    exact ⟨Dev.rstSet_rstState h 2, rfl, rfl⟩

theorem Dev.flushHalf_bup (d : Dev) (h : Nat) (tries : List WriteTry) : (d.flushHalf h tries).bup = d.bup :=
  congrArg (·.bup) (foldl_keeps Dev.apart (fun e _ => e.writeBack_apart _ _) _ d)

theorem Dev.domLost_bup (d : Dev) (i : Nat) : (d.domLost i).bup = d.bup := by
  unfold Dev.domLost
  extract_lets j
  split
  · exact (foldl_keeps Dev.bup (fun _ _ => by rfl) _ _).trans (foldl_keeps Dev.bup (fun _ _ => by rfl) _ d)
  · split
    · exact (foldl_keeps Dev.bup (fun e _ => foldl_keeps Dev.bup (fun _ _ => by rfl) _ e) _ _).trans
        (foldl_keeps Dev.bup (fun _ _ => by rfl) _ d)
    · rfl

theorem Dev.askDom_bup (d : Dev) (i : Nat) : (d.askDom i).bup = d.bup := congrArg (·.bup) (d.askDom_apart i)

/-- The halves written back and their domains switched off and on are no concern of the list of resets. -/
theorem Dev.rstWritebackEnd_proceeds (h : d.rstState level unit = some 2) (tries : List WriteTry) :
    (d.rstWritebackEnd level unit tries).rstState level unit = some 3 := by
  unfold Dev.rstWritebackEnd
  rw [if_neg (by simp [h])]
  refine Dev.rstShow_rstSet_rstState (st := 2) ((Dev.rstState_of_resets (congrArg BupS.resets ?_)).trans h) 3 2
  refine foldl_keeps Dev.bup (fun e i => ?_) _ d
  dsimp only
  split
  · exact e.flushHalf_bup i tries
  · exact (Dev.askDom_bup _ _).trans ((Dev.domLost_bup _ _).trans (e.flushHalf_bup i tries))

/-! ### Reinitialisation -/

/-- A frond without an operand store and scalar registers of its own. -/
def Frond.Cleared (x : Frond) : Prop := x.os = [] ∧ x.sreg = [] ∧ x.osValid = false

theorem Frond.afterReset_cleared (x : Frond) : x.afterReset.Cleared := ⟨rfl, rfl, rfl⟩

theorem Frond.Cleared.of_unjudged {x y : Frond} (h : x.Cleared) (hxy : y.unjudged = x.unjudged) : y.Cleared := by
  obtain ⟨hos, hsreg, hvalid⟩ := h
  exact ⟨(congrArg Frond.os hxy).trans hos, (congrArg Frond.sreg hxy).trans hsreg, (congrArg Frond.osValid hxy).trans hvalid⟩

/-- Every frond of a list is cleared by a run of clearings over the list. -/
theorem Dev.afterResets_cleared (d : Dev) {fr : List Nat} {f : Nat} (hf : f ∈ fr) :
    ((fr.foldl (fun d f => d.modFrond f Frond.afterReset) d).frond f).Cleared := by
  refine foldl_visits (a := f) (P := fun _ => True) (Q := fun e : Dev => (e.frond f).Cleared) (fun _ _ _ _ => trivial)
    (fun e _ => ?_) (fun e g h => ?_) hf trivial
  · rw [Dev.modFrond_eq, Dev.frond_setFrond_self]
    exact Frond.afterReset_cleared _
  · rw [Dev.modFrond_eq, Dev.frond_setFrond]
    split
    · exact Frond.afterReset_cleared _
    · exact h

/-- A reinitialised unit waits for the boundary, its fronds cleared; the verdicts on its parts leave that as it is. -/
theorem Dev.rstReinitEnd_proceeds (fs : Fuses) (bad : List BadUnit) (h : d.rstState level unit = some 3) (hcool : d.thm.ladder < 2)
    (hon : (rstDoms level unit).all (fun i => (d.dom i).st == 4) = true) :
    (d.rstReinitEnd fs level unit bad).rstState level unit = some 4 ∧
      ∀ f ∈ d.rstFronds level unit, ((d.rstReinitEnd fs level unit bad).frond f).Cleared := by
  have hdoms : (rstDoms level unit).any (fun i => (d.dom i).st != 4 && !(d.dom i).dead) = false := by
    simp only [List.any_eq_false, List.all_eq_true] at hon ⊢
    intro i hi
    simp [beq_iff_eq.1 (hon i hi)]
  unfold Dev.rstReinitEnd
  rw [if_neg (by simp only [h, hdoms]; simpa using hcool)]
  extract_lets fr d1 d2 isBad d3 d4
  have h2 : d2.bup.resets = d.bup.resets ∧ d2.fronds = d1.fronds := by
    have h1 : d1.bup = d.bup := foldl_keeps Dev.bup (fun _ _ => by rfl) fr d
    exact ⟨congrArg BupS.resets ((foldl_keeps Dev.bup (fun _ _ => by rfl) _ d1).trans h1),
      foldl_keeps Dev.fronds (fun _ _ => by rfl) _ d1⟩
  have h3 : d3.untested = d2.untested := by
    unfold d3
    split
    · rfl
    · refine foldl_keeps Dev.untested (fun e f => ?_) fr d2
      split
      · rfl
      · dsimp only
        refine (foldl_keeps Dev.untested (fun e g => ?_) _ _).trans ?_
        · split
          · rfl
          · simp [apply_ite Dev.untested]
        · simp [apply_ite Dev.untested]
  have h4 : d4.untested = d2.untested := by
    refine Eq.trans ?_ h3
    unfold d4
    split
    · exact Dev.rstMemTest_untested _ unit bad
    · rfl
  have hresets : d4.bup.resets = d.bup.resets := (Dev.resets_of_untested h4).trans h2.1
  refine ⟨Dev.rstSet_rstState ((Dev.rstState_of_resets hresets).trans h) 4, fun f hf => ?_⟩
  have hcleared : (d2.frond f).Cleared := by
    rw [Dev.frond, h2.2]
    exact Dev.afterResets_cleared d hf
  exact hcleared.of_unjudged (Dev.unjudged_of_untested h4 f)

/-! ### A module reset -/

theorem Dev.stopAction_resets (hon : d.bup.powered = true) (hhigh : d.pin.resetLow = false)
    (haction : (d.reg 0x0E000000).getLsbD 3 = true) (hstopped : d.err.double = true ∨ d.bup.state = 2) :
    d.stopAction = d.moduleReset := if_pos (by simpa [hon, hhigh, haction] using hstopped)

/-- What stops a fresh start for want of REFCLK changes nothing of it but its state, the record and its counter. -/
theorem Dev.moduleReset_eq (d : Dev) : ∃ bup : BupS, bup.stage = 0 ∧ ∃ (err : ErrS) (stat : StatS),
    d.moduleReset = { d.freshBoot with
      pin := { d.freshBoot.pin with refclk := d.pin.refclk }, bup := bup, err := err, stat := stat } := by
  unfold Dev.moduleReset
  cases h : d.pin.refclk with
  | true => exact ⟨_, rfl, _, _, rfl⟩
  | false => exact ⟨_, rfl, _, _, rfl⟩

end

end Sys2Proof.Machine
end

section
/-! SUPPORT. Resets. -/

open Sys2Proof Sys2Proof.Machine

/-- Settles O53: each end moves its reset on in the list of resets; a module reset starts afresh. -/
theorem resetsProceed : Obligations.ResetsProceed := by
  intro s level unit tries bad d
  obtain ⟨bup, hstage, err, stat, hreset⟩ := s.dev.moduleReset_eq
  refine ⟨fun halive => ⟨fun h hdrained => ?_, fun h => ?_, fun h hcool hon => ?_⟩, fun hon hhigh haction hstopped => ?_, ?_⟩
  · obtain ⟨hstate, hmem, hfronds⟩ := Dev.rstDrainEnd_proceeds h hdrained
    exact ⟨_, exec_devRow (act := fun d => d.rstDrainEnd level unit) rfl halive rfl, hstate, hmem, hfronds⟩
  · exact ⟨_, exec_devRow (act := fun d => d.rstWritebackEnd level unit tries) rfl halive rfl,
      Dev.rstWritebackEnd_proceeds h tries⟩
  · obtain ⟨hstate, hcleared⟩ := Dev.rstReinitEnd_proceeds s.fuse bad h hcool hon
    exact ⟨_, exec_devRow (act := fun d => d.rstReinitEnd s.fuse level unit bad) rfl halive rfl, hstate, hcleared⟩
  · exact exec_pinRow (act := Dev.stopAction) rfl (Dev.stopAction_resets hon hhigh haction hstopped)
  · rw [show d.moduleReset = _ from hreset]
    exact ⟨hstage, rfl, rfl, rfl, rfl, rfl⟩
end

section
/-! SUPPORT. Where bring-up stands (15 R480, R482): the stage, its state, the identity key and the last tick, which no register, unit,
record, port or word of memory bears on. -/

namespace Sys2Proof.Machine

/-- The stage and its state, whether the identity key is ready, and the last tick. -/
def Dev.course (d : Dev) : Nat × Nat × Bool × Nat := (d.bup.stage, d.bup.state, d.sec.keyReady, d.lastTick)

section
variable {d e : Dev}

theorem Dev.course_of_apart (h : e.apart = d.apart) : e.course = d.course := by
  change e.apart.course = d.apart.course
  rw [h]

theorem Dev.course_of_offLink (h : e.offLink = d.offLink) : e.course = d.course := by
  change e.offLink.course = d.offLink.course
  rw [h]

theorem Dev.course_of_recorded (h : d.Recorded e) : e.course = d.course := by
  obtain ⟨_, _, _, rfl⟩ := h
  rfl

theorem Dev.stage_of_course (h : e.course = d.course) : e.bup.stage = d.bup.stage := congrArg (·.1) h
theorem Dev.state_of_course (h : e.course = d.course) : e.bup.state = d.bup.state := congrArg (·.2.1) h
theorem Dev.keyReady_of_course (h : e.course = d.course) : e.sec.keyReady = d.sec.keyReady := congrArg (·.2.2.1) h
theorem Dev.lastTick_of_course (h : e.course = d.course) : e.lastTick = d.lastTick := congrArg (·.2.2.2) h

end

variable (d : Dev)

/-! ### Updates and records -/

@[simp] theorem Dev.setReg_course (a : Nat) (w : Word) : (d.setReg a w).course = d.course := rfl
@[simp] theorem Dev.setMasked_course (a m v : Nat) : (d.setMasked a m v).course = d.course := rfl
@[simp] theorem Dev.modFrond_course (f : Nat) (g : Frond → Frond) : (d.modFrond f g).course = d.course := rfl
@[simp] theorem Dev.modUnit_course (k : Nat) (f : WUnit → WUnit) : (d.modUnit k f).course = d.course := rfl
@[simp] theorem Dev.inc_course (c : Nat) : (d.inc c).course = d.course := rfl
@[simp] theorem Dev.setThm_course (f : ThermS → ThermS) : (d.setThm f).course = d.course := rfl
@[simp] theorem Dev.setRecord_course (n : Nat) (w : Word) : (d.setRecord n w).course = d.course := rfl
@[simp] theorem Dev.retireLog_course (kind index reason : Nat) : (d.retireLog kind index reason).course = d.course := rfl
@[simp] theorem Dev.raise_course (s : Nat) (r : ErrRec) : (d.raise s r).course = d.course :=
  Dev.course_of_recorded (d.raise_recorded r s)

/-- Power's own books bear on nothing of bring-up. -/
@[simp] theorem Dev.withPwr_course (p : PwrS) : ({ d with pwr := p } : Dev).course = d.course := rfl

theorem Dev.withBup_course (b : BupS) (hstage : b.stage = d.bup.stage) (hstate : b.state = d.bup.state) :
    ({ d with bup := b } : Dev).course = d.course := by simp only [Dev.course, hstage, hstate]

/-- Registers set one after the other. -/
@[simp] theorem Dev.foldl_setMasked_course {α : Type} (a m v : α → Nat) (l : List α) :
    (l.foldl (fun d x => d.setMasked (a x) (m x) (v x)) d).course = d.course := foldl_keeps Dev.course (fun _ _ => by rfl) l d

@[simp] theorem Dev.foldl_setReg_course {α : Type} (a : α → Nat) (w : α → Word) (l : List α) :
    (l.foldl (fun d x => d.setReg (a x) (w x)) d).course = d.course := foldl_keeps Dev.course (fun _ _ => by rfl) l d

/-! ### Units end and resets begin -/

@[simp] theorem Dev.touchInFlight_course (k : Nat) : (d.touchInFlight k).course = d.course :=
  foldl_keeps Dev.course (fun e _ => foldl_keeps Dev.course (fun _ _ => by rfl) _ e) _ d

@[simp] theorem Dev.endGemmas_course (u : WUnit) : (d.endGemmas u).course = d.course :=
  foldl_keeps Dev.course (fun _ _ => by rfl) _ d

@[simp] theorem Dev.endUnitAs_course (k st cause aux : Nat) : (d.endUnitAs k st cause aux).course = d.course := by
  unfold Dev.endUnitAs
  split
  · rfl
  · extract_lets d1 unc d2 d3
    have h1 : d1.course = d.course := by
      unfold d1
      split <;> simp
    clear_value d1
    have h3 : d3.course = d1.course := rfl
    split
    · rfl
    · split
      · exact h1
      · split
        · exact (d3.endGemmas_course _).trans h1
        · exact h1

theorem Dev.depFail_course (n : Nat) (d : Dev) : (d.depFail n).course = d.course := by
  induction n generalizing d with
  | zero => rfl
  | succ n ih =>
    unfold Dev.depFail
    extract_lets bad
    split
    · rfl
    · exact (ih _).trans (foldl_keeps Dev.course (fun e _ => e.endUnitAs_course _ 2 4 0) _ d)

@[simp] theorem Dev.rstUnits_course (level unit : Nat) : (d.rstUnits level unit).course = d.course :=
  (Dev.depFail_course _ _).trans (foldl_keeps Dev.course (fun e _ => e.endUnitAs_course _ _ 12 0) _ d)

@[simp] theorem Dev.fwLose_course (fs : List Nat) : (d.fwLose fs).course = d.course := by
  unfold Dev.fwLose
  split <;> rfl

@[simp] theorem Dev.rstShow_course (level unit st : Nat) : (d.rstShow level unit st).course = d.course := by
  unfold Dev.rstShow
  dsimp only
  split <;> rfl

@[simp] theorem Dev.abortRot_course : d.abortRot.course = d.course := by
  unfold Dev.abortRot
  split
  · rfl
  · dsimp only
    split
    · rfl
    · exact (Dev.raise_course _ _ _).trans (foldl_keeps Dev.course (fun _ _ => by rfl) _ _)

@[simp] theorem Dev.rstBegin_course (level unit : Nat) : (d.rstBegin level unit).course = d.course := by
  unfold Dev.rstBegin
  extract_lets fs d1 d2 d3 d4 d5
  have h1 : d1.course = d.course := Dev.rstShow_course _ _ _ _
  have h3 : d3.course = d1.course := foldl_keeps Dev.course (fun _ _ => by rfl) _ d2
  have h4 : d4.course = d3.course := (Dev.fwLose_course _ _).trans (Dev.rstUnits_course _ _ _)
  have h5 : d5.course = d4.course := by
    unfold d5
    split
    · split <;> simp
    · rfl
  have h : d5.course = d.course := by rw [h5, h4, h3, h1]
  split
  · refine (foldl_keeps Dev.course (fun e p => ?_) _ d5).trans h
    split
    · exact Dev.course_of_offLink (e.portDown_offLink p)
    · rfl
  · exact h

@[simp] theorem Dev.rstRequest_course (level unit : Nat) : (d.rstRequest level unit).course = d.course := by
  unfold Dev.rstRequest
  extract_lets
  split
  · rfl
  · split
    · rfl
    · split
      · rfl
      · split
        · rfl
        · exact Dev.rstBegin_course _ _ _

/-! ### Writes of registers -/

theorem Dev.rotRequest_course (a b mib : Nat) : (d.rotRequest a b mib).course = d.course := by
  unfold Dev.rotRequest
  split
  · split <;> rfl
  · rfl

theorem Dev.regAction_course (a m v : Nat) : (d.regAction a m v).course = d.course := by
  unfold Dev.regAction
  extract_lets o bit
  split_ifs
  · rfl
  · rfl
  · exact d.rstRequest_course _ _
  · rfl
  · rfl
  · rfl
  · exact Dev.course_of_offLink (d.portRetrain_offLink _)
  · rfl
  · exact d.rotRequest_course _ _ _
  · rfl
  · rfl
  · rfl

theorem Dev.w1c_course (a v : Nat) : (d.w1c a v).course = d.course := by
  unfold Dev.w1c
  dsimp only
  split_ifs <;> rfl

/-- A write that is no port's leaves the seal registers alone, and whatever it starts, bring-up stands where it stood. -/
theorem Dev.writeReg_course (a mask v : Nat) : (d.writeReg none a mask v).course = d.course := by
  unfold Dev.writeReg
  extract_lets o rm m d1
  have h1 : d1.course = d.course := by
    unfold d1
    split
    · exact d.w1c_course _ _
    · rfl
  split
  · exact congrArg Dev.course (if_pos rfl)
  · split
    · exact h1
    · exact (Dev.regAction_course _ _ _ _).trans h1

/-! ### The image's presets, sections and entries (15 R487, R489) -/

@[simp] theorem Dev.setAll_course (base n mask v : Nat) : (d.setAll base n mask v).course = d.course :=
  foldl_keeps Dev.course (fun _ _ => by rfl) _ d

theorem Dev.preset_course (code i : Nat) : (d.preset code i).course = d.course := by
  unfold Dev.preset
  split
  case h_14 => exact foldl_keeps Dev.course (fun _ _ => by rfl) _ _
  case h_4 => split <;> rfl
  all_goals simp

theorem Dev.applyLink_course (o : Option (List Byte)) : (d.applyLink o).course = d.course := by
  unfold Dev.applyLink
  split
  · exact foldl_keeps Dev.course (fun _ _ => by rfl) _ d
  · refine (foldl_keeps Dev.course (fun _ _ => by rfl) _ _).trans ((foldl_keeps Dev.course (fun _ _ => by rfl) _ _).trans
      (foldl_keeps Dev.course (fun e b => ?_) _ d))
    split <;> rfl

theorem Dev.applyPower_course (o : Option (List Byte)) : (d.applyPower o).course = d.course := by
  unfold Dev.applyPower
  split
  · rw [Dev.withPwr_course, Dev.foldl_setReg_course, Dev.setAll_course, Dev.setMasked_course]
  · rw [Dev.withPwr_course, Dev.foldl_setMasked_course, Dev.foldl_setReg_course, Dev.foldl_setMasked_course, Dev.setMasked_course]

theorem Dev.applyEntry_course (e : List Byte) : (d.applyEntry e).course = d.course := by
  unfold Dev.applyEntry
  extract_lets a rm _ d1
  split
  · rfl
  · refine (Dev.writeReg_course _ _ _ _).trans ?_
    unfold d1
    split <;> rfl

/-- What the image sets leaves bring-up where it stands. -/
theorem Dev.applyImage_course (fs : Fuses) (ss : List Sec) : (d.applyImage fs ss).course = d.course := by
  unfold Dev.applyImage
  extract_lets d1 _ d2 d3 d4 d5 d6 _ d7 _ d8 d9
  have h1 : d1.course = d.course := foldl_keeps Dev.course (fun e c => e.preset_course _ _) _ d
  clear_value d1
  have h2 : d2.course = d1.course := d1.withBup_course _ rfl rfl
  clear_value d2
  have h3 : d3.course = d2.course := by
    unfold d3
    split <;> rfl
  clear_value d3
  have h5 : d5.course = d3.course := (Dev.applyPower_course _ _).trans (Dev.applyLink_course d4 _)
  clear_value d5
  have h9 : d9.course = d5.course := foldl_keeps Dev.course (fun _ _ => by rfl) _ d8
  exact (foldl_keeps Dev.course (fun e x => e.applyEntry_course x) _ d9).trans (h9.trans (h5.trans (h3.trans (h2.trans h1))))

/-! ### Entry to operation (15 R482, 16 R515) -/

@[simp] theorem Dev.stipeWords_course (a : Nat) (ws : List Word) : (d.stipeWords a ws).course = d.course :=
  Dev.course_of_apart (d.stipeWrite_apart _ _ _)

@[simp] theorem Dev.zeroHeader_course (i : Nat) : (d.zeroHeader i).course = d.course := d.stipeWords_course _ _

@[simp] theorem Dev.portEnter_course (p : Nat) : (d.portEnter p).course = d.course :=
  Dev.course_of_offLink (Dev.sendFlits_offLink _ _ _)

@[simp] theorem Dev.bootCounts_course : d.bootCounts.course = d.course :=
  (Dev.setRecord_course _ _ _).trans (d.setRecord_course _ _)

/-- The device apart from its registers. -/
def Dev.offRegs (d : Dev) : Dev := { d with regs := [] }

/-- The bases are registers. -/
theorem Dev.setBases_offRegs : d.setBases.offRegs = d.offRegs := by
  unfold Dev.setBases
  split
  · rfl
  · extract_lets put
    have hput (e : Dev) (k lo v : Nat) : (put e k lo v).offRegs = e.offRegs := by
      unfold put
      split <;> rfl
    rw [hput, hput, hput, hput]

theorem Dev.setBases_now : d.setBases.now = d.now := congrArg (·.now) d.setBases_offRegs

theorem Dev.setBases_course : d.setBases.course = d.course := by
  change d.setBases.offRegs.course = d.offRegs.course
  rw [Dev.setBases_offRegs]

theorem Dev.logRec_course (r : ErrRec) : (d.logRec r).course = d.course := by
  unfold Dev.logRec
  split
  · rfl
  · extract_lets d1 d2
    have h1 : d1.course = d.course := by
      unfold d1
      split <;> rfl
    have h2 : d2.course = d1.course := d1.stipeWords_course _ _
    clear_value d1 d2
    exact h2.trans h1

theorem Dev.overflowRec_course : d.overflowRec.course = d.course := by
  unfold Dev.overflowRec
  split
  · exact Dev.raise_course _ _ _
  · rfl

/-- The records raised before operation are logged. -/
theorem Dev.logWaiting_course : d.logWaiting.course = d.course := by
  unfold Dev.logWaiting
  extract_lets l lost all _ e
  exact (Dev.course_of_recorded (Dev.select_recorded _)).trans ((Dev.overflowRec_course _).trans
    (foldl_keeps Dev.course (fun e r => e.logRec_course r) all e))

end Sys2Proof.Machine
end

section
/-! SUPPORT. The stages of bring-up, one by one (15 R480, R482, R486, R493, R494). -/

namespace Sys2Proof.Machine

section
variable {d : Dev} {t : Nat}

/-! ### Stage 1 (R486) -/

/-- A copy of the image is taken; the record has its version and the codes of both. -/
def Dev.copyTaken (d : Dev) (c : Nat) (bs : List Byte) (codes : Word) : Dev :=
  let image := bs.take (imageLen bs)
  let unknown := ((imageSecs image).getD []).filter (fun s => s.1 == 0 || decide (10 < s.1))
  let e : Dev := { d with bup := { d.bup with copy := c, image := image, ignored := unknown.length } }
  (e.setRecord 8 (wordAt image 0xC)).setRecord 9 codes

theorem Dev.stage1_takesA {fs : Fuses} {fl : Flash} (h : d.atStage 0 = true) (hsel : d.pin.flashSel = false)
    (hA : copyCode fs fl.copyA false = 0) (hB : atBytes fl.copyB 0xC 4 ≤ atBytes fl.copyA 0xC 4) :
    d.stage1 fs fl 0#2 = (d.enterStage 1).copyTaken 1 fl.copyA (pack [(0, 0), (0xFF, 8)]) := by
  have hsel' : (d.enterStage 1).pin.flashSel = false := hsel
  have hfirst : ¬ atBytes fl.copyA 0xC 4 < atBytes fl.copyB 0xC 4 := not_lt.2 hB
  have hread : (0#2).getLsbD 0 = false := rfl
  unfold Dev.stage1
  rw [if_neg (by simp [h])]
  extract_lets e cA cB bFirst pick
  have hcA : cA = 0 := by simp only [cA, e, hsel', hread, hA, Bool.false_eq_true, if_false]
  rw [if_neg (by simp [bFirst, hfirst]), hcA, if_pos (beq_self_eq_true 0)]
  rfl

/-! ### Stage 2 (R481, R489, R490) -/

/-- The identity key is ready, and the update images of the configuration image are what the receivers run. -/
def Dev.keyed (d : Dev) (fs : Fuses) (bs : List Byte) : Dev :=
  { d with sec := { d.sec with keyReady := true, fuseDigest := fs.digest, images := [0, 1, 2].map (fun c => (c, fwClassImage bs c))
                               versions := [0, 1, 2].map (fwVersion bs) } }

theorem Dev.stage2_passes {fs : Fuses} (h : d.atStage 1 = true)
    (hfw : fwCheck fs (secBytes ((imageSecs d.bup.image).getD []) 10) = none) (hcopies : fs.badCopy = []) :
    d.stage2 fs 0xF#4 [] = ((d.enterStage 2).keyed fs ((secBytes ((imageSecs d.bup.image).getD []) 10).getD [])).applyImage fs
      ((imageSecs d.bup.image).getD []) := by
  unfold Dev.stage2
  rw [if_neg (by simp [h]), hcopies]
  have hfound : (List.range 8).find? (fun r => decide (2 ≤ max (([] : List (Fin 3)).getD r 0).val
      (((([] : List (Nat × Nat)).find? (fun e => e.1 == r)).map (·.2)).getD 0))) = none := by decide
  have hsecond : (List.range 8).filter (fun r => max (([] : List (Fin 3)).getD r 0).val
      (((([] : List (Nat × Nat)).find? (fun e => e.1 == r)).map (·.2)).getD 0) == 1) = [] := by decide
  have himage : (d.enterStage 2).bup.image = d.bup.image := rfl
  have htests : [1, 2, 3].foldl (fun d s => if (0xF#4).getLsbD s then d else d.stackLeft s) (d.enterStage 2) = d.enterStage 2 := rfl
  dsimp only
  rw [hfound, hsecond, List.foldl_nil]
  dsimp only
  rw [htests, if_neg (by decide), himage, hfw]
  rfl

/-! ### Stage 3 (R493) -/

section
variable (d)

@[simp] theorem Dev.wipeLayer_untested (i : Nat) : (d.wipeLayer i).untested = d.untested := rfl
@[simp] theorem Dev.marchLayer_untested (i : Nat) (fill : Bool) : (d.marchLayer i fill).untested = d.untested := rfl
@[simp] theorem Dev.setRecord_untested (n : Nat) (w : Word) : (d.setRecord n w).untested = d.untested := rfl

@[simp] theorem Dev.rhzNow_untested (reason f : Nat) : (d.rhzNow reason f).untested = d.untested := by
  unfold Dev.rhzNow
  dsimp only
  split_ifs <;> simp

theorem Dev.rhzNows_untested (reason : Nat) (l : List Nat) : (l.foldl (fun d f => d.rhzNow reason f) d).untested = d.untested :=
  foldl_keeps Dev.untested (fun e f => e.rhzNow_untested reason f) l d

theorem Dev.laneFails_untested (cc : Bool) (l : List (Nat × Nat)) :
    (l.foldl (fun d e => d.laneFail e.1 cc e.2) d).untested = d.untested :=
  foldl_keeps Dev.untested (fun e a => e.laneFail_untested a.1 cc a.2) l d

theorem Dev.groupFails_untested (l : List (Nat × Nat)) : (l.foldl (fun d e => d.groupFail e.1 e.2) d).untested = d.untested :=
  foldl_keeps Dev.untested (fun e a => e.groupFail_untested a.1 a.2) l d

@[simp] theorem Dev.testLanes_untested (fs : Fuses) (env : MemTestEnv) : (d.testLanes fs env).untested = d.untested := by
  simp only [Dev.testLanes, Dev.rhzNows_untested, Dev.groupFails_untested, Dev.laneFails_untested]

@[simp] theorem Dev.imageEntry_untested (w : Word) : (d.imageEntry w).untested = d.untested := by
  unfold Dev.imageEntry
  dsimp only
  split
  · rfl
  · split
    · rfl
    · split <;> rfl

@[simp] theorem Dev.testRow_untested (b r : Nat) : (d.testRow b r).untested = d.untested := by
  unfold Dev.testRow
  split
  · extract_lets bk e f
    have he : e.untested = d.untested := by
      unfold e
      split <;> rfl
    exact (e.mapRow_untested b r _).trans he
  · rfl

/-- The domain of a memory pair whose stack is up is ON from stage 3 on. -/
def Dev.powerPair (up : Nat → Bool) (d : Dev) (i : Nat) : Dev :=
  if up (i / 14) && 8 ≤ i % 14 && i % 14 < 12 then d.modDom i (fun x => { x with st := 4 }) else d

theorem Dev.powerPair_bup (up : Nat → Bool) (i : Nat) : (d.powerPair up i).bup = d.bup := by
  unfold Dev.powerPair
  split <;> rfl

theorem Dev.powerPairs_on {up : Nat → Bool} {i : Nat} (hi : i < 56) (hup : up (i / 14) = true) (h8 : 8 ≤ i % 14)
    (h12 : i % 14 < 12) : (((List.range 56).foldl (Dev.powerPair up) d).dom i).st = 4 := by
  refine foldl_visits (a := i) (P := fun _ => True) (Q := fun e : Dev => (e.dom i).st = 4) (fun _ _ _ _ => trivial)
    (fun e _ => ?_) (fun e k h => ?_) (List.mem_range.2 hi) trivial
  · rw [Dev.powerPair, if_pos (by simp [hup, h8, h12]), Dev.dom_modDom, if_pos rfl]
  · unfold Dev.powerPair
    split
    · rw [Dev.dom_modDom]
      split
      · rfl
      · exact h
    · exact h

/-- From the pairs on, the tests of stage 3 leave power and the stage. -/
theorem Dev.stage3_untested (fs : Fuses) (env : MemTestEnv) (h : d.atStage 2 = true) : (d.stage3 fs env).untested =
    ((List.range 56).foldl (Dev.powerPair (fun s => !d.bup.downStacks.contains s)) (d.enterStage 3)).untested := by
  unfold Dev.stage3
  rw [if_neg (by simp [h])]
  extract_lets e up d1 d2 d3 d4 d5 d6 rows banks d7 fill d8
  have h1 : d1 = (List.range 56).foldl (Dev.powerPair (fun s => !d.bup.downStacks.contains s)) (d.enterStage 3) := rfl
  have h2 : d2.untested = d1.untested := d1.testLanes_untested fs env
  have h3 : d3.untested = d2.untested := foldl_keeps Dev.untested (fun _ _ => by rfl) _ d2
  have h4 : d4.untested = d3.untested := foldl_keeps Dev.untested (fun _ _ => by rfl) _ d3
  have h5 : d5.untested = d4.untested := by
    refine foldl_keeps Dev.untested (fun e b => ?_) _ d4
    split
    · split
      · rfl
      · rw [Dev.willRetire_untested, Dev.retireLog_untested]
    · rfl
  have h6 : d6.untested = d5.untested := foldl_keeps Dev.untested (fun e w => e.imageEntry_untested w) _ d5
  have h7 : d7.untested = d6.untested := by
    refine foldl_keeps Dev.untested (fun e b => ?_) _ d6
    dsimp only
    split
    · split
      · rfl
      · rw [Dev.raise_untested, Dev.willRetire_untested, Dev.retireLog_untested]
    · exact foldl_keeps Dev.untested (fun e (r : Nat × Nat) => e.testRow_untested b r.2) _ e
  have h8 : d8.untested = d7.untested := by
    refine foldl_keeps Dev.untested (fun e i => ?_) _ d7
    split <;> simp
  rw [Dev.setRecord_untested, h8, h7, h6, h5, h4, h3, h2, h1]

end

theorem Dev.stage3_stage (fs : Fuses) (env : MemTestEnv) (h : d.atStage 2 = true) : (d.stage3 fs env).bup.stage = 3 := by
  rw [Dev.stage_of_untested (d.stage3_untested fs env h), foldl_keeps Dev.bup (fun e i => e.powerPair_bup _ i)]
  rfl

theorem Dev.stage3_on (fs : Fuses) (env : MemTestEnv) (h : d.atStage 2 = true) {i : Nat} (hi : i < 56) (h8 : 8 ≤ i % 14)
    (h12 : i % 14 < 12) (hup : i / 14 ∉ d.bup.downStacks) : ((d.stage3 fs env).dom i).st = 4 := by
  rw [Dev.dom, Dev.pwr_of_untested (d.stage3_untested fs env h)]
  exact Dev.powerPairs_on _ hi (by simpa using hup) h8 h12

/-! ### Stages 4 and 5 (R480, 11 R366, R367) -/

/-- An enabled port whose stack is up trains. -/
def Dev.trains (d : Dev) (p : Nat) : Bool := d.portEn p && !d.bup.downStacks.contains (portStack p)

theorem Dev.trains_iff (d : Dev) (p : Nat) : d.trains p = true ↔ d.portEn p = true ∧ portStack p ∉ d.bup.downStacks := by
  simp [Dev.trains]

/-- A port's turn in stage 4. -/
def Dev.trainPort (d : Dev) (p : Nat) : Dev :=
  if d.trains p then d.modPort p (fun x => { x with st := 1, stAt := d.now }) else d

theorem Dev.trainPort_trains (d : Dev) (p q : Nat) : (d.trainPort p).trains q = d.trains q := by
  unfold Dev.trainPort
  split <;> rfl

theorem Dev.trainPort_bup (d : Dev) (p : Nat) : (d.trainPort p).bup = d.bup := by
  unfold Dev.trainPort
  split <;> rfl

theorem Dev.trainPort_st (d : Dev) (p q : Nat) :
    ((d.trainPort p).port q).st = if q = p ∧ d.trains p = true then 1 else (d.port q).st := by
  unfold Dev.trainPort
  by_cases htrains : d.trains p = true
  · rw [if_pos htrains, Dev.modPort_eq, Dev.port_setPort]
    by_cases hq : q = p <;> simp [hq, htrains]
  · rw [if_neg htrains, if_neg fun h => htrains h.2]

/-- Each port once all have had their turn. -/
theorem Dev.trainPorts_st (d : Dev) {q : Nat} (hq : q < 6) :
    (((List.range 6).foldl Dev.trainPort d).port q).st = if d.trains q = true then 1 else (d.port q).st := by
  refine (foldl_visits (a := q) (P := fun e : Dev => e.trains q = d.trains q ∧ (e.port q).st = (d.port q).st)
    (Q := fun e : Dev => e.trains q = d.trains q ∧ (e.port q).st = if d.trains q = true then 1 else (d.port q).st)
    (fun e p hp h => ?_) (fun e h => ?_) (fun e p h => ?_) (List.mem_range.2 hq) ⟨rfl, rfl⟩).2
  · exact ⟨(e.trainPort_trains p q).trans h.1, by rw [e.trainPort_st, if_neg fun hqp => hp hqp.1.symm, h.2]⟩
  · refine ⟨(e.trainPort_trains q q).trans h.1, ?_⟩
    rw [e.trainPort_st, h.1, h.2]
    simp
  · refine ⟨(e.trainPort_trains p q).trans h.1, ?_⟩
    rw [e.trainPort_st, h.2]
    split
    next hp => rw [if_pos (by rw [← h.1, hp.1]; exact hp.2)]
    · rfl

theorem Dev.stage4_eq (h : d.atStage 3 = true) :
    d.stage4 t = (List.range 6).foldl Dev.trainPort ((d.upTo t).enterStage 4) := by
  have h' : (d.upTo t).atStage 3 = true := h
  unfold Dev.stage4
  exact if_neg (by simpa [Dev.upTo] using h')

theorem Dev.stage5_eq (h : d.atStage 4 = true) (htrained : ∀ p < 6, (d.port p).st ≠ 1) :
    d.stage5 t = (d.upTo t).enterStage 5 := by
  have h' : (d.upTo t).atStage 4 = true := h
  have hports : (List.range 6).any (fun p => ((d.upTo t).port p).st == 1) = false := by
    simpa [Dev.port, Dev.upTo] using htrained
  change (if (!(d.upTo t).atStage 4 || ((List.range 6).any (fun p => ((d.upTo t).port p).st == 1) && _)) = true then _ else _) = _
  exact if_neg (by simp [h', hports])

/-! ### Stage 6 (R494) -/

theorem Frond.up_of_unjudged {x y : Frond} (h : x.unjudged = y.unjudged) : x.up = y.up := congrArg (·.up) h

/-- The half-layer of wave w: number w / 4 of stack w mod 4. -/
def waveHalf (w : Nat) : Nat := 8 * (w % 4) + w / 4

/-- The verdicts of a wave on a frond and its gemmas, all of which are then in service or retired. -/
def Dev.waveFrond (fs : Fuses) (d : Dev) (f : Nat) : Dev :=
  let r := d.verdict fs 0 f f false
  (gemmasOf f).foldl (fun d g =>
    let r := d.verdict fs 1 g g false
    r.1.modGemma g (fun x => { x with up := true, retired := r.2 }))
    (r.1.modFrond f (fun x => { x with up := true, retired := r.2 || x.pendRetire, pendRetire := false }))

theorem Dev.waveFrond_untested (fs : Fuses) (d : Dev) (f : Nat) : ∃ retired, (d.waveFrond fs f).untested =
    ((d.verdict fs 0 f f false).1.modFrond f (fun x =>
      { x with up := true, retired := retired || x.pendRetire, pendRetire := false })).untested := by
  refine ⟨(d.verdict fs 0 f f false).2, ?_⟩
  refine foldl_keeps Dev.untested (fun e g => ?_) _ _
  rw [Dev.modGemma_untested, Dev.verdict_untested]

theorem Dev.waveFrond_pwr (fs : Fuses) (d : Dev) (f : Nat) : (d.waveFrond fs f).pwr = d.pwr := by
  obtain ⟨_, h⟩ := d.waveFrond_untested fs f
  have hverdict : (d.verdict fs 0 f f false).1.pwr = d.pwr := Dev.pwr_of_untested (d.verdict_untested fs 0 f f false)
  exact (Dev.pwr_of_untested h).trans hverdict

theorem Dev.waveFrond_up (fs : Fuses) (d : Dev) (f g : Nat) :
    ((d.waveFrond fs f).frond g).up = if g = f then true else (d.frond g).up := by
  obtain ⟨_, h⟩ := d.waveFrond_untested fs f
  have hverdict : ((d.verdict fs 0 f f false).1.frond g).up = (d.frond g).up :=
    Frond.up_of_unjudged (Dev.unjudged_of_untested (d.verdict_untested fs 0 f f false) g)
  rw [Frond.up_of_unjudged (Dev.unjudged_of_untested h g), Dev.modFrond_eq, Dev.frond_setFrond]
  split
  · rfl
  · exact hverdict

/-- The half-layer of a wave is ON before its units are judged. -/
def Dev.waveOn (d : Dev) (i : Nat) : Dev :=
  let req := bf (d.reg (0x0C000100 + 4 * i)) 1 0
  (d.modDom i (fun x => { x with st := 4, req := if req == 3 then 1 else req })).inc (cDom i 9)

theorem Dev.waveOn_st (d : Dev) (i : Nat) : ((d.waveOn i).dom i).st = 4 := by
  rw [Dev.waveOn]
  exact congrArg Dom.st (SMap.get_put_self _ _ _ _)

theorem Dev.wave_eq (fs : Fuses) {w : Nat} (h : d.atStage 6 = true) (hup : w % 4 ∉ d.bup.downStacks)
    (hoff : (d.dom (halfDom (waveHalf w))).st = 0) : d.wave fs w [] false =
      ((List.range 8).map (8 * waveHalf w + ·)).foldl (Dev.waveFrond fs) (d.waveOn (halfDom (waveHalf w))) := by
  have hnot : d.atStage 5 = false := by
    simp only [Dev.atStage, Bool.and_eq_true, beq_iff_eq] at h
    simp [Dev.atStage, h.2]
  unfold Dev.wave
  rw [if_neg (show ¬ (d.atStage 5 && _) = true by simp [hnot])]
  extract_lets
  refine (if_neg ?_).trans rfl
  change ¬ (!d.atStage 6 || d.bup.downStacks.contains (w % 4) || (d.dom (halfDom (waveHalf w))).st == 4 ||
    (d.dom (halfDom (waveHalf w))).st == 5) = true
  simp [h, hup, hoff]

/-- A wave switches its half-layer on, and puts its fronds in service. -/
theorem Dev.wave_switchesOn (fs : Fuses) {w : Nat} (h : d.atStage 6 = true) (hup : w % 4 ∉ d.bup.downStacks)
    (hoff : (d.dom (halfDom (waveHalf w))).st = 0) :
    ((d.wave fs w [] false).dom (halfDom (waveHalf w))).st = 4 ∧
      ∀ k < 8, ((d.wave fs w [] false).frond (8 * waveHalf w + k)).up = true := by
  rw [Dev.wave_eq fs h hup hoff]
  constructor
  · rw [Dev.dom, foldl_keeps Dev.pwr fun e f => e.waveFrond_pwr fs f]
    exact d.waveOn_st _
  · intro k hk
    refine foldl_visits (a := 8 * waveHalf w + k) (P := fun _ => True)
      (Q := fun e : Dev => (e.frond (8 * waveHalf w + k)).up = true) (fun _ _ _ _ => trivial) (fun e _ => ?_) (fun e f h => ?_)
      (List.mem_map.2 ⟨k, List.mem_range.2 hk, rfl⟩) trivial
    · rw [e.waveFrond_up, if_pos rfl]
    · rw [e.waveFrond_up, h, ite_self]

/-! ### Stage 7 (R482) -/

section
variable (d)

/-- The fronds of the stacks that are down are retired. -/
def Dev.downRetired : Dev := (List.range 256).foldl (fun d f =>
  if d.bup.downStacks.contains (f / 64) then (d.retireLog 0 f 6).modFrond f (fun x => { x with retired := true }) else d) d

/-- The module is in operation, with the stacks that have come up. -/
def Dev.operating : Dev :=
  { d with bup := { d.bup with state := 1, upStacks := (List.range 4).filter (fun s => !d.bup.downStacks.contains s) } }

/-- The fronds take their seeds. -/
def Dev.seeded : Dev :=
  (List.range 256).foldl (fun d f => d.modFrond f (fun x => { x with seed := d.reg (0x02000400 + 4 * f), seedPend := false })) d

/-- The registers come into force, and the first frame runs from now on. -/
def Dev.firstFrame : Dev := { d with inForce := d.regs, lastTick := d.now, frm := { d.frm with entry7 := d.now } }

/-- The ports that are ready enter operation. -/
def Dev.portsEnter : Dev := (List.range 6).foldl (fun d p => if (d.port p).ready && (d.port p).st == 2 then d.portEnter p else d) d

/-- The configuration lock closes where the image asks for it. -/
def Dev.autoLock : Dev := if (d.reg 4).getLsbD 1 then { d with bup := { d.bup with lock := true } } else d

theorem Dev.enterStage_stage (n : Nat) : (d.enterStage n).bup.stage = n := rfl
theorem Dev.enterStage_now (n : Nat) : (d.enterStage n).now = d.now := rfl
theorem Dev.operating_stage : d.operating.bup.stage = d.bup.stage := rfl
theorem Dev.operating_state : d.operating.bup.state = 1 := rfl
theorem Dev.operating_now : d.operating.now = d.now := rfl

theorem Dev.downRetired_now : d.downRetired.now = d.now := by
  refine foldl_keeps Dev.now (fun e f => ?_) _ d
  split <;> rfl

theorem Dev.seeded_course : d.seeded.course = d.course := foldl_keeps Dev.course (fun _ _ => by rfl) _ d

theorem Dev.seeded_now : d.seeded.now = d.now := foldl_keeps Dev.now (fun _ _ => by rfl) _ d

theorem Dev.portsEnter_course : d.portsEnter.course = d.course := by
  refine foldl_keeps Dev.course (fun e p => ?_) _ d
  split
  · exact e.portEnter_course p
  · rfl

theorem Dev.autoLock_course : d.autoLock.course = d.course := by
  unfold Dev.autoLock
  split
  · exact d.withBup_course _ rfl rfl
  · rfl

theorem Dev.firstFrame_course : d.firstFrame.course = (d.bup.stage, d.bup.state, d.sec.keyReady, d.now) := rfl

end

/-- Stage 7 follows once every half-layer of a stack that is up is ON. -/
theorem Dev.stage7_eq (h : d.atStage 6 = true) (hon : ∀ h < 32, h / 8 ∉ d.bup.downStacks → (d.dom (halfDom h)).st = 4) :
    d.stage7 t = ((((d.upTo t).downRetired.enterStage 7).operating.setBases.seeded.firstFrame.zeroHeader 0).zeroHeader
      1).portsEnter.bootCounts.autoLock.logWaiting := by
  have hgo : (!(d.upTo t).atStage 6 || (List.range 32).any (fun h => !(d.upTo t).bup.downStacks.contains (h / 8) &&
      ((d.upTo t).dom (halfDom h)).st != 4 && ((d.upTo t).dom (halfDom h)).st != 5)) = false := by
    rw [show (d.upTo t).atStage 6 = true from h, Bool.not_true, Bool.false_or, List.any_eq_false]
    intro h hh
    by_cases hup : h / 8 ∈ d.bup.downStacks
    · simp [Dev.upTo, hup]
    · have hst : ((d.upTo t).dom (halfDom h)).st = 4 := hon h (List.mem_range.1 hh) hup
      simp [hst]
  unfold Dev.stage7
  extract_lets d1 d2 d3 b3 d4 d5 d6 f6 d8 d9 d10 d11 b11 d12
  have h2 : d2 = d1.downRetired := rfl
  have h4 : d4 = d3.operating := rfl
  have h6 : d6 = d5.seeded := rfl
  have h8 : d8 = d6.firstFrame := rfl
  have h10 : d10 = d9.portsEnter := rfl
  have h12 : d12 = d11.autoLock := rfl
  refine (if_neg (ne_of_eq_of_ne hgo Bool.false_ne_true)).trans ?_
  rw [h12, show d11 = d10.bootCounts from rfl, h10, show d9 = (d8.zeroHeader 0).zeroHeader 1 from rfl, h8, h6,
    show d5 = d4.setBases from rfl, h4, show d3 = d2.enterStage 7 from rfl, h2]
  rfl

/-- The module is then in operation from the present moment on. -/
theorem Dev.stage7_course (h : d.atStage 6 = true) (hon : ∀ h < 32, h / 8 ∉ d.bup.downStacks → (d.dom (halfDom h)).st = 4) :
    ∃ key, (d.stage7 t).course = (7, 1, key, max d.now t) := by
  rw [Dev.stage7_eq h hon, Dev.logWaiting_course, Dev.autoLock_course, Dev.bootCounts_course, Dev.portsEnter_course,
    Dev.zeroHeader_course, Dev.zeroHeader_course, Dev.firstFrame_course]
  have hcourse := (Dev.seeded_course _).trans ((d.upTo t).downRetired.enterStage 7).operating.setBases_course
  rw [Dev.stage_of_course hcourse, Dev.state_of_course hcourse, Dev.operating_stage, Dev.operating_state, Dev.enterStage_stage,
    Dev.seeded_now, Dev.setBases_now, Dev.operating_now, Dev.enterStage_now, Dev.downRetired_now]
  exact ⟨_, rfl⟩

end

end Sys2Proof.Machine
end

section
/-! SUPPORT. Bring-up. -/

open Sys2Proof Sys2Proof.Machine

/-- Settles O58: each stage by its own function's equation, and by what the rest of the stage leaves of it. -/
theorem bringUp : Obligations.BringUp := by
  intro s t halive d
  refine ⟨fun h0 hsel hA hB => ?_, fun h1 hfw hcopies => ?_, fun env h2 => ?_, fun h3 => ?_, fun h4 htrained => ?_,
    fun w h6 hup hoff => ?_, fun h6 hon => ?_⟩
  · exact ⟨_, exec_devRow (act := fun d => d.stage1 s.fuse s.flash 0#2) rfl halive (Dev.stage1_takesA h0 hsel hA hB),
      rfl, rfl, rfl, rfl, rfl⟩
  · exact ⟨_, exec_devRow (act := fun d => d.stage2 s.fuse 0xF#4 []) rfl halive (Dev.stage2_passes h1 hfw hcopies),
      Dev.stage_of_course (Dev.applyImage_course _ _ _), Dev.keyReady_of_course (Dev.applyImage_course _ _ _)⟩
  · exact ⟨_, exec_devRow (act := fun d => d.stage3 s.fuse env) rfl halive rfl, Dev.stage3_stage s.fuse env h2,
      fun i hi h8 h12 hup => Dev.stage3_on s.fuse env h2 hi h8 h12 hup⟩
  · refine ⟨_, exec_devRow (act := fun d => d.stage4 t) rfl halive (Dev.stage4_eq h3), ?_, fun p hp => ?_⟩
    · rw [foldl_keeps Dev.bup fun e p => e.trainPort_bup p]
      rfl
    · rw [Dev.trainPorts_st _ hp]
      exact if_congr (Dev.trains_iff _ p) rfl rfl
  · exact exec_devRow (act := fun d => d.stage5 t) rfl halive (Dev.stage5_eq h4 htrained)
  · obtain ⟨hst, hfronds⟩ := Dev.wave_switchesOn s.fuse h6 hup hoff
    exact ⟨_, exec_devRow (act := fun d => d.wave s.fuse w [] false) rfl halive rfl, hst, hfronds⟩
  · obtain ⟨_, hcourse⟩ := Dev.stage7_course (t := t) h6 hon
    obtain ⟨hstage, hstate, -, htick⟩ := by simpa only [Dev.course, Prod.mk.injEq] using hcourse
    exact ⟨_, exec_devRow (act := fun d => d.stage7 t) rfl halive rfl, hstage, hstate, htick⟩
end
